-- ==== Sys2Proof/Word.lean ====
section
/-! DEFINITION. The word types of the part and the sparse table that every indexed group of registers uses. -/

namespace Sys2Proof

/-- One byte of memory. -/
abbrev Byte := BitVec 8

/-- One 32-bit engine register or CSR word. -/
abbrev Word := BitVec 32

/-- A sparse table: keys strictly rising, no entry equal to the table's default value. -/
abbrev SMap (α : Type) := List (Nat × α)

/-- Status codes of R324 as 16-bit numbers. -/
abbrev Status := Nat

end Sys2Proof
end

