-- ==== Sys2Proof/Syntax.lean ====
section
/-! DEFINITION. The commands of the part: one constructor per row of the opcode table, with the row's operands. -/

namespace Sys2Proof

/-- A mailbox: function 0-3 for PF0-PF3, 4-19 for VF0-VF15 (R339), and the index m on that function (R310). -/
structure Mbx where
  fn : Nat
  m  : Nat
deriving DecidableEq, Repr

/-- A submission entry of R314 (64 bytes) as the part has acknowledged it from the ring of a mailbox. -/
structure Submission where
  mbx   : Mbx
  entry : BitVec 512
  /-- the pod that the mailbox's function served at the acknowledgement, none on a PF (R342) -/
  pod   : Option Nat := none
  /-- which doorbell write of its hub covered the entry (R261) -/
  bell  : Nat := 0
deriving DecidableEq, Repr

/-- A register of a function's PCIe or CXL capabilities that the host writes (R337, R338). -/
inductive CfgReg where
  | deviceControl | deviceControl2 | aerStatus | msixControl | numVfs | sriovControl
  | hdmBase (k : Nat) | hdmSize (k : Nat) | hdmSkip (k : Nat) | hdmControl (k : Nat)
deriving DecidableEq, Repr

/-- Where a register write goes: BAR0 of the requesting function, the CSR range, or its capabilities. -/
inductive RegSpace where
  | bar0 | csr
  | config (r : CfgReg)
deriving DecidableEq, Repr

/-- Who makes a register access: a host function, or a control core (R288, R346). -/
inductive Requester where
  | fn (n : Nat)
  | control
deriving DecidableEq, Repr

/-- A unit of R325. -/
inductive UnitRef where
  | tile (n : Nat)          -- 64 × die + 8 × cluster + tile
  | cluster (n : Nat)       -- core 0-31
  | matrixDie (d : Nat)
  | engine (n : Nat)        -- 64 × stack + engine
  | group (n : Nat)         -- 4 × stack + group, core 32 + n
  | stack (s : Nat)
  | slice (k : Nat)
  | port (p : Nat)
  | window (w : Nat)
  | rail (i : Nat)
  | pod (p : Nat)
  | link (n : Nat)
  | hub (h : Nat)
  | dramDie (s k : Nat)
deriving DecidableEq, Repr

/-- A unit that flits leave or reach (R22, R34): a stack, matrix die or hub, or a unit behind the local port of one. -/
inductive Endpoint where
  | stack (s : Nat)
  | matrix (d : Nat)
  | hub (h : Nat)
  | cluster (n : Nat)       -- core 0-31
  | tile (n : Nat)          -- 64 × die + 8 × cluster + tile
  | group (n : Nat)         -- 4 × stack + group
  | engine (n : Nat)        -- 64 × stack + engine
  | slice (k : Nat)
deriving DecidableEq, Repr

/-- Traffic class of R26. -/
inductive TClass where
  | lc | ctl | bulk
deriving DecidableEq, Repr

/-- What a flit carries, as far as R26 tells its class by it. -/
inductive Traffic where
  /-- a read marked latency-critical in its descriptor, and the response to one -/
  | lcRead | lcResponse
  /-- a granule of the exchange instruction -/
  | exchange
  | mailbox | journal | streamMirror | fence | heartbeat | event
  /-- everything else -/
  | other
deriving DecidableEq, Repr

/-- A node of an instance of a pod. -/
structure NodeRef where
  pod  : Nat
  inst : Nat
  node : Nat
deriving DecidableEq, Repr

/-- A flit as its source hands it to the fabric (R19, R24, R26): ends, what it carries, the pod and core it belongs to and the node
that issued it, if one did, with its byte mask and its payload. -/
structure FlitDesc where
  src : Endpoint
  dst : Endpoint
  what : Traffic
  pod : Nat
  core : Nat
  node : Option NodeRef
  mask : BitVec 64
  payload : BitVec 512
deriving DecidableEq, Repr

/-- Who a flit belongs to: its pod and core, and the node that issued it, if one did. -/
structure FlitOwner where
  pod : Nat
  core : Nat
  node : Option NodeRef
deriving DecidableEq, Repr

/-- What a flit carries (R19): its byte mask and its payload. -/
structure FlitLoad where
  mask : BitVec 64
  payload : BitVec 512
deriving DecidableEq, Repr

/-- The sender of writes into a peer window that its partner answers (R299): a node, or the park or ship of a stream. -/
inductive WriteSender where
  | node (ref : NodeRef)
  | stream (id : Nat)
deriving DecidableEq, Repr

/-- One logical tile's run of a MATRIX node: the node, the core of its set, and the logical tile. -/
structure TileRef where
  node : NodeRef
  core : Nat
  tile : Nat
deriving DecidableEq, Repr

/-- Where an engine instruction issues: engine 64 × stack + e, and the thread-group slot (R125, R126). -/
structure Issue where
  engine : Nat
  slot   : Nat
deriving DecidableEq, Repr

/-- The fields of an instruction word but its opcode (R144). -/
structure EngFields where
  d   : BitVec 6
  a   : BitVec 6
  b   : BitVec 6
  c   : BitVec 6
  imm : BitVec 32
deriving DecidableEq, Repr

/-- Operations of the cluster vector unit (R88, R89). -/
inductive VecOp where
  | fadd | fsub | fmul | fma | fmax | fmin | cmpLt | convert | exp | recip | rsqrt | silu
  | sumReduce | maxReduce | minReduce
deriving DecidableEq, Repr

/-- A vector step: the operation, the 128-byte tensor descriptors of its sources and destination in the cluster's
scratchpads (each with the tile, 0-7, whose scratchpad it names), and whether source 0 is the drain's FP32 lane rows (R88, R90). -/
structure VectorDesc where
  op    : VecOp
  drain : Option TileRef
  srcs  : List (Nat × BitVec 1024)
  dst   : Nat × BitVec 1024
deriving DecidableEq, Repr

/-- The outcome of a host access's poison flag and ordering attributes (R295). -/
structure HostAttr where
  reqId : Nat
  relaxed : Bool
deriving DecidableEq, Repr

/-- The commands: one constructor per row of spec/opcode_table.json, in its order. -/
inductive Instr where
  | identify (sub : Submission)
  | summary (sub : Submission)
  | timeSet (sub : Submission)
  | timeGet (sub : Submission)
  | podCreate (sub : Submission)
  | podCreateAmend (sub : Submission)
  | podDestroy (sub : Submission)
  | podSetQuota (sub : Submission)
  | podMoveCores (sub : Submission)
  | podBind (sub : Submission)
  | podUnbind (sub : Submission)
  | regionMap (sub : Submission)
  | mirrorDeclare (sub : Submission)
  | regionUnmap (sub : Submission)
  | memFill (sub : Submission)
  | graphLoad (sub : Submission)
  | graphUnload (sub : Submission)
  | graphRun (sub : Submission)
  | graphCancel (sub : Submission)
  | journalRead (sub : Submission)
  | streamOpen (sub : Submission)
  | streamOpenInbound (sub : Submission)
  | streamCancel (sub : Submission)
  | streamPark (sub : Submission)
  | streamUnpark (sub : Submission)
  | batchStep (sub : Submission)
  | streamShip (sub : Submission)
  | adapterLoad (sub : Submission)
  | prefixInsert (sub : Submission)
  | prefixRemove (sub : Submission)
  | prefixLookup (sub : Submission)
  | partnerAdd (sub : Submission)
  | partnerRemove (sub : Submission)
  | windowMap (sub : Submission)
  | healthRead (sub : Submission)
  | marginPlanRead (sub : Submission)
  | fenceRequest (sub : Submission)
  | unfence (sub : Submission)
  | fuseRepair (sub : Submission)
  | thermalConfig (sub : Submission)
  | powerLimit (sub : Submission)
  | powerLimitForce (sub : Submission)
  | syncConfigDevice (sub : Submission)
  | syncConfigPod (sub : Submission)
  | syncConfigStamp (sub : Submission)
  /-- TAKEOVER with the token read from host memory and whether the other hub's power-good fell within 10 ms. -/
  | takeover (sub : Submission) (token : BitVec 4096) (otherFell : Bool)
  | ownerOffer (sub : Submission)
  | ownerAccept (sub : Submission)
  | ownerClaim (sub : Submission) (token : BitVec 4096)
  | debugUnlock (sub : Submission) (token : BitVec 4096)
  | lifecycleRead (sub : Submission)
  | setOwner (sub : Submission) (hash : BitVec 384)
  | rotateOwner (sub : Submission) (token : BitVec 4096)
  | retire (sub : Submission) (token : BitVec 4096)
  | lifecycleFuseWord
  | mbxEnable (mbx : Mbx)
  | mbxDisable (mbx : Mbx)
  | sqDoorbell (mbx : Mbx) (tail : BitVec 16)
  | cqHeadWrite (mbx : Mbx) (head : BitVec 16)
  /-- The part reads the ring's next entry from host memory: `busOk` false when the ring read fails on the bus. -/
  | submissionAck (mbx : Mbx) (entry : BitVec 512) (busOk : Bool)
  | eventRingEnable (fn : Nat)
  | lostFlagClear (fn : Nat)
  | evHeadWrite (fn : Nat) (head : BitVec 16)
  | msixMessage (fn : Nat) (vec : Nat)
  | lcCapWrite (req : Requester) (n : Nat) (value : BitVec 32)
  | lcCapApply (n : Nat)
  | pwuInvalidate (req : Requester) (s : Nat) (value : BitVec 64)
  | kvLandWrite (req : Requester) (p : Nat) (value : BitVec 512)
  | landChArm (req : Requester) (n : Nat) (len : BitVec 48)
  | landChDisarm (req : Requester) (n : Nat)
  | apertureWrite (req : Requester) (n : Nat) (value : BitVec 128)
  | eccCfgWrite (req : Requester) (value : BitVec 64)
  /-- A 32-bit write at a byte offset of a register space (`off` has no meaning for a capability register, which is named). -/
  | registerWrite (req : Requester) (space : RegSpace) (off : Nat) (value : BitVec 32)
  | fmtCntRead (req : Requester) (stk : Bool) (n : Nat) (word : Nat)
  | pwuStatRead (req : Requester) (s : Nat)
  | dramSlotRead (req : Requester) (s : Nat)
  | mirrorStatRead (req : Requester) (k : Nat)
  | portRefuseRead (req : Requester) (p : Nat)
  | thmDieRead (req : Requester) (n : Nat)
  | syncRefStatRead (req : Requester)
  | mbxDroppedRead (mbx : Mbx)
  | eventLostRead (fn : Nat)
  | kvLandRead (req : Requester) (p : Nat)
  | flitInject (src dst : Endpoint) (what : Traffic) (owner : FlitOwner) (load : FlitLoad)
  /-- `noise` holds the bits that the link has flipped: the CRC in bits 31:0, the mask in 95:32, the payload in 607:96. -/
  | flitReceive (link : Nat) (up : Bool) (noise : BitVec 608)
  | linkRetrain (link : Nat)
  | retrainDone (link : Nat) (ok : Bool)
  | writeLand (granule : Nat) (mask : BitVec 64) (data : BitVec 512)
  /-- A read of the granule; `upset` lists the symbols (position, exclusive-or) that nature has flipped in it since the last read. -/
  | dramReadDecode (granule : Nat) (upset : List (Nat × BitVec 8))
  | sramReadDecode (word : Nat) (upset : BitVec 72)
  | leakTick
  | rebuildComplete (s : Nat)
  | patrolScrub (s : Nat) (upset : List (Nat × BitVec 8))
  | refreshRateChange (s : Nat)
  | dmaReadAhead (node : NodeRef)
  | hostBar2Read (fn : Nat) (off len : Nat) (attr : HostAttr)
  | hostBar2Write (fn : Nat) (off : Nat) (bytes : List Byte) (attr : HostAttr)
  | hostPoisonedWrite (fn : Nat) (off : Nat) (len : Nat) (uio : Bool) (attr : HostAttr)
  | uioWrite (fn : Nat) (off : Nat) (bytes : List Byte) (attr : HostAttr)
  | cxlMemAccess (port : Nat) (addr : Nat) (write : Option (List Byte)) (len : Nat)
  | atomicOpRequest (fn : Nat)
  | functionLevelReset (fn : Nat)
  | portReset (port : Nat) (linkDown : Bool)
  | busMasterEnable (fn : Nat) (on : Bool)
  | atsInvalidate (fn : Nat) (page : Nat)
  | ideKm (port stream : Nat) (keySet : Nat) (key : BitVec 256) (session : Nat)
  | probeComplete (partner : Nat) (ok : Bool) (completer : Nat)
  | completionTimeout (partner : Nat) (node : Option NodeRef)
  | confirmProbeResult (partner : Nat) (ok : Bool)
  | containmentNotice (partner : Nat) (completer : Nat)
  | partnerDrained (partner : Nat)
  | offerLapse
  | nodeStart (node : NodeRef)
  | bestEffortStart (node : NodeRef)
  | nodeEnd (node : NodeRef)
  | nodeStopped (node : NodeRef)
  | coreMove (core : Nat)
  | walkModeApply (pod : Nat)
  | podFreed (pod : Nat)
  | podBoundary (pod : Nat)
  /-- The parked images of a stream are read back: for each PARKED entry of the table in order, its ciphertext and tags (none: the read failed). -/
  | unparkRestore (stream : Nat) (images : List (Option (List Byte × List (BitVec 128))))
  | stepRelease (pod inst : Nat)
  | stepEnd (pod inst : Nat)
  | sproutWrite (index : Nat)
  | sproutLand (index : Nat)
  | tilePass (run : TileRef)
  | stationaryFill (run : TileRef)
  | bankExit (run : TileRef)
  | vectorStep (cluster : Nat) (desc : VectorDesc)
  | nop (at_ : Issue) (w : EngFields)
  | end_ (at_ : Issue) (w : EngFields)
  | bra (at_ : Issue) (w : EngFields)
  | loop (at_ : Issue) (w : EngFields)
  | bare (at_ : Issue) (w : EngFields)
  | barg (at_ : Issue) (w : EngFields)
  | engineBarrierRelease (engine : Nat)
  | groupBarrierRelease (group : Nat)
  | pset (at_ : Issue) (w : EngFields)
  | plog (at_ : Issue) (w : EngFields)
  | iadd (at_ : Issue) (w : EngFields)
  | imul (at_ : Issue) (w : EngFields)
  | imad (at_ : Issue) (w : EngFields)
  | and_ (at_ : Issue) (w : EngFields)
  | or_ (at_ : Issue) (w : EngFields)
  | xor_ (at_ : Issue) (w : EngFields)
  | shl (at_ : Issue) (w : EngFields)
  | shr (at_ : Issue) (w : EngFields)
  | movi (at_ : Issue) (w : EngFields)
  | sel (at_ : Issue) (w : EngFields)
  | sreg (at_ : Issue) (w : EngFields)
  | fadd (at_ : Issue) (w : EngFields)
  | fsub (at_ : Issue) (w : EngFields)
  | fmul (at_ : Issue) (w : EngFields)
  | fma (at_ : Issue) (w : EngFields)
  | fmax (at_ : Issue) (w : EngFields)
  | fmin (at_ : Issue) (w : EngFields)
  | cvt (at_ : Issue) (w : EngFields)
  | exp (at_ : Issue) (w : EngFields)
  | recip (at_ : Issue) (w : EngFields)
  | rsqrt (at_ : Issue) (w : EngFields)
  | silu (at_ : Issue) (w : EngFields)
  | fred (at_ : Issue) (w : EngFields)
  | maxi (at_ : Issue) (w : EngFields)
  | smstep (at_ : Issue) (w : EngFields)
  | xmac (at_ : Issue) (w : EngFields)
  | xclr (at_ : Issue) (w : EngFields)
  | xred (at_ : Issue) (w : EngFields)
  | xexit (at_ : Issue) (w : EngFields)
  | qblk (at_ : Issue) (w : EngFields)
  | ldl (at_ : Issue) (w : EngFields)
  | stl (at_ : Issue) (w : EngFields)
  | lds (at_ : Issue) (w : EngFields)
  | sts (at_ : Issue) (w : EngFields)
  | ldg (at_ : Issue) (w : EngFields)
  | stg (at_ : Issue) (w : EngFields)
  | gcopy (at_ : Issue) (w : EngFields)
  | xchg (at_ : Issue) (w : EngFields)
  | waitc (at_ : Issue) (w : EngFields)
  | sprt (at_ : Issue) (w : EngFields)
  | exchangeLand (index : Nat)
  | waitcRelease (at_ : Issue)
  | copyTensor (node : NodeRef)
  | kvGather (node : NodeRef)
  | finalWrite (node : NodeRef)
  | syncJoin (node : NodeRef)
  | syncAcquire (node : NodeRef)
  | syncRelease (node : NodeRef)
  | syncWaitLand (node : NodeRef)
  | waitLandEnd (node : NodeRef)
  | hostEventNode (node : NodeRef)
  | fenceDecided (u : UnitRef) (reason : Nat)
  | hubLost (hub : Nat)
  | hubHeartbeat (hub : Nat) (flitArrives wireArrives : Bool)
  | pathLost (hub : Nat) (wire : Bool)
  | contactRestored
  | softStartDone (rail : Nat)
  | softStartLow (rail : Nat) (millivolt : Nat)
  | overcurrent (rail : Nat) (millivolt : Nat)
  /-- All on-die sensors read: per die entry of R363 (0-213), its sensors' readings in 0.125 °C. -/
  | sensorSample (readings : List (List Int))
  | budgetRise (die : Nat)
  /-- The external inputs read: diodes and thermistors in 0.1 °C, none for an open or shorted input. -/
  | externalSample (diodes therms : List (Option Int))
  | powerSample (watts : Nat)
  /-- The acorn's new plan: (index (4 × cap step + inlet level) × 50 + table island of R426, floor in MHz) for every floor that changes. -/
  | marginReplan (floors : List (Nat × Nat))
  | deferredReplay
  | frameEdge
  | stepSyncEdge (level : Bool)
  | syncStuck
  | stepOutEnd
  | refclkQualified (port : Nat)
  | refclkLost (port : Nat)
  | vaux3Rise (addrSel : Nat)
  | vaux3Loss
  | vin48Undervoltage
  | vin48Overvoltage
  | pwrGoodRise (leadSel : Bool)
  | pwrGoodFall
  | resetNAssert
  | resetNDeassert (leadSel : Bool)
  /-- The next step of the boot; the operands are nature's part: the cells (tile, row, column) in which BIST finds a wrong product, and
  those in which it finds a wrong partial sum (R84). -/
  | bootStage (products sums : List (Nat × Nat × Nat))
  | firmwareFallback
  | drbgReseed
  | requestUpdate
  | passComponentTable
  | updateComponent (size : Nat)
  | requestFirmwareData (bytes : List Byte)
  | transferComplete
  | verifyComplete
  | applyComplete
  | activateFirmware
  | cancelUpdateComponent
  | cancelUpdate
  | getStatus
  | queryDeviceIdentifiers
  | getVersion
  | getCapabilities
  | negotiateAlgorithms (algs : BitVec 32)
  | getDigests
  | getCertificate (slot off len : Nat)
  | challenge (nonce : BitVec 256)
  | getMeasurements (index : Nat) (nonce : BitVec 256)
  | keyExchange (pub : BitVec 768)
  | finish (session : Nat)
  | heartbeat (session : Nat)
  | keyUpdate (session : Nat)
  | endSession (session : Nat)
  | entdaa (addr : Nat)
  | setdasa (addr : Nat)
  | rstdaa
  | enec (mask : BitVec 8)
  | disec (mask : BitVec 8)
  | getpid
  | getbcr
  | getdcr
  | getstatus
  | setmwl (len : BitVec 16)
  | getmwl
  | setmrl (len : BitVec 16)
  | getmrl
  | mgmtReadPkgTj
  | mgmtReadStatus
  | mgmtReadPower
  | mgmtReadCap
  | mgmtReadLifecycle
  | mgmtReadDieTj (i : Nat)
  | extest
  | idcode
  | samplePreload (cells : BitVec 84)
  | clamp
  | highz
  | internalAccess
  | bypass
  | trstNAssert
  | frameWindowClose
  | stepSyncUnstuck
  | ovf24Expiry (die : Nat)
  | rebuildSlot (s : Nat) (upset : List (Nat × BitVec 8))
  | graphLoadComplete (pod graph : Nat)
  | fillComplete (index : Nat)
  /-- BIST of a repair ends: faulty cells found (row, column, physical), fuse slots that failed verification. -/
  | repairComplete (tile : Nat) (faults : List (Nat × Nat)) (badSlots : List Nat)
  /-- The partner of a window answers a sender's write or flush read: `ok` false for an error response (R299, R300). -/
  | writeAcknowledged (window : Nat) (sender : WriteSender) (ok : Bool)
  | perstNDeassert (port : Nat)
deriving DecidableEq, Repr

end Sys2Proof
end

