-- ==== Sys2Proof/Machine/State.lean ====
section
/-! DEFINITION. The whole state of the part as plain data, its fault and refusal reasons, and the state after reset.
Each field's comment reads: rule | width | reset value | meaning. -/

namespace Sys2Proof.Machine

open Sys2Proof

/-- The reasons a step can stop with a fault. -/
inductive Fault where
  /-- No command of this model raises it: every command of the table has an effect or is turned away by the spec's own
  status. Kept so that the interface has a fault type; safe. -/
  | unreachable
deriving DecidableEq, Repr

/-- The reasons a step can be refused. -/
inductive Refusal where
  /-- Raised by an arm of Dispatch.lean whose command has no meaning yet; safe. -/
  | notModelled (mnemonic : String)
deriving DecidableEq, Repr

/-! ### Fabric -/

/-- One bridge link of R19: its `HUB_FAB_LINK_STAT` and `HUB_FAB_LC_CAP` fields. -/
structure Link where
  /-- R33 | 16 | 0 | flits received with a CRC error, saturating -/
  crcErr : Nat := 0
  /-- R33 | 8 | 0 | retrains started, saturating -/
  retrain : Nat := 0
  /-- R33 | 2 | 0 for n = 0-32, 3 for n = 33-36 | 0 UP, 1 RETRAINING, 2 FAILED, 3 STANDBY -/
  state : Nat := 0
  /-- R30 | 2 | 0 | consecutive unsuccessful retrains -/
  badTries : Nat := 0
  /-- R28 | 6 | 0x28 | ACTIVE: LC slot cap in force -/
  capActive : Nat := 0x28
  /-- R28 | 6 | 0x28 | NEXT: requested LC slot cap -/
  capNext : Nat := 0x28
deriving DecidableEq, Repr

/-- A flit in flight (R19, R24, R29): what it carries, where it is and what is left of its fixed route. -/
structure Flit where
  id    : Nat
  /-- R19 | mask, payload | - | ends, traffic, pod, core, issuing node, 64-bit mask and 64-byte payload -/
  desc  : FlitDesc
  /-- R29 | 32 | - | CRC over header, mask and payload, as its source formed it -/
  crc   : BitVec 32
  /-- R256, R257 | 1 | - | it belongs to no promised work -/
  yields : Bool
  /-- links still to cross, each with its direction -/
  route : List (Nat × Bool)
  /-- CRC failures of this flit on the link it is crossing (R30) -/
  fails : Nat
deriving DecidableEq, Repr

/-- The deficit round-robin of one class on one link direction (R248). -/
structure Turn where
  /-- R248 | 4 | 0 | pod the round-robin serves -/
  pod : Nat := 0
  /-- R248 | 5 | 0 | deficit left to that pod -/
  deficit : Nat := 0
  /-- R248 | 16 × 7 | 0 | source core served last, by pod -/
  last : SMap Nat := []
deriving DecidableEq, Repr

/-- One link direction: its arbitration window (R27), its turns (R248) and its sender's replay buffer (R29). -/
structure Arb where
  /-- R27 | 7 | 0 | slot of the 100-slot window -/
  slot : Nat := 0
  /-- R27 | 7 | 0 | slots LC has used in this window -/
  lcUsed : Nat := 0
  /-- R248 | 3 classes | as in Turn | turns: key 0 LC, 1 CTL, 2 BULK -/
  turns : SMap Turn := []
  /-- R29 | 64 flits | empty | replay buffer: flits sent and not acknowledged, oldest first -/
  replay : List Nat := []
deriving DecidableEq, Repr

structure Fabric where
  /-- R28, R33 | 37 × 64 | as in Link | the links -/
  links : SMap Link
  /-- R31 | 22 | none | routers out of service: matrix die d as d, hub h as 4 + h, stack s as 6 + s -/
  routersLost : List Nat
  /-- R24, R29 | list | empty | flits injected and not yet delivered, in injection order -/
  flits : List Flit
  /-- R24 | list | empty | flits delivered at their endpoint, or answered with an error (R34, R476): flit and true when delivered -/
  arrived : List (Flit × Bool)
  /-- R27, R248 | 37 × 2 windows | all zero | arbitration of each link direction, key 2 × link + direction -/
  arb : SMap Arb
  /-- R29 | counter | 0 | the model's own number of the next flit -/
  nextFlit : Nat
deriving DecidableEq, Repr

/-! ### Tiles, number formats and engines -/

/-- `MX_FMT_CNT` / `STK_FMT_CNT` (R64). -/
structure FmtCnt where
  /-- R64 | 32 | 0 | BAD_TRIT -/
  badTrit : Nat := 0
  /-- R64 | 32 | 0 | NAN_SCALE -/
  nanScale : Nat := 0
  /-- R64 | 32 | 0 | SATURATE -/
  saturate : Nat := 0
  /-- R64 | 32 | 0 | TRUNCATE -/
  truncate : Nat := 0
deriving DecidableEq, Repr

/-- A tile's repair fuses and `MX_TILE_STAT` fields (R83-R86). -/
structure TileStat where
  /-- R86 | 2 × 8 + valid | fuse: none blown (DESIGN CHOICE, log 10) | row slots: the physical row each names -/
  rskip : List (Option Nat) := [none, none]
  /-- R86 | 2 × 9 + valid | fuse: none blown (DESIGN CHOICE, log 10) | column slots -/
  cskip : List (Option Nat) := [none, none]
  /-- R86 | 3 | 0 | FAULT_ROWS -/
  faultRows : Nat := 0
  /-- R86 | 3 | 0 | FAULT_COLS -/
  faultCols : Nat := 0
  /-- R86 | 1 | 0 | BIST_DONE -/
  bistDone : Bool := false
  /-- R85 | 1 | 0 | the last BIST left a fault uncovered -/
  uncovered : Bool := false
  /-- R86 | 2 | 0 | 0 none, 2 BIST_RUNNING, 3 REPAIRING (FENCED is read from the fences) -/
  busy : Nat := 0
deriving DecidableEq, Repr

/-- A value of any number format (R41, R44): NaN, a signed infinity, or sign, magnitude and power of two. -/
inductive FVal where
  | nan
  | inf (neg : Bool)
  | fin (neg : Bool) (m : Nat) (e : Int)
deriving DecidableEq, Repr

/-- The accumulator of one output lane (R48), with the running sum of the FP32 path (R73) and its poison (R74, R170). -/
structure Acc where
  /-- R48 | 96 | 0 | the two's-complement integer A -/
  a : BitVec 96 := 0
  /-- R48 | 5 flags | clear | sticky flags -/
  nan : Bool := false
  pinf : Bool := false
  ninf : Bool := false
  ovfp : Bool := false
  ovfn : Bool := false
  /-- R48 | 21 | 0 | contribution count -/
  count : Nat := 0
  /-- R73 | 32 | +0 | running sum S of the FP32 path -/
  s : BitVec 32 := 0
  /-- R74, R170 | 1 | 0 | poison -/
  poison : Bool := false
deriving DecidableEq, Repr

/-- The run stage of an engine accumulator (R155). -/
structure Stage where
  /-- R155 | 10 | - | FMT_A, FMT_B, SA and SB of the pair that opened it -/
  fmts  : Nat
  /-- R155 | exact | - | exact product sum of elements 0-15, NaN and infinities included -/
  sum   : FVal
deriving DecidableEq, Repr

/-- An engine accumulator: R48 state and run stage (R145). -/
structure EngAcc where
  /-- R145 | R48 | clear | accumulator -/
  acc : Acc := {}
  /-- R145, R155 | stage | closed | run stage -/
  stage : Option Stage := none
deriving DecidableEq, Repr

/-- What a thread group waits on (R126). -/
inductive Wait where
  | none
  | engineBarrier
  | groupBarrier
  | counter (chan value : Nat)
deriving DecidableEq, Repr

/-- A resident thread group in a slot of an engine (R125, R145): 32 threads sharing a program counter. -/
structure Group where
  /-- R125 | 5 | none resident | slot -/
  slot : Nat
  /-- R135 | 24 | - | thread group index j -/
  j : Nat
  /-- R125 | 13 | 0 | program counter, an instruction index -/
  pc : Nat
  /-- R126 | - | none | what it waits on -/
  wait : Wait
  /-- R145 | 32 | 1 per real thread | ACTIVE bits -/
  active : BitVec 32
  /-- R145 | 32 × 64 × 32 | 0 (R134 loads) | registers, key 64 × lane + register -/
  v : SMap (BitVec 32)
  /-- R145 | 32 × 8 | p1-p7 are 0 | predicates, key 8 × lane + index -/
  p : SMap Bool
  /-- R145 | 32 × 8 accumulators | clear | accumulators, key 8 × lane + index -/
  acc : SMap EngAcc
  /-- R145, R170 | 32 × 72 | 0 | poison bits of registers (same key as v) and predicates (key 2048 + that of p) -/
  poison : SMap Bool
  /-- R126 | registers | none | registers written by issued instructions whose results no later instruction has read: a result that may be
  outstanding -/
  late : List Nat
deriving DecidableEq, Repr

/-- A launch descriptor of R133. -/
structure LaunchDesc where
  lc : Bool
  barrier : Bool
  resGroups : Nat
  anchor : Int
  sharedKib : Nat
  gx : Nat
  gy : Nat
  gz : Nat
  code : Nat
  codeLen : Nat
  args : Nat
  localBase : Nat
  localLen : Nat
  seed : BitVec 32
deriving DecidableEq, Repr

/-- One engine's share of a running launch (R125, R134, R135, R138). -/
structure EngineRun where
  node  : NodeRef
  desc  : LaunchDesc
  /-- R134 | 8,192 × 64 | unwritten until a launch | instruction store -/
  code  : List (BitVec 64)
  /-- R134, R170 | 64 × 32 | - | argument block words, each with poison -/
  args  : List (BitVec 32 × Bool)
  /-- R135 | - | - | position of the engine in the node's engine order, and E -/
  order : Nat
  total : Nat
  /-- R125 | 32 slots | none | resident groups in slot order -/
  groups : List Group
  /-- R135 | 24 | - | next group index to start on this engine -/
  nextJ : Nat
  /-- R138 | 16 × 32 | 0 | exchange counters -/
  counters : SMap Nat
  /-- R126 | 5 | 0 | slot that issued last -/
  lastSlot : Nat
deriving DecidableEq, Repr

/-- A granule of an exchange or copy on its way to engines, or a sprout write on its way to a stack (R139, R165, R194). -/
structure Flight where
  node : NodeRef
  /-- R293 | 10 | - | the engine that issued it; for a sprout write, its port's stack -/
  src : Nat
  /-- R26 | 2 | - | what it carries, which gives its class -/
  what : Traffic
  /-- R194 | 1 | - | a sprout write, landed by SPROUT_LAND -/
  sprout : Bool
  /-- engines (64 × stack + e) it lands in; for a sprout write, its holding stack -/
  engines : List Nat
  /-- local offset it lands at; none for a sprout write -/
  off : Option Nat
  /-- a granule's bytes -/
  bytes : List Byte
  poisoned : Bool
  /-- R194 | list | - | a sprout write's bytes by device address, each with its poison -/
  writes : List (Nat × List (Byte × Bool))
  chan : Nat
  count : Nat
deriving DecidableEq, Repr

/-- A key or value write that waits at the sprout port (R192): from SPRT, or from a drain. -/
structure PortWrite where
  node : NodeRef
  /-- R23 | 5 | - | router of the die that sends the write -/
  src : Nat
  /-- R168 | 1 | - | from SPRT: whole head vectors in granules -/
  sprt : Bool
  /-- R168 | 32 | - | stream ID as given -/
  stream : Nat
  pos : Nat
  layer : Nat
  /-- R168 | 1 | - | true for values -/
  value : Bool
  /-- R192 | list | - | pieces: first element index h × HDIM + e, bytes each with poison -/
  pieces : List (Nat × List (Byte × Bool))
deriving DecidableEq, Repr

/-- One logical tile's run of a tile program (R69-R74, R77, R111). -/
structure TileRun where
  ref : TileRef
  /-- R94 | 8 | - | physical tile that runs it -/
  phys : Nat
  /-- R93 | 64 KiB | - | descriptor store -/
  block : List Byte
  /-- R111 | 16 | PROG_OFF | offset of the descriptor in progress -/
  desc : Nat
  /-- R71 | - | 0 | next pass of the descriptor -/
  pass : Nat
  /-- R77 | 1 | 0 | set tag attached to new slots -/
  tag : Bool
  /-- R77, R78 | 2 × 128 × 256 | zero | the two stationary registers: pass held, and (row element, column) to value with poison -/
  stat : List (Nat × List (Nat × Nat × FVal × Bool))
  /-- R74 | 2 × 512 × 256 lanes | clear | accumulator lanes, key (512 × bank + slot) × 256 + column -/
  lanes : SMap Acc
  /-- R74 | 1 | 0 | bank in use -/
  bank : Bool
  /-- R74 | - | none | banks that wait to exit: bank, first block of D's walk -/
  exits : List (Bool × Nat)
  /-- R110, R88 | list | empty | FP32 lane rows given to the vector unit by EXIT 1, each lane with its poison -/
  vrows : List (List (BitVec 32 × Bool))
  /-- R111 | 1 | 0 | the program has ended -/
  ended : Bool
  /-- R366 | 1 | 0 | a poisoned granule was written -/
  poisoned : Bool
deriving DecidableEq, Repr

/-! ### Graphs and instances -/

/-- A tensor descriptor of R95. -/
structure TDesc where
  fmt : Nat
  rnd : Nat
  scaled : Bool
  lc : Bool
  space : Nat
  ndim : Nat
  seed : BitVec 32
  base : Nat
  shapes : Nat
  shapesV : Bool
  ext : List Nat
  stride : List Int
  origin : List Nat
deriving DecidableEq, Repr

/-- A node record of R236. -/
structure NodeRec where
  kind : Nat
  cores : Nat
  peer : Bool
  sprout : Bool
  gang : Nat
  costCyc : Nat
  costSer : Nat
  routes : List Nat
  succ : List Nat
  bodyOff : Nat
  blkLen : Nat
  progOff : Nat
  outs : List Nat
  qbase : Nat
  qlen : Nat
  chan : Nat
  sproutTd : Nat
  value : Nat
deriving DecidableEq, Repr

/-- A graph in a pod's graph store (R234). -/
structure Graph where
  /-- R234 | 4 | - | pod -/
  pod : Nat
  /-- R234 | 32 | - | graph ID -/
  id : Nat
  /-- R241 | 1 | - | STEP -/
  step : Bool
  /-- R241 | 1 | - | peer graph -/
  peer : Bool
  /-- R235 | 6 | - | LC_CAP -/
  lcCap : Nat
  /-- R234 | 28 | - | first byte of its copy in the pod's graph store -/
  storeAt : Nat
  /-- R234 | bytes | - | the image as copied -/
  image : List Byte
  nodes : List NodeRec
  bufs : List TDesc
  /-- R234 | 1 | 0 | the load has completed -/
  loaded : Bool
deriving DecidableEq, Repr

/-- Journal node states of R377. -/
inductive NState where
  | notStarted | running | done | part | cancelled | poisoned | faulted
deriving DecidableEq, Repr

/-- A node of an instance at run time (R249, R253, R376-R379). -/
structure NodeRun where
  st : NState
  /-- R355 | 8 | 0 | cause -/
  cause : Nat
  /-- R250 | set | - | cores (DMA channels are 96-99) -/
  cores : List Nat
  /-- R249 | 2 × 64 | - | planned interval [start, fin) in device ns -/
  start : Nat
  fin : Nat
  /-- R378 | 32 | none | journal position taken at start -/
  jpos : Option Nat
  startedAt : Nat
  /-- R379 | 4 × 32 | 0 | high-water marks -/
  hwm : List Nat
  /-- R377 | 4 | 0 | POISON bits -/
  pmask : Nat
  /-- work of the node is complete (all writes issued) -/
  work : Bool
  /-- R258 | count | 0 | 4 KiB units of its walk that a COPY node has copied -/
  units : Nat
  /-- R366 | 1 | 0 | a poisoned granule was written -/
  poison : Bool
  /-- R298 | bytes | none | FINAL write held: bytes by address, each with its poison -/
  hold : Option (List (Nat × Byte × Bool))
  /-- R299 | list | none | writes into windows not yet acknowledged: window, and address of the last byte written -/
  unacked : List (Nat × Nat)
  /-- R171, R294 | 8 | none | the cause of a fault that has stopped the node, which ends when its issued writes have landed -/
  stop : Option Nat
  /-- R240 | 1 | 0 | a WAIT_LAND node has begun to wait -/
  waiting : Bool
deriving DecidableEq, Repr

/-- A row of a step list with what the boundary decided (R211, R217, R220). -/
structure StepRow where
  stream : Nat
  action : Nat
  n : Nat
  gen : Nat
  /-- R220 | 2 | - | 0 continuing, 1 join, 2 sink, 3 leave -/
  kind : Nat
  wp : Nat
  adapterV : Bool
  adapterAddr : Nat
  /-- R210 | 16 | OK | result status -/
  result : Status
  /-- R214 | - | false | the row is chained -/
  chained : Bool
deriving DecidableEq, Repr

/-- A step of BATCH_STEP (R210-R221). -/
structure StepInfo where
  boundary : Nat
  offset : Nat
  deadline : Nat
  rowtab : Nat
  results : Nat
  allocPs : Nat
  allocFr : Nat
  copyMax : Nat
  /-- R221 | ns | - | max(OFFSET, TB) -/
  relOff : Nat
  /-- R247 | count | - | E of the walk at acceptance -/
  walkE : Nat
  rows : List StepRow
  /-- R216 | 1 | 0 | its boundary has been processed -/
  staged : Bool
  /-- R221 | ns | - | release time once staged -/
  relAt : Nat
  /-- R221 | 1 | 0 | released -/
  released : Bool
  /-- R214, R252 | list | - | chain predecessors, as instance numbers: those of acceptance, then the steps a row is chained to at stage 3 -/
  preds : List Nat
  /-- R224 | 4 KiB each | none | adapter slots replaced since the release, with the images the step still reads: address, bytes with poison -/
  oldSlots : List (Nat × List (Byte × Bool))
deriving DecidableEq, Repr

/-- What identifies a command until its last completion (R312, R313, R315). -/
structure CmdTok where
  mbx : Mbx
  cmdId : Nat
  opcode : Nat
  tag : Nat
  /-- R312 | counter | 0 | the mailbox's enable period in which it was acknowledged -/
  epoch : Nat
deriving DecidableEq, Repr

/-- An instance or accepted step (R244, R249). -/
structure Inst where
  pod : Nat
  num : Nat
  graph : Nat
  tok : CmdTok
  promised : Bool
  release : Nat
  deadline : Nat
  nodes : List NodeRun
  step : Option StepInfo
  /-- R243 | 16 × 64 | - | peer addresses read from PEER_TAB -/
  peers : List Nat
  /-- R258 | 1 | 0 | cancelled -/
  cancelled : Bool
  /-- R255 | 8 + 32 | none | first recorded cause of lateness and its detail -/
  late : Option (Nat × Nat)
  /-- R246 | MHz | - | floors the plan used, by table island (R425, R428) -/
  floors : List (Nat × Nat)
  /-- R248 | count | - | the pod's sources SRC at the decision (R479) -/
  sources : Nat
deriving DecidableEq, Repr

/-- A journal record of R377. -/
structure JRec where
  inst : Nat
  node : Nat
  st : NState
  pmask : Nat
  cause : Nat
  hwm : List Nat
  time : Nat
deriving DecidableEq, Repr

/-! ### Pods, regions and streams -/

/-- Pod states of R263. -/
inductive PodState where
  | free | created | bound | destroying | fenced
deriving DecidableEq, Repr

/-- A prefix node of R226 with its token record. -/
structure PrefixNode where
  fp : BitVec 64 := 0
  parent : Nat := 0
  child : Nat := 0
  sibling : Nat := 0
  depth : Nat := 0
  /-- R226 | 2 | 0 | 0 FREE, 1 VALID, 2 LOST -/
  state : Nat := 0
  pool : Nat := 0
  tokens : List Nat := []
  first : Nat := 0
  sizeExp : Nat := 0
  frame : Nat := 0
  rc : Nat := 0
deriving DecidableEq, Repr

/-- An active ACQUIRE entry (R302, R303). -/
structure Acquire where
  inst : Nat
  addr : Nat
  len : Nat
deriving DecidableEq, Repr

/-- Read-ahead bytes held by a DMA channel for a COPY node (R301). -/
structure ReadAhead where
  node : NodeRef
  chan : Nat
  /-- granule address, its bytes and poison as fetched -/
  held : List (Nat × List Byte × Bool)
deriving DecidableEq, Repr

structure Pod where
  /-- R263, R331 | 3 | FREE | state -/
  state : PodState := .free
  /-- R343 | 1 | 0 | hub that runs the scheduler -/
  hub : Nat := 0
  /-- R189 | 1 | 0 | walk mode: true for walker -/
  walk : Bool := false
  /-- R189 | 1 | none | pending walk mode -/
  walkPend : Option Bool := none
  /-- R331 | 4 | none | bound VF -/
  vf : Option Nat := none
  /-- R262 | 5 | 0 | FAB_SHARE -/
  share : Nat := 0
  /-- R264 | 11 | 0 | job quota -/
  quota : Nat := 0
  /-- R262 | 96 | none | cores of the pod, 0-95, ascending -/
  cores : List Nat := []
  /-- R265 | list | none | cores marked for removal with the destination pod of each -/
  marked : List (Nat × Option Nat) := []
  /-- R262 | 64 | none | last-level slices -/
  slices : List Nat := []
  /-- R321 | 64 | none | slices of the graph store -/
  graphSlices : List Nat := []
  /-- R321 | 64 | none | slices of the KV control area -/
  kvcSlices : List Nat := []
  /-- R222 | 16, 17 | 0 | SLOT_FIRST, SLOTS -/
  slotFirst : Nat := 0
  slots : Nat := 0
  /-- R321 | 8, 24 | 0 | AREGION, AOFF -/
  aregion : Nat := 0
  aoff : Nat := 0
  /-- R226 | 20 | 0 | NODES -/
  nodes : Nat := 0
  /-- R226 | NODES × 384 B | 0 | prefix nodes -/
  pfx : SMap PrefixNode := []
  /-- R195 | 32 each | 0 | reference counts by RC_INDEX -/
  rc : SMap Nat := []
  /-- R215 | 32 | none | last processed boundary number -/
  boundary : Option Nat := none
  /-- R251 | 64 | 0 | device time of the last processed boundary -/
  boundaryAt : Nat := 0
  /-- R398 | 1 | 1 | the pod follows the frame -/
  follow : Bool := true
  /-- R398 | 10 | 1 | MULT -/
  mult : Nat := 1
  /-- R398 | 20 | 0 | PERIOD_US of a free pod -/
  periodUs : Nat := 0
  /-- R400 | - | none | configuration that takes effect at the next boundary -/
  syncPend : Option (Bool × Nat × Nat) := none
  /-- R398 | count | 0 | frame edges seen since the configuration took effect -/
  edges : Nat := 0
  /-- R215 | list | empty | device times of boundaries that have fallen due and wait for POD_BOUNDARY -/
  due : List Nat := []
  /-- R398 | 64 | 0 | device time from which a free pod's next period is counted -/
  anchor : Nat := 0
  /-- R244 | 32 | 0 | next instance number -/
  nextInst : Nat := 0
  /-- R376 | 32 | 0 | JRNL_HEAD -/
  jhead : Nat := 0
  /-- R376 | 65,536 × 256 | zero records | journal ring by index -/
  journal : SMap (Option JRec) := []
  /-- R447 | 256 | none | K_pod -/
  key : Option (BitVec 256) := none
  /-- R448 | per window | 0 | PARK_TOP, by window -/
  parkTop : SMap Nat := []
  /-- R302 | 16 entries | none | active ACQUIRE entries, oldest first -/
  acquires : List Acquire := []
  /-- R301 | 256 KiB per channel | none | read-ahead data -/
  ahead : List ReadAhead := []
  /-- R196 | list | empty | chaff list: (pool, stack, first frame, frames) -/
  chaff : List (Nat × Nat × Nat × Nat) := []
  /-- R206 | list | empty | page tables on the chaff list: (address, bytes) -/
  chaffTables : List (Nat × Nat) := []
  /-- R181, R205 | list | empty | reserved ranges of the KV control area -/
  kvcUsed : List (Nat × Nat) := []
  /-- R216 | list | none | streams whose LEAVE waits for a later boundary, with their generations -/
  leaves : List (Nat × Nat) := []
  /-- R224 | 4 KiB each | none | staged adapter images by slot -/
  staged : List (Nat × List Byte) := []
  /-- R263 | - | none | pending POD_DESTROY -/
  destroyTok : Option CmdTok := none
  /-- R225 | - | false | a VF was bound when the pod was fenced -/
  boundAtFence : Bool := false
deriving DecidableEq, Repr

/-- A mapped region (R266, R268) or, for MODE 3, a KV pool (R174). -/
structure Region where
  pod : Nat
  /-- R267 | 2 | - | 0 STACK_LOCAL, 1 GROUP_STRIPE, 2 COLUMN_STRIPE, 3 POSITION_STRIPE -/
  mode : Nat
  /-- R267 | set | - | stacks, ascending -/
  stks : List Nat
  /-- R266 | 36 | - | OFF in bytes -/
  off : Nat
  /-- R266 | 36 | - | SPAN in bytes -/
  span : Nat
  /-- R272 | 1 | 0 | LOST -/
  lost : Bool
  /-- R286 | 1 | 0 | covered by the patrol scrubber -/
  filled : Bool
  /-- R269, R271 | 1 | 1 once mapped | its map has completed and no unmap of it runs -/
  ready : Bool
  pool : Nat
  fmt : Nat
  layers : Nat
  heads : Nat
  hdim : Nat
  frames : Nat
  /-- R178 | 16 × 4 | residue r in stack r | holder map -/
  holder : List Nat
  /-- R180 | set | none | allocated frames: (stack, frame) -/
  used : List (Nat × Nat)
deriving DecidableEq, Repr

/-- A mirror (R278). -/
structure Mirror where
  pod : Nat
  src : Nat
  len : Nat
  slice : Nat
  removed : Bool
deriving DecidableEq, Repr

/-- Page-table entry states of R182. -/
inductive PState where
  | resident | shared | parked | lost
deriving DecidableEq, Repr

/-- A page-table entry (R182). -/
structure Pte where
  first : Nat
  sizeExp : Nat
  st : PState
  frame : Nat
  rc : Nat
  /-- R182 | 36 | 0 | PARK_ADDR, device address bits 47:12 -/
  park : Nat
deriving DecidableEq, Repr

/-- Stream states of R204. -/
inductive StrState where
  | free | open_ | resident | parked | closing
deriving DecidableEq, Repr

/-- A command in progress on a stream (R207). -/
inductive StrBusy where
  | idle | parking | unparking | shipping
deriving DecidableEq, Repr

/-- A stream-table entry (R204) with its page table (R181). -/
structure Stream where
  /-- R204 | 4 | 0 | POD -/
  pod : Nat := 0
  /-- R204 | 3 | FREE | STATE -/
  state : StrState := .free
  /-- R204 | 1 | 0 | INBOUND -/
  inbound : Bool := false
  /-- R204 | 2 | 0 | POOL -/
  pool : Nat := 0
  /-- R204 | 4 | 0 | PAGE_EXP -/
  pageExp : Nat := 0
  /-- R204 | 4 | 0 | DCLASS -/
  dclass : Nat := 0
  /-- R204 | 1 | 0 | BUSY -/
  busy : Bool := false
  /-- R204 | 1 + 16 | 0 | ADAPTER_V, ADAPTER -/
  adapter : Option Nat := none
  /-- R204 | 16 | 0 | GEN -/
  gen : Nat := 0
  /-- R204 | 25 | 0 | WP -/
  wp : Nat := 0
  /-- R204 | 48 | 0 | PT_ADDR -/
  ptAddr : Nat := 0
  /-- R204 | 14 | 0 | PT_CAP -/
  ptCap : Nat := 0
  /-- R181, R204 | 16 B per entry | empty | the page table; PT_LEN is its length -/
  pt : List Pte := []
  /-- R204 | 14 | 0 | TAIL -/
  tail : Nat := 0
  /-- R204 | 32 | 0 | PREFIX -/
  pfx : Nat := 0
  /-- R204 | 32 | 0 | STEP_INST -/
  stepInst : Nat := 0
  /-- R204 | 16 | 0 | CAUSE -/
  cause : Status := 0
  /-- R204 | 24 | 0 | MAXPOS -/
  maxpos : Nat := 0
  /-- R204 | 64 | 0 | TOKENS -/
  tokens : Nat := 0
  /-- R204 | 32 | 0 | STEPS -/
  steps : Nat := 0
  /-- R204 | 32 | 0 | LATE -/
  late : Nat := 0
  /-- R204 | 32 | 0 | DROPPED -/
  dropped : Nat := 0
  /-- R204 | 16 | 0 | COPIES -/
  copies : Nat := 0
  /-- R204 | 64 | 0 | OPENED -/
  opened : Nat := 0
  /-- R207 | 2 | idle | park, unpark or ship in progress -/
  work : StrBusy := .idle
  /-- R231 | 25, 32, 1 | 0 | shipped length L, landing key, page sets allocated -/
  inLen : Nat := 0
  inKey : BitVec 32 := 0
  inReady : Bool := false
  /-- R216 | count | 0 | order in which the stream became CLOSING -/
  closeSeq : Nat := 0
deriving DecidableEq, Repr

/-- A stream's write window in the sprout ports (R191, R194, R219). -/
structure Window where
  pod : Nat
  inst : Nat
  row : Nat
  stream : Nat
  first : Nat
  n : Nat
  sink : Bool
  /-- R191 | list | - | the page-table entries that cover the window, as loaded at the release -/
  entries : List Pte
  /-- R178, R191 | 16 × 4 | - | the pool's holder map at the release -/
  holder : List Nat
  /-- R191 | counts | 0 | bytes written by (position, layer, kind): key ((pos − first) × 256 + layer) × 2 + kind -/
  counts : SMap Nat
deriving DecidableEq, Repr

/-- A look-aside buffer entry of a page-walk unit (R187). -/
structure LabEntry where
  stream : Nat
  index : Nat
  pte : Pte
deriving DecidableEq, Repr

/-- A page-walk unit: buffer (R187) and `STK_PWU_STAT` (R201). -/
structure Pwu where
  /-- R187 | 256 entries | empty | look-aside buffer, oldest first -/
  lab : List LabEntry := []
  /-- R201 | 16 | 0 | INVALS -/
  invals : Nat := 0
  /-- R201 | 16 | 0 | HITS -/
  hits : Nat := 0
  /-- R201 | 16 | 0 | MISSES -/
  misses : Nat := 0
deriving DecidableEq, Repr

/-! ### Mailboxes, functions, ports and partners -/

/-- A mailbox control block `MBX_RING[m]` (R311, R312). -/
structure Mailbox where
  /-- R311 | 64 | 0 | SQ_BASE -/
  sqBase : BitVec 64 := 0
  /-- R311 | 64 | 0 | CQ_BASE -/
  cqBase : BitVec 64 := 0
  /-- R311 | 4 | 0 | SQ_LOG -/
  sqLog : Nat := 0
  /-- R311 | 4 | 0 | CQ_LOG -/
  cqLog : Nat := 0
  /-- R311 | 20 + 1 | 0 | PASID, PASID_V -/
  pasid : Nat := 0
  pasidV : Bool := false
  /-- R311 | 1 | 0 | ENABLE -/
  enable : Bool := false
  /-- R311 | 2 | 0 | STATE: 0 DISABLED, 1 RUNNING, 2 ERROR -/
  state : Nat := 0
  /-- R311 | 4 | 0 | ERR -/
  err : Nat := 0
  /-- R311 | 16 | 0 | SQ_TAIL -/
  sqTail : Nat := 0
  /-- R311 | 16 | 0 | SQ_HEAD -/
  sqHead : Nat := 0
  /-- R311 | 16 | 0 | CQ_HEAD -/
  cqHead : Nat := 0
  /-- R311 | 16 | 0 | CQ_TAIL -/
  cqTail : Nat := 0
  /-- R312, R315 | 1 | 1 at enable (0 before: DESIGN CHOICE, log 11) | completion phase -/
  phase : Bool := false
  /-- R311 | 13 | 0 | OUTSTANDING -/
  outstanding : Nat := 0
  /-- R311 | 16 | 0 | DROPPED -/
  dropped : Nat := 0
  /-- R313 | 13 | 0 | completion slots reserved -/
  reserved : Nat := 0
  /-- R312, R341 | counter | 0 | raised by 1 when discarding starts, by 2^32 at a Function Level Reset (the model's own) -/
  epoch : Nat := 0
  /-- R261 | list | empty | doorbell writes that cover entries not yet acknowledged: SQ_TAIL written, order at the hub -/
  bells : List (Nat × Nat) := []
deriving DecidableEq, Repr

/-- A function's `MBX_EVENT` block, MSI-X vectors and Bus Master Enable (R317, R318, R337, R350). -/
structure Func where
  /-- R317 | 64 | 0 | EV_BASE -/
  evBase : BitVec 64 := 0
  /-- R317 | 4 | 0 | EV_LOG -/
  evLog : Nat := 0
  /-- R317 | 1 | 0 | ENABLE -/
  evEnable : Bool := false
  /-- R317 | 1 | 0 | LOST_FLAG -/
  lostFlag : Bool := false
  /-- R317 | 16 | 0 | EV_TAIL -/
  evTail : Nat := 0
  /-- R317 | 16 | 0 | EV_HEAD -/
  evHead : Nat := 0
  /-- R317 | 16 | 0 | LOST -/
  lost : Nat := 0
  /-- R318 | 1 | 1 at enable (0 before: DESIGN CHOICE, log 11) | event phase -/
  phase : Bool := false
  /-- R318 | 16 | 0 | SEQ of the next event -/
  seq : Nat := 0
  /-- R318, R339 | 3 × 128 | address 0, data 0, masked (PRESUMED, PCIe, log 12) | MSI-X table: address, data, masked -/
  msix : List (BitVec 64 × BitVec 32 × Bool) := [(0, 0, true), (0, 0, true), (0, 0, true)]
  /-- R318 | 3 | 0 | vectors with something to announce (the pending bits) -/
  msixPend : List Bool := [false, false, false]
  /-- R350 | 1 | 0 (PRESUMED, PCIe, log 12) | Bus Master Enable -/
  bme : Bool := false
  /-- R341 | 1 | 0 (PRESUMED, PCIe, log 12) | VF Enable, on a PF -/
  vfEnable : Bool := false
  /-- R337 | 3 | 0 (PRESUMED, PCIe, log 12) | NumVFs, on a PF -/
  numVfs : Nat := 0
  /-- R318, R337 | 1 | 0 (PRESUMED, PCIe, log 12) | MSI-X Enable -/
  msixOn : Bool := false
  /-- R318, R337 | 1 | 0 (PRESUMED, PCIe, log 12) | MSI-X Function Mask -/
  msixMask : Bool := false
  /-- R337 | 3 | 0 (PRESUMED, PCIe, log 12) | Max Payload Size: 128 × 2^n bytes, n 0-2 -/
  mps : Nat := 0
  /-- R337 | 3 | 2 (PRESUMED, PCIe, log 12) | Max Read Request Size: 128 × 2^n bytes, n 0-5 -/
  mrrs : Nat := 2
  /-- R349 | 4 | 0 (PRESUMED, PCIe, log 12: the code of the default, which R349 makes 50 ms) | Completion Timeout Value, on a PF -/
  cto : Nat := 0
  /-- R337 | 32 | 0 (PRESUMED, PCIe, log 12) | AER Uncorrectable Error Status -/
  aer : Nat := 0
  /-- R349 | list | empty | pages whose ATS translation is in use -/
  ats : List Nat := []
deriving DecidableEq, Repr

/-- A selective IDE stream of a port (R446). -/
structure Ide where
  secure : Bool := false
  /-- R446 | 2 × 3 × 256 | zero | key sets, key 3 × set + sub-stream -/
  keys : SMap (BitVec 256) := []
deriving DecidableEq, Repr

/-- An HDM decoder of a port (R338): base and size of its host range and the device bytes skipped before it, in 256 MiB units. -/
structure Hdm where
  base : Nat := 0
  size : Nat := 0
  skip : Nat := 0
  committed : Bool := false
deriving DecidableEq, Repr

/-- A host port (R339, R341, R348). -/
structure Port where
  /-- R341, R469 | 1 | 0 | link up -/
  linkUp : Bool := false
  /-- R469 | 1 | 1 (asserted) | PERST_N asserted -/
  perst : Bool := true
  /-- R340 | 1 | 0 | LINK_UIO -/
  uio : Bool := false
  /-- R337 | 3 | 0 (untrained: DESIGN CHOICE, log 12) | link rate: 1-7 for 2.5, 5, 8, 16, 32, 64, 128 GT/s -/
  rate : Nat := 0
  /-- R337 | 5 | 0 (untrained: DESIGN CHOICE, log 12) | link width in lanes -/
  width : Nat := 0
  /-- R338 | 1 | 0 (untrained: DESIGN CHOICE, log 12) | trained in CXL mode -/
  cxl : Bool := false
  /-- R338 | 2 decoders | zero, not committed (PRESUMED, CXL, log 12) | HDM decoders -/
  hdm : List Hdm := [{}, {}]
  /-- R348 | 32 | 0 | WR_DROP -/
  wrDrop : Nat := 0
  /-- R348 | 32 | 0 | RD_ABORT -/
  rdAbort : Nat := 0
  /-- R348 | 16 | 0 | UIO_ABORT -/
  uioAbort : Nat := 0
  /-- R348 | 16 | 0 | REQ_ID -/
  reqId : Nat := 0
  /-- R348 | 48 | 0 | LAST_OFF -/
  lastOff : Nat := 0
  /-- R348 | 1 | 0 | LAST_WR -/
  lastWr : Bool := false
  /-- R348 | 1 | 0 | LAST_CXL -/
  lastCxl : Bool := false
  /-- R446 | 4 streams | Insecure, keys zero | selective IDE streams -/
  ide : SMap Ide := []
  /-- R390 | 1 | 0 | REFCLK qualified -/
  refclk : Bool := false
deriving DecidableEq, Repr

/-- Partner states of R352. -/
inductive PartnerState where
  | absent | probing | active | confirming | lost | removing
deriving DecidableEq, Repr

/-- An added partner (R351, R352). -/
structure Partner where
  state : PartnerState := .absent
  kind : Nat := 0
  port : Nat := 0
  uio : Bool := false
  probe : Nat := 0
  /-- R352 | 16 | 0 | completer ID recorded from the probe completion -/
  completer : Nat := 0
  tok : Option CmdTok := none
  /-- R352 | 64 | 0 | device time at which a removal began -/
  removeAt : Nat := 0
deriving DecidableEq, Repr

/-- A peer or expander window (R283). -/
structure PeerWindow where
  pod : Nat := 0
  /-- R283 | 2 | 0 | ACCESS: 0 unmapped, 1 read only, 2 read and write -/
  access : Nat := 0
  partner : Nat := 0
  busBase : Nat := 0
  /-- R283 | 29 | 0 | length in bytes -/
  len : Nat := 0
deriving DecidableEq, Repr

/-- A landing counter `HUB_LAND_CH[n]` (R306). -/
structure LandCh where
  /-- R306 | 48 | 0 | BASE -/
  base : Nat := 0
  /-- R306 | 48 | 0 | LEN -/
  len : Nat := 0
  /-- R306 | 64 | 0 | COUNT -/
  count : Nat := 0
  /-- R306 | 1 | 0 | ARMED -/
  armed : Bool := false
  /-- R306 | 1 | 0 | ARM_ERR -/
  armErr : Bool := false
deriving DecidableEq, Repr

/-- An aperture window `HUB_APER[n]` (R347). -/
structure Aper where
  /-- R347 | 2 | 0 | MODE -/
  mode : Nat := 0
  /-- R347 | 1 | 0 | RDONLY -/
  rdonly : Bool := false
  /-- R347 | 8 | 0 | REGION -/
  region : Nat := 0
  /-- R347 | 24 | 0 | LEN, 4 KiB units -/
  len : Nat := 0
  /-- R347 | 48 | 0 | BASE -/
  base : Nat := 0
deriving DecidableEq, Repr

/-- What waits for its FINAL completion besides instances, pods and partners (R316). -/
inductive Work where
  /-- MOVE_CORES: cores still to move -/
  | moveCores (pod : Nat) (cores : List Nat)
  /-- a fill: ranges (address, length), pattern, region to free or to mark filled -/
  | fill (ranges : List (Nat × Nat)) (pattern : BitVec 64) (unmap : Option Nat) (mark : Option Nat)
  | graphLoad (pod graph : Nat)
  | graphUnload (pod graph : Nat)
  | openInbound (stream : Nat)
  /-- writes not yet acknowledged with the address of the last byte written, and the FINAL write still held: address, bytes, poison -/
  | park (stream window : Nat) (unacked : Nat × Nat) (last : Option (Nat × List Byte × Bool))
  /-- frames of the PARKED entries in order, once a boundary has allocated them -/
  | unpark (stream : Nat) (frames : Option (List Nat))
  | ship (stream window : Nat) (unacked : Nat × Nat) (last : Option (Nat × List Byte × Bool))
  /-- R85: the slots of the cover are blown -/
  | repair (tile : Nat) (blown : Bool)
deriving DecidableEq, Repr

/-- A command whose FIRST completion has been posted. -/
structure PendingCmd where
  tok : CmdTok
  work : Work
deriving DecidableEq, Repr

/-! ### Errors, hubs, rails -/

/-- A correction bucket and its `STK_ECC_LOG` counters (R360, R362). -/
structure EccLog where
  /-- R362 | 32 | 0 | CE_RAW -/
  ceRaw : Nat := 0
  /-- R362 | 8 | 0 | BUCKET -/
  bucket : Nat := 0
  /-- R362 | 16 | 0 | OVF -/
  ovf : Nat := 0
  /-- R362 | 4 | 0 | OVF24: device times of the overflows of the last 24 h -/
  ovf24 : List Nat := []
  /-- R362 | 16 | 0 | UE -/
  ue : Nat := 0
  /-- R362 | 16 | 0 | KILL -/
  kill : Nat := 0
deriving DecidableEq, Repr

/-- A stack's sparing state (R368, R370). -/
structure DieMap where
  /-- R370 | 10 × 4 | slot k on Dk (record store, DESIGN CHOICE, log 13) | physical die of each slot -/
  slot : List Nat := [0, 1, 2, 3, 4, 5, 6, 7, 8, 9]
  /-- R370 | 4 | 15 (record store, DESIGN CHOICE, log 13) | erased slot -/
  erase : Nat := 15
  /-- R370 | 3 | 0 (record store, DESIGN CHOICE, log 13) | STATE but FENCED, which is read from the fences -/
  state : Nat := 0
  /-- R370 | 4 | 15 | QUEUED -/
  queued : Nat := 15
  /-- R370 | 30 | 0 | next codeword of the rebuild walk, as a granule of the stack -/
  pos : Nat := 0
  /-- R362 | list | none | retired dies -/
  retired : List Nat := []
  /-- R364 | 30 | 0 | next codeword of the patrol scrubber -/
  scrub : Nat := 0
  /-- R276 | 1 | 0 | HOT -/
  hot : Bool := false
  /-- R276 | 32 | 0 | HOT_FRAMES -/
  hotFrames : Nat := 0
  /-- R276 | 64 | 0 | device time from which frames at the hot rate are still to be added to HOT_FRAMES (the model's own) -/
  hotAt : Nat := 0
  /-- R276 | 64 | 0 | device time since when XBAR_FULL counts: 0 at reset, then the last read, which clears it (the model's own) -/
  xbarAt : Nat := 0
deriving DecidableEq, Repr

/-- Lead states of R382. -/
inductive LeadState where
  | follower | lead | demoted | out
deriving DecidableEq, Repr

/-- One hub (R381, R382). -/
structure Hub where
  lead : LeadState := .follower
  /-- R381 | 1 | 0 | power-good of the hub -/
  pg : Bool := false
  /-- R381 | 2 | 0 | heartbeat path lost, as this hub sees it: CTL flits, substrate wire -/
  flitLost : Bool := false
  wireLost : Bool := false
  /-- R382 | 1 | 1 | contact held, as this hub sees it -/
  contact : Bool := true
  /-- R382 | count | 0 | consecutive heartbeats delivered on both paths since contact was lost -/
  beats : Nat := 0
  /-- R381 | 64 | 0 | device time of the last heartbeat received on each path -/
  flitAt : Nat := 0
  wireAt : Nat := 0
  /-- R261 | counter | 0 | doorbell writes received so far that covered new entries -/
  bells : Nat := 0
deriving DecidableEq, Repr

/-- Rail states of R385. -/
inductive RailState where
  | off | softStart | on | latched
deriving DecidableEq, Repr

/-! ### Heat and power -/

/-- A die's thermal registers `THM_DIE[n]` and what forms them (R410, R411, R417-R420). -/
structure ThmDie where
  /-- R411 | 16 | 0 | TJ, 0.125 °C -/
  tj : Int := 0
  /-- R411 | 16 | 0 | RATE, 0.01 °C/ms -/
  rate : Int := 0
  /-- R411 | 16 | 0x8000 | PEAK, 0.125 °C -/
  peak : Int := -32768
  /-- R410 | list | none | sensors marked invalid until reset -/
  invalid : List Nat := []
  /-- R410 | 16 each | 0 | samples in a row in which sensor k differed by more than 20 °C from the others -/
  odd : SMap Nat := []
  /-- R417 | 16 samples | none | previous die-index maxima, newest first -/
  hist : List Int := []
  /-- R411 | 1 | 0 | WARN -/
  warn : Bool := false
  /-- R411 | 1 | 0 | ACTION -/
  action : Bool := false
  /-- R411 | 1 | 0 | THROTTLE -/
  throttle : Bool := false
  /-- R418, R419 | 5 | 0 | consecutive samples below the warning rate -/
  below : Nat := 0
  /-- R419 | percent | 100 | power budget of the die in percent of the uncut budget -/
  budget : Nat := 100
deriving DecidableEq, Repr

structure Thermal where
  /-- R414 | 2 | 0 | COOLANT -/
  coolant : Nat := 0
  /-- R414 | 8 | 40 | INLET_MAX -/
  inletMax : Nat := 40
  /-- R414 | 6 × 8 | 30, 60 per class | WARN and ACT rates of matrix dies, stacks and hubs -/
  warnMx : Nat := 30
  actMx : Nat := 60
  warnMs : Nat := 30
  actMs : Nat := 60
  warnHb : Nat := 30
  actHb : Nat := 60
  /-- R414 | 2 × 16 | 3,435 | BVAL -/
  bval : List Nat := [3435, 3435]
  /-- R414 | 4 × 16 | 1,008 | IDEAL -/
  ideal : List Nat := [1008, 1008, 1008, 1008]
  /-- R411 | 214 × 64 | as in ThmDie | die registers -/
  dies : SMap ThmDie := []
  /-- R413 | 4 × 16 | 0 | DIODE, 0.1 °C -/
  diode : List Int := [0, 0, 0, 0]
  /-- R413 | 2 × 16 | 0 | THERM, 0.1 °C -/
  therm : List Int := [0, 0]
  /-- R413 | 4 | 0 | DFAULT -/
  dfault : List Bool := [false, false, false, false]
  /-- R413 | 2 | 0 | TFAULT -/
  tfault : List Bool := [false, false]
  /-- R413, R416 | 1 | 0 | ENV_OUT -/
  envOut : Bool := false
  /-- R416 | 2 | 0 | consecutive samples on the other side of the envelope -/
  envRun : Nat := 0
  /-- R421 | 1 | 0 | trip latched, THERM_TRIP_N asserted -/
  trip : Bool := false
  /-- R435 | 2 × 2 × 64 | 0 | device time since which each hub has stayed 2 °C inside a window: key 2 × hub for the record-store window,
  2 × hub + 1 for the fuse window; none while outside (the model's own; DESIGN CHOICE, log 15) -/
  steady : SMap (Option Nat) := []
deriving DecidableEq, Repr

structure Power where
  /-- R424 | 16 | 4,800 | CAP_W -/
  capW : Nat := 4800
  /-- R425 | 1 | 0 | FORCED -/
  forced : Bool := false
  /-- R332 | 16 | 0 | POWER_W, over the last 1 ms -/
  powerW : Nat := 0
  /-- R423 | 100 samples | none | 10 µs power averages, newest first -/
  samples : List Nat := []
  /-- R386, R422 | 32 × MHz | 2,000 | frequency of each cluster island -/
  freq : SMap Nat := []
  /-- R426 | 50 × 34 × 4 × 16 | R386 targets (DESIGN CHOICE, log 14) | floors that differ from the targets, key (4 × cap step + inlet level) × 50 + island -/
  floors : SMap Nat := []
  /-- R327 | 32 | 0 (DESIGN CHOICE, log 14) | MARGIN_VER, PLAN_VER -/
  planVer : Nat := 0
  /-- R428 | 32 | 0 (DESIGN CHOICE, log 14) | powered hours at the last re-plan -/
  hours : Nat := 0
  /-- R429 | 64 | 0 | PLANNED_AT -/
  plannedAt : Nat := 0
  /-- R428 | list | none | held floors: island, MHz -/
  held : List (Nat × Nat) := []
  /-- R428, R430 | 46 × mV | none | voltage that the margin plan gives each rail that is ON; no command reads it -/
  volts : SMap Nat := []
deriving DecidableEq, Repr

/-- A deferred write (R434). -/
inductive DeferKind where
  /-- state writes -/
  | marginPlan (ver : Nat) (floors : List (Nat × Nat))
  | sparing (stack : Nat)
  | preferredBank (bank : Nat)
  | failedBank (bank : Nat)
  | rollback (value : Nat)
  | lifecycleWord (word : Nat)
  /-- log writes: record number -/
  | log (record : Nat)
deriving DecidableEq, Repr

structure Deferred where
  hub : Nat
  kind : DeferKind
  queuedAt : Nat
deriving DecidableEq, Repr

/-- The record store of one hub (R432). -/
structure RecordStore where
  /-- R368 | 16 × 64 | no sparing recorded (DESIGN CHOICE, log 13) | die maps recorded, by stack: slots, erased slot, state, retired -/
  dieMaps : List (Nat × List Nat × Nat × Nat × List Nat) := []
  /-- R335 | 1 | none | preferred bank -/
  preferred : Option Nat := none
  /-- R335 | 2 | none | banks marked failed -/
  failed : List Nat := []
  /-- R428 | 32 | 0 (log 14) | version of the margin plan recorded -/
  planVer : Nat := 0
  /-- R428 | plan | R386 targets (log 14) | margin plan recorded, as in Power.floors -/
  plan : List (Nat × Nat) := []
  /-- R421, R451, R456 | list | empty | health, trip, supply and debug events logged: code, device time -/
  logs : List (Nat × Nat) := []
deriving DecidableEq, Repr

/-! ### Time and the step reference -/

/-- Reference states of R403. -/
inductive RefState where
  | disabled | unqualified | qualified | stuck
deriving DecidableEq, Repr

/-- Reference 0 or 1 (R401-R403). -/
structure Ref where
  state : RefState := .unqualified
  /-- R403, R408 | 4 | 0 | clean frames counted toward qualification -/
  count : Nat := 0
  /-- R403 | 2 | 0 | consecutive frames that are not clean -/
  bad : Nat := 0
  /-- R401, R402 | list | none | times of edges not yet judged -/
  edges : List Nat := []
deriving DecidableEq, Repr

structure Clock where
  /-- R394 | 64 | 0 | device-time counters of HB-A and HB-B -/
  timeA : Nat := 0
  timeB : Nat := 0
  /-- R398 | 1 | 0 | the frame timer runs -/
  running : Bool := false
  /-- R398, R399 | 30 | 10 ms | F in ns -/
  f : Nat := 10000000
  /-- R402 | 64 | 0 | B_j, the last frame edge, and j -/
  bj : Nat := 0
  j : Nat := 0
  /-- R402 | 64 | 0 | B_(j+1), once placed -/
  next : Nat := 0
  /-- R402 | 1 | 0 | the window of frame j has been judged -/
  judged : Bool := false
  /-- R399 | 1 | 1 | USE_SYNC -/
  useSync : Bool := true
  /-- R399 | 1 | 0 | USE_HOST -/
  useHost : Bool := false
  /-- R399 | 1 | 0 | EDGE: true for a falling edge -/
  edgeFall : Bool := false
  /-- R400 | - | none | DEVICE configuration that takes effect at the next frame edge: F, USE_SYNC, USE_HOST, EDGE -/
  devPend : Option (Nat × Bool × Bool × Bool) := none
  /-- R401 | - | STEP_SYNC unqualified, host stamps disabled | references 0 and 1 -/
  ref0 : Ref := {}
  ref1 : Ref := { state := .disabled }
  /-- R408 | 2 | 2 | ACTIVE -/
  active : Nat := 2
  /-- R408 | 1 | 0 | SWITCHING -/
  switching : Bool := false
  /-- R408 | 32 | 0 | PHASE -/
  phase : Int := 0
  /-- R330 | 32 | 0 | REF_PULL -/
  pull : Int := 0
  /-- R408 | 8 | 0 | JUMPS -/
  jumps : Nat := 0
  /-- R406 | 1 | 0 | the new active reference places the next frame edge at its own next edge -/
  jumpPend : Bool := false
  /-- R407 | 1 | 0 | STEP_OUT asserted -/
  stepOut : Bool := false
  /-- R401 | 1, 64 | 0 | level of STEP_SYNC and the time of its last transition -/
  level : Bool := false
  levelAt : Nat := 0
  /-- R401 | 64 | 0 | time at which the level before that began, for the 100 ns filter -/
  prevAt : Nat := 0
  /-- R404 | 1 | 1 | the level held since power-up is still ignored -/
  ignore : Bool := true
deriving DecidableEq, Repr

/-! ### Lifecycle, firmware, management -/

/-- A firmware bank in QSPI flash (R442, R461). -/
structure Bank where
  /-- R327, R442 | 32 | 0 (DESIGN CHOICE, log 15) | FW_VER -/
  fwVer : Nat := 0
  /-- R442 | 7 | 0 (DESIGN CHOICE, log 15) | SVN -/
  svn : Nat := 0
  /-- R442 | 384 | 0 (DESIGN CHOICE, log 15) | hash of the image -/
  hash : BitVec 384 := 0
  /-- R335, R442 | 1 | 1 (DESIGN CHOICE, log 15) | the signature check passes -/
  good : Bool := true
deriving DecidableEq, Repr

/-- PLDM update states (R336). -/
inductive Pldm where
  | idle | learn | ready | download | verify | apply | activate
deriving DecidableEq, Repr

/-- An SPDM secure session (R445). -/
structure Session where
  id : Nat
  /-- 0 handshaking, 1 established -/
  st : Nat
  /-- R445 | count | 0 | key updates -/
  keys : Nat
deriving DecidableEq, Repr

/-- A DEBUG_UNLOCK sequence that runs (R450, R451). -/
structure Unlock where
  /-- the command, and its completions' identity -/
  sub : Submission
  tok : CmdTok
  /-- the lead hub on whose acorn it runs -/
  lead : Nat
  /-- the token verified when it was read -/
  good : Bool
  /-- steps done: 0 FIRST posted, 1 DBG_COUNT blown, 2 pods fenced, 3 husk zeroed, 4 memory zeroed, 5 event written or waiting -/
  phase : Nat
deriving DecidableEq, Repr

structure Security where
  /-- R437 | 4 × 384 | none blown (R436: shipped in MANUFACTURE) | owner key slots blown, slot 0 first -/
  owners : List (BitVec 384) := []
  /-- R436 | 1 | 0 | retire fuse -/
  retireFuse : Bool := false
  /-- R451 | 8 | 0 (DESIGN CHOICE, log 15) | DBG_COUNT -/
  dbgCount : Nat := 0
  /-- R443 | 2 × 64 | 0 (DESIGN CHOICE, log 15) | anti-rollback counters of the hubs -/
  rollA : Nat := 0
  rollB : Nat := 0
  /-- R436 | 1 | 0 | debug-open latch -/
  debugOpen : Bool := false
  /-- R450 | sequence | none | the DEBUG_UNLOCK sequence that runs -/
  unlock : Option Unlock := none
  /-- R439 | 1 | 0 | RETIRE has committed -/
  retiring : Bool := false
  /-- R439 | list | none | fuse words committed and not yet programmed: (0 owner slot, 1 retire), value -/
  words : List (Nat × BitVec 384) := []
  /-- R444 | 1 | 1 | husk holds its items (false once zeroed) -/
  husk : Bool := false
  /-- R444 | 2 × 384 | 0 until boot | CDI_0, CDI_1 -/
  cdi0 : BitVec 384 := 0
  cdi1 : BitVec 384 := 0
  /-- R444 | 1 | 0 | UDS read-locked -/
  udsLocked : Bool := false
  /-- R444 | counter | 0 | DRBG requests made in all, and since the last reseed -/
  drbgDraws : Nat := 0
  drbgReq : Nat := 0
  /-- R445 | 8 | none | SPDM secure sessions -/
  sessions : List Session := []
  /-- R445 | 1 | 0 | SPDM negotiation: 0 none, 1 version, 2 capabilities, 3 algorithms -/
  spdm : Nat := 0
  /-- R445 | counter | 0 | next session number -/
  nextSession : Nat := 0
deriving DecidableEq, Repr

structure Firmware where
  /-- R333, R468 | 64 | 350 ms (R468: 350 ms after the restart at device time 0; log 2) | t0 in device time -/
  t0 : Nat := 350000000
  /-- R468 | 64 | 0 | device time at which the acorns last restarted, when VAUX3 came into range -/
  restartAt : Nat := 0
  /-- R333 | stage | 0 | boot stages completed, 0-8 (8 is READY) -/
  stage : Nat := 0
  /-- R333 | 2 | 0 | groups of rails that the power-up sequence has started, 0-3: hubs, matrix dies, stacks -/
  railGroups : Nat := 0
  /-- R330 | 1 | 0 (DESIGN CHOICE, log 15) | running bank -/
  bank : Nat := 0
  /-- R335 | 1 | 0 | FW_FALLBACK -/
  fallback : Bool := false
  /-- R461 | 2 banks | as in Bank | QSPI banks A and B -/
  bankA : Bank := {}
  bankB : Bank := {}
  /-- R336 | state | idle | PLDM update state -/
  pldm : Pldm := .idle
  /-- R336 | bytes | empty | image received, and its announced size -/
  image : List Byte := []
  imageLen : Nat := 0
  /-- R336 | 1 | 0 | last verification passed -/
  verified : Bool := false
  /-- R432 | 8 MiB each | as in RecordStore | record stores of HB-A and HB-B -/
  storeA : RecordStore := {}
  storeB : RecordStore := {}
  /-- R434 | 1,024 entries | empty | deferred writes, oldest first -/
  defer : List Deferred := []
  /-- R332 | 16 | 0 | DEFER_DROPPED -/
  deferDropped : Nat := 0
deriving DecidableEq, Repr

/-- The management bus (R460). -/
structure MgmtBus where
  /-- R460 | 3 | 0 (strap, pulled down) | ADDR_SEL sampled -/
  addrSel : Nat := 0
  /-- R460 | 7 | none: SMBus mode | I3C dynamic address -/
  dyn : Option Nat := none
  /-- R460 | 8 | 0xFF (PRESUMED, I3C Basic: events enabled, log 16) | target events enabled -/
  events : BitVec 8 := 0xFF
  /-- R460 | 16 | 8 (PRESUMED, I3C Basic minimum, log 16) | MWL -/
  mwl : BitVec 16 := 8
  /-- R460 | 16 | 16 (PRESUMED, I3C Basic minimum, log 16) | MRL -/
  mrl : BitVec 16 := 16
deriving DecidableEq, Repr

/-- The JTAG TAP (R453, R462). -/
structure Jtag where
  /-- R462 | 8 | IDCODE 0x01 (PRESUMED, IEEE 1149.1, log 16) | instruction in force after R453 -/
  ir : Nat := 1
  /-- R462 | 84 | 0 (DESIGN CHOICE, log 16) | boundary register -/
  boundary : BitVec 84 := 0
deriving DecidableEq, Repr

structure Pins where
  /-- R456 | 1 | 1 (log 2) | VAUX3 in range -/
  vaux3 : Bool := true
  /-- R468 | 1 | 1 (log 2) | PWR_GOOD -/
  pwrGood : Bool := true
  /-- R468 | 1 | 0 (log 2) | RESET_N asserted -/
  resetN : Bool := false
  /-- R465 | 1 | 0 (pulled down) | LEAD_SEL as last sampled -/
  leadSel : Bool := false
  /-- R456 | 1 | 0 | supply fault latched -/
  supply : Bool := false
deriving DecidableEq, Repr

/-! ### Outputs -/

/-- What the part sends out of the package: the model's own record, newest first (R315, R318, R320). -/
inductive Out where
  /-- a completion entry written to slot `slot` of the mailbox's ring -/
  | completion (mbx : Mbx) (slot : Nat) (entry : BitVec 256) (pasid : Option (BitVec 20))
  | event (fn slot : Nat) (entry : BitVec 256)
  | msix (fn vec : Nat) (addr : BitVec 64) (data : BitVec 32)
  /-- a result buffer written at a bus address -/
  | result (mbx : Mbx) (dest : Nat) (bytes : List Byte) (pasid : Option (BitVec 20))
  /-- data returned to a reader; `ep` poisoned, `abort` Completer Abort -/
  | read (req : Requester) (bytes : List Byte) (ep abort : Bool)
  | writeAck (fn : Nat) (abort : Bool)
  | unsupported (fn : Nat)
  /-- a write into a peer window (R299): window address, bytes, FINAL, Unordered I/O, Relaxed Ordering, poisoned -/
  | peerWrite (addr : Nat) (bytes : List Byte) (final uio relaxed poisoned : Bool)
  | peerRead (addr len : Nat)
  /-- a 4-byte flush read (R299), with Relaxed Ordering 0 and ID-Based Ordering 0 -/
  | flushRead (addr : Nat)
  | probe (partner addr : Nat)
  | spdm (code : Nat) (body : List Byte)
  | pldm (code : Nat) (body : List Byte)
  | bus (bytes : List Byte)
  | nack
  | jtag (bits : Nat) (len : Nat)
deriving DecidableEq, Repr

/-! ### The machine -/

structure State where
  /-- the queue of commands that wait, first in first out (the model's own) -/
  pending : List Instr
  /-- R35, R38 | all memories | nothing written | bytes by device address; group-shared memory of group n at 2^48 + 2^18 × n -/
  mem : List Host.Cell
  /-- R451 | ranges | none | ranges [first, end) of `mem` whose unlisted bytes read 0, as a zeroing left them -/
  zeroed : List (Nat × Nat)
  /-- R358 | granules | none | poisoned granules (address div 64) -/
  poison : SMap Bool
  /-- R356, R357 | stack DRAM | no error | symbols in error by granule: (position, exclusive-or) -/
  dramErr : SMap (List (Nat × BitVec 8))
  /-- R359 | SRAM words | no error | stored bits in error by word (address div 8) -/
  sramErr : SMap (BitVec 72)
  fabric : Fabric
  /-- R64 | 32 × 128 | 0 | MX_FMT_CNT -/
  mxFmt : SMap FmtCnt
  /-- R64 | 1,024 × 128 | 0 | STK_FMT_CNT -/
  stkFmt : SMap FmtCnt
  /-- R86 | 256 × 64 | as in TileStat | MX_TILE_STAT -/
  tiles : SMap TileStat
  /-- R93-R111 | runs | none | tile programs of running MATRIX nodes -/
  tileRuns : List TileRun
  /-- R125 | 1,024 engines | no launch | engines with a launch -/
  engines : SMap (Option EngineRun)
  /-- R138 | list | empty | granules on their way to engines -/
  flights : List Flight
  /-- R192, R193 | list | empty | writes that wait at the sprout ports -/
  portq : List PortWrite
  /-- R263 | 16 pods | FREE | pods -/
  pods : SMap Pod
  /-- R234 | graphs | none | loaded graphs -/
  graphs : List Graph
  /-- R234 | 32 | 1 | next graph ID -/
  nextGraph : Nat
  /-- R244 | instances | none | instances and steps not yet dropped -/
  insts : List Inst
  /-- R266 | 256 IDs | none | regions by ID -/
  regions : SMap (Option Region)
  /-- R278 | 256 IDs | none | mirrors by ID -/
  mirrors : SMap (Option Mirror)
  /-- R282 | 64 × 32 | 0 | REDIRECTS by slice -/
  redirects : SMap Nat
  /-- R204 | 65,536 × 256 B | FREE | stream table -/
  streams : SMap Stream
  /-- R216 | counter | 0 | order of closing streams (the model's own) -/
  closeSeq : Nat
  /-- R191 | windows | none | write windows in the sprout ports -/
  sprout : List Window
  /-- R187 | 16 units | as in Pwu | page-walk units -/
  pwu : SMap Pwu
  /-- R233 | 16 × 16 | 0 | HUB_KV_LAND DROPPED -/
  kvDropped : SMap Nat
  /-- R306 | 256 × 256 | 0 | landing counters -/
  land : SMap LandCh
  /-- R347 | 256 × 128 | 0 | aperture windows -/
  aper : SMap Aper
  /-- R283 | 64 windows | unmapped | peer windows -/
  windows : SMap PeerWindow
  /-- R350 | 64 IDs | ABSENT | added partners -/
  partners : SMap Partner
  /-- R310 | 68 mailboxes | as in Mailbox | mailboxes, key 4 × function + m -/
  mboxes : SMap Mailbox
  /-- R317 | 20 functions | as in Func | functions -/
  funcs : SMap Func
  /-- R339 | 4 ports | as in Port | host ports -/
  ports : SMap Port
  /-- R344 | 2 | PF 0 | owner -/
  owner : Option Nat
  /-- R345 | - | none | offer: port, code, device time of its completion -/
  offer : Option (Nat × Nat × Nat)
  /-- R313 | list | empty | submissions acknowledged and not yet carried out, oldest first, each with the mailbox epoch at its acknowledgement -/
  acked : List (Submission × Nat)
  /-- R316 | list | empty | commands whose FINAL completion is due -/
  cmds : List PendingCmd
  /-- R361 | 8, 8, 12, 4 | 24, 255, 60, 2 | HUB_ECC_CFG: SCRUB_H, CAP, LEAK_S, RETIRE_OVF -/
  eccCfg : Nat × Nat × Nat × Nat
  /-- R361 | 8, 8, 12, 4 | 24, 255, 60, 2 | HUB_ECC_CFG as last written; in force from the next leak tick or scrub pass -/
  eccWritten : Nat × Nat × Nat × Nat
  /-- R360 | 64 | 0 | device time of the last leak tick -/
  leakAt : Nat
  /-- R360, R362 | 214 × 128 | 0 | buckets and logs by entry of R363 -/
  ecc : SMap EccLog
  /-- R370, R276 | 16 × 64 | as in DieMap | sparing state by stack -/
  dies : SMap DieMap
  /-- R371, R373 | units | none | fences decided: unit and reason -/
  fences : List (UnitRef × Nat)
  /-- R381 | 2 | as in Hub | hubs HB-A and HB-B -/
  hubA : Hub
  hubB : Hub
  /-- R385 | 46 rails | OFF | rails by index of R332 -/
  rails : SMap RailState
  clock : Clock
  thermal : Thermal
  power : Power
  sec : Security
  fw : Firmware
  mgmt : MgmtBus
  jtag : Jtag
  pins : Pins
  /-- everything sent out of the package, newest first (the model's own record) -/
  out : List Out
  /-- counter of the free values taken (the model's own field; DESIGN CHOICE 0, log 5) -/
  freeIdx : Nat
deriving DecidableEq, Repr

/-- The part right after the part reset that a rise of PWR_GOOD starts (R468): VAUX3 in range, RESET_N not asserted, rails off,
no boot stage completed. -/
def State.reset : State where
  pending := []
  mem := []
  zeroed := []
  poison := []
  dramErr := []
  sramErr := []
  fabric :=
    { links := [(33, { state := 3 }), (34, { state := 3 }), (35, { state := 3 }), (36, { state := 3 })]
      routersLost := [], flits := [], arrived := [], arb := [], nextFlit := 0 }
  mxFmt := []
  stkFmt := []
  tiles := []
  tileRuns := []
  engines := []
  flights := []
  portq := []
  pods := []
  graphs := []
  nextGraph := 1
  insts := []
  regions := []
  mirrors := []
  redirects := []
  streams := []
  closeSeq := 0
  sprout := []
  pwu := []
  kvDropped := []
  land := []
  aper := []
  windows := []
  partners := []
  mboxes := []
  funcs := []
  ports := []
  owner := some 0
  offer := none
  acked := []
  cmds := []
  eccCfg := (24, 255, 60, 2)
  eccWritten := (24, 255, 60, 2)
  leakAt := 0
  ecc := []
  dies := []
  fences := []
  hubA := {}
  hubB := {}
  rails := []
  clock := {}
  thermal := {}
  power := {}
  sec := {}
  fw := {}
  mgmt := {}
  jtag := {}
  pins := {}
  out := []
  freeIdx := 0

end Sys2Proof.Machine
end

