-- ==== Sys2Proof/Decode.lean ====
section
/-! DEFINITION. The words of commands: no row of the opcode table gives its command bits, so no word spells one. -/

namespace Sys2Proof

/-- The command that a word of `nbits` bits spells by the opcode table's bits: the table gives none of its rows bits. -/
def decodeTableWord (nbits w : Nat) : Option Instr :=
  match nbits, w with
  | _, _ => none

end Sys2Proof
end

