-- ==== Sys2Proof/Machine/Bits.lean ====
section
/-! DEFINITION. Bit fields, byte order (little-endian, "Conventions" of 00_scope) and sign extension. -/

namespace Sys2Proof

/-- Bits hi:lo of a number. -/
def bits (w hi lo : Nat) : Nat := (w >>> lo) % 2 ^ (hi + 1 - lo)

/-- Bit k of a number. -/
def bit (w k : Nat) : Bool := w.testBit k

/-- 1 for true. -/
def b2n (b : Bool) : Nat := if b then 1 else 0

/-- A value placed at bit lo. -/
def at_ (lo v : Nat) : Nat := v <<< lo

/-- The n low bits read as a two's-complement number. -/
def signed (n v : Nat) : Int :=
  let u := v % 2 ^ n
  if u < 2 ^ (n - 1) then (u : Int) else (u : Int) - (2 ^ n : Nat)

/-- A signed number in n bits of two's complement. -/
def unsigned (n : Nat) (v : Int) : Nat := (v % ((2 ^ n : Nat) : Int)).toNat

/-- Little-endian bytes as a number. -/
def leNat (bs : List Byte) : Nat :=
  match bs with
  | [] => 0
  | b :: r => b.toNat + 256 * leNat r

/-- The n low bytes of a number, lowest first. -/
def leBytes (n v : Nat) : List Byte :=
  match n with
  | 0 => []
  | n + 1 => BitVec.ofNat 8 v :: leBytes n (v / 256)

/-- The positions of the ones of a mask of n bits, ascending. -/
def onesOf (n mask : Nat) : List Nat := (List.range n).filter (fun i => mask.testBit i)

/-- A mask with the given bits set. -/
def maskOf (l : List Nat) : Nat := l.foldl (fun m i => m ||| (1 <<< i)) 0

/-- A number rounded up to a multiple of m. -/
def roundUp (m v : Nat) : Nat := ((v + m - 1) / m) * m

/-- Quotient rounded up. -/
def ceilDiv (a b : Nat) : Nat := (a + b - 1) / b

/-- The list with element i replaced. -/
def setAt {α : Type} (l : List α) (i : Nat) (v : α) : List α := l.set i v

/-- The i-th element, or a default. -/
def nth {α : Type} (d : α) (l : List α) (i : Nat) : α := (l[i]?).getD d

/-- Insertion sort of numbers, ascending. -/
def insertNat (x : Nat) (l : List Nat) : List Nat :=
  match l with
  | [] => [x]
  | y :: r => if x ≤ y then x :: y :: r else y :: insertNat x r

def sortNat (l : List Nat) : List Nat := l.foldr insertNat []

/-- The list without repeats, keeping first places. -/
def dedup (l : List Nat) : List Nat := l.foldl (fun acc x => if acc.contains x then acc else acc ++ [x]) []

/-- Number of elements that satisfy a test. -/
def countIf {α : Type} (f : α → Bool) (l : List α) : Nat := (l.filter f).length

/-- Largest element, 0 for none. -/
def maxNat (l : List Nat) : Nat := l.foldl max 0

/-- Largest element of a list of integers, with a default for none. -/
def maxInt (d : Int) (l : List Int) : Int :=
  match l with
  | [] => d
  | x :: r => r.foldl max x

end Sys2Proof
end

