-- ==== Sys2Proof/Machine/Sparse.lean ====
section
/-! DEFINITION. Reading and writing sparse tables: one canonical list for every table of values. -/

namespace Sys2Proof

variable {α : Type}

/-- The listed value at a key, if any. -/
def SMap.find (m : SMap α) (k : Nat) : Option α :=
  match m with
  | [] => none
  | (j, v) :: r => if j = k then some v else SMap.find r k

/-- The value at a key: the default where nothing is listed. -/
def SMap.get (d : α) (m : SMap α) (k : Nat) : α :=
  (SMap.find m k).getD d

/-- List a value at a key, keeping keys rising. -/
def SMap.put (m : SMap α) (k : Nat) (v : α) : SMap α :=
  match m with
  | [] => [(k, v)]
  | (j, w) :: r =>
    if k < j then (k, v) :: (j, w) :: r
    else if k = j then (k, v) :: r
    else (j, w) :: SMap.put r k v

/-- Unlist a key. -/
def SMap.del (m : SMap α) (k : Nat) : SMap α :=
  match m with
  | [] => []
  | (j, w) :: r => if j = k then SMap.del r k else (j, w) :: SMap.del r k

/-- Write a value: the default removes the entry, so that equal tables are equal lists. -/
def SMap.set [DecidableEq α] (d : α) (m : SMap α) (k : Nat) (v : α) : SMap α :=
  if v = d then SMap.del m k else SMap.put m k v

/-- Change the value at a key. -/
def SMap.mod [DecidableEq α] (d : α) (m : SMap α) (k : Nat) (f : α → α) : SMap α :=
  SMap.set d m k (f (SMap.get d m k))

/-- Keys strictly rising. -/
def SMap.rising (m : SMap α) : Bool :=
  match m with
  | [] => true
  | (j, _) :: r => (match r with | [] => true | (k, _) :: _ => decide (j < k)) && SMap.rising r

/-- Saturating addition at a limit. -/
def satAdd (limit a b : Nat) : Nat := min limit (a + b)

end Sys2Proof
end

