-- ==== Sys2Proof/Config.lean ====
section
/-! DEFINITION. What one part fixes and the spec does not publish, and the free values: opaque constants that no proof can see through. -/

namespace Sys2Proof.Config

/-- R285: what a byte that nothing has written reads as; undefined data, free per address (log entry 4). -/
opaque unwritten : Nat → BitVec 8

/-- A fresh undefined value of the spec (R12, R16, R219, R365), by the model's own counter `freeIdx` (log entry 5). -/
opaque freeByte : Nat → BitVec 8

/-- R266: which of the free region IDs a map takes, by the model's own counter `freeIdx` (log entry 5). -/
opaque freeId : Nat → Nat

/-- R327: the part's serial number (log entry 6). -/
opaque serial : BitVec 64

/-- R1, R327: true for grade -L (log entry 6). -/
opaque gradeL : Bool

/-- R332: the record or fuse field of DEFER that names a deferred write's record, by the model's own number (log entry 5). -/
opaque recordField : Nat → BitVec 32

/-- R335, R442: what the header of an image received by update says: FW_VER, SVN, and whether its signature verifies (log entry 8). -/
opaque imageVer : List (BitVec 8) → BitVec 32
opaque imageSvn : List (BitVec 8) → BitVec 7
opaque imageGood : List (BitVec 8) → Bool

/-- R13, R327, R429: the floor published for the grade's horizon, MHz, by 50 × inlet level + table island (log entry 6). -/
opaque horizonFloor : Nat → BitVec 16

/-- R29: the 32-bit CRC of a flit, whose polynomial the spec does not give, by its header, mask and payload (log entry 18). -/
opaque flitCrc : List Nat → BitVec 64 → BitVec 512 → BitVec 32

/-- R359: column of the unpublished SEC-DED check matrix, for stored bit 0 to 71 (log entry 7). -/
opaque sramColumn : Nat → BitVec 8

/-- R440, R445: the SHA-384 of a byte string (log entry 8). -/
opaque sha384 : List (BitVec 8) → BitVec 384

/-- R441, R442: whether an ECDSA P-384 signature verifies: public key, signature, digest (log entry 8). -/
opaque ecdsaVerify : BitVec 768 → BitVec 768 → BitVec 384 → Bool

/-- R445: the signature the part makes with its Alias key over a digest (log entry 8). -/
opaque aliasSign : BitVec 384 → BitVec 384 → BitVec 768

/-- R441: the Dorpin debug public key in mask ROM (log entry 8). -/
opaque debugPub : BitVec 768

/-- R445: the certificate chain of slot 0 (Dorpin root, DeviceID, Alias), by the CDI_1 whose Alias key it certifies (log entry 8). -/
opaque certChain : BitVec 384 → List (BitVec 8)

/-- R444: the unique device secret in the fuses (log entry 8). -/
opaque uds : BitVec 384

/-- R444: HMAC-SHA-384 of a secret over a measurement digest (log entry 8). -/
opaque hmac384 : BitVec 384 → BitVec 384 → BitVec 384

/-- R445: hash of the mask ROM (log entry 8). -/
opaque romHash : BitVec 384

/-- R447: the n-th output of the on-die DRBG (log entry 9). -/
opaque drbg : Nat → BitVec 256

/-- R448: AES-256-GCM keystream byte: key, nonce, byte index (log entry 8). -/
opaque gcmStream : BitVec 256 → BitVec 96 → Nat → BitVec 8

/-- R448: AES-256-GCM tag: key, nonce, additional data, ciphertext (log entry 8). -/
opaque gcmTag : BitVec 256 → BitVec 96 → BitVec 128 → List (BitVec 8) → BitVec 128

/-- R460: the I3C provisioned ID, BCR and DCR of the part (log entry 6). -/
opaque i3cPid : BitVec 48
opaque i3cBcr : BitVec 8
opaque i3cDcr : BitVec 8

end Sys2Proof.Config
end

