-- ==== Sys2Proof/Machine/Units.lean ====
section
/-! DEFINITION. Units, unit codes (R325), die indices (R363), fences (R371) and places of the device address map (R35, R36). -/

namespace Sys2Proof.Machine

open Sys2Proof

/-! ### Small readers of the tables -/

def getPod (s : State) (p : Nat) : Pod := SMap.get {} s.pods p
def setPod (p : Nat) (v : Pod) (s : State) : State := { s with pods := SMap.set {} s.pods p v }
def modPod (p : Nat) (f : Pod → Pod) (s : State) : State := setPod p (f (getPod s p)) s
def getStream (s : State) (i : Nat) : Stream := SMap.get {} s.streams i
def setStream (i : Nat) (v : Stream) (s : State) : State := { s with streams := SMap.set {} s.streams i v }
def modStream (i : Nat) (f : Stream → Stream) (s : State) : State := setStream i (f (getStream s i)) s
def getRegion (s : State) (i : Nat) : Option Region := SMap.get none s.regions i
def setRegion (i : Nat) (v : Option Region) (s : State) : State := { s with regions := SMap.set none s.regions i v }
def getMirror (s : State) (i : Nat) : Option Mirror := SMap.get none s.mirrors i
def setMirror (i : Nat) (v : Option Mirror) (s : State) : State := { s with mirrors := SMap.set none s.mirrors i v }
def getLink (s : State) (n : Nat) : Link := SMap.get {} s.fabric.links n
def setLink (n : Nat) (v : Link) (s : State) : State :=
  { s with fabric := { s.fabric with links := SMap.set {} s.fabric.links n v } }
def getFunc (s : State) (n : Nat) : Func := SMap.get {} s.funcs n
def setFunc (n : Nat) (v : Func) (s : State) : State := { s with funcs := SMap.set {} s.funcs n v }
def getPort (s : State) (n : Nat) : Port := SMap.get {} s.ports n
def setPort (n : Nat) (v : Port) (s : State) : State := { s with ports := SMap.set {} s.ports n v }
def getPartner (s : State) (n : Nat) : Partner := SMap.get {} s.partners n
def setPartner (n : Nat) (v : Partner) (s : State) : State := { s with partners := SMap.set {} s.partners n v }
def getWindow (s : State) (n : Nat) : PeerWindow := SMap.get {} s.windows n
def setWindow (n : Nat) (v : PeerWindow) (s : State) : State := { s with windows := SMap.set {} s.windows n v }
def getTile (s : State) (n : Nat) : TileStat := SMap.get {} s.tiles n
def setTile (n : Nat) (v : TileStat) (s : State) : State := { s with tiles := SMap.set {} s.tiles n v }
def getDie (s : State) (n : Nat) : DieMap := SMap.get {} s.dies n
def setDie (n : Nat) (v : DieMap) (s : State) : State := { s with dies := SMap.set {} s.dies n v }
def getRail (s : State) (i : Nat) : RailState := SMap.get .off s.rails i
def setRail (i : Nat) (v : RailState) (s : State) : State := { s with rails := SMap.set .off s.rails i v }
/-- Lowest and highest voltage of a rail, mV (R430): an adaptive rail has a range, whose top is its VMAX; another rail has one voltage. -/
def railRange (i : Nat) : Nat × Nat :=
  if i < 8 then (if i % 2 = 0 then (550, 800) else (750, 750))
  else if i < 40 then (if i % 2 = 0 then (620, 750) else (1050, 1050))
  else if (i - 40) % 3 = 0 then (650, 800) else if (i - 40) % 3 = 1 then (900, 900) else (750, 750)

/-- The voltage of a rail is set: within its range, a free value (R428, R430; log entry 5). -/
def setVolt (i : Nat) (s : State) : State :=
  let r := railRange i
  { s with freeIdx := s.freeIdx + 1,
           power := { s.power with volts := SMap.set 0 s.power.volts i (r.1 + Config.freeId s.freeIdx % (r.2 + 1 - r.1)) } }

/-- A margin plan sets the voltages of the rails that are ON (R428, R430). -/
def planVolts (s : State) : State := ((List.range 46).filter (fun i => getRail s i = .on)).foldl (fun s i => setVolt i s) s

/-- The rail that supplies a table island (R426, R430). -/
def islandRail (i : Nat) : Nat := if i < 32 then 2 * (i / 8) else if i < 48 then 8 + 2 * (i - 32) else 40 + 3 * (i - 48)

def getHub (s : State) (h : Nat) : Hub := if h = 0 then s.hubA else s.hubB
def setHub (h : Nat) (v : Hub) (s : State) : State := if h = 0 then { s with hubA := v } else { s with hubB := v }
def modHub (h : Nat) (f : Hub → Hub) (s : State) : State := setHub h (f (getHub s h)) s

/-- Regions that are mapped, with their IDs. -/
def mapped (s : State) : List (Nat × Region) :=
  s.regions.filterMap (fun p => p.2.map (fun r => (p.1, r)))

/-- Mirrors declared, with their IDs. -/
def declared (s : State) : List (Nat × Mirror) :=
  s.mirrors.filterMap (fun p => p.2.map (fun r => (p.1, r)))

/-- The KV pools of a pod with their region IDs (R174). -/
def poolOf (s : State) (p pool : Nat) : Option (Nat × Region) :=
  (mapped s).find? (fun r => r.2.pod = p && r.2.mode = 3 && r.2.pool = pool)

/-- Device time: the lead hub's counter (R394). -/
def now (s : State) : Nat :=
  if s.hubB.lead = .lead then s.clock.timeB else s.clock.timeA

/-- The lead hub, 0 HB-A or 1 HB-B (R381). -/
def leadHub (s : State) : Nat := if s.hubB.lead = .lead then 1 else 0

/-- Append to the part's outputs. -/
def emit (o : Out) (s : State) : State := { s with out := o :: s.out }

/-! ### Fences (R371) -/

/-- The unit is listed as fenced itself. -/
def listed (s : State) (u : UnitRef) : Bool := s.fences.any (fun f => f.1 = u)

/-- The reason under which a unit is listed. -/
def fenceReason (s : State) (u : UnitRef) : Option Nat := (s.fences.find? (fun f => f.1 = u)).map (fun f => f.2)

/-- Rails of matrix die d, stack st and hub h (R332). -/
def railsMx (d : Nat) : List Nat := [2 * d, 2 * d + 1]
def railsMs (st : Nat) : List Nat := [8 + 2 * st, 9 + 2 * st]
def railsHb (h : Nat) : List Nat := [40 + 3 * h, 41 + 3 * h, 42 + 3 * h]

/-- Some rail of a list is fenced. -/
def railFenced (s : State) (l : List Nat) : Bool := l.any (fun i => listed s (.rail i))

def mxFenced (s : State) (d : Nat) : Bool := listed s (.matrixDie d) || railFenced s (railsMx d)
def clusterFenced (s : State) (c : Nat) : Bool := listed s (.cluster c) || mxFenced s (c / 8)
def tileFenced (s : State) (t : Nat) : Bool := listed s (.tile t) || clusterFenced s (t / 8)
def stackFenced (s : State) (st : Nat) : Bool := listed s (.stack st) || railFenced s (railsMs st)
def groupFenced (s : State) (g : Nat) : Bool := listed s (.group g) || stackFenced s (g / 4)
def engineFenced (s : State) (e : Nat) : Bool := listed s (.engine e) || groupFenced s (e / 16)
def hubFenced (s : State) (h : Nat) : Bool := listed s (.hub h) || railFenced s (railsHb h) || (getHub s h).lead = .out
def sliceFenced (s : State) (k : Nat) : Bool := listed s (.slice k) || hubFenced s (k / 32)
def portFenced (s : State) (p : Nat) : Bool := listed s (.port p) || hubFenced s (p / 2)
def windowFenced (s : State) (w : Nat) : Bool := listed s (.window w)

/-- A core is usable: clusters 0-31, bank groups 32-95. -/
def coreFenced (s : State) (c : Nat) : Bool := if c < 32 then clusterFenced s c else groupFenced s (c - 32)

/-- Unfenced tiles of a cluster (R87). -/
def clusterW (s : State) (c : Nat) : Nat := if clusterFenced s c then 0 else countIf (fun t => !tileFenced s (8 * c + t)) (List.range 8)

/-- Unfenced engines of a bank group (R143). -/
def groupW (s : State) (g : Nat) : Nat := if groupFenced s g then 0 else countIf (fun e => !engineFenced s (16 * g + e)) (List.range 16)

/-- The W of R87 or R143 for a core. -/
def coreW (s : State) (c : Nat) : Nat := if c < 32 then clusterW s c else groupW s (c - 32)

/-- Fencing state of any unit. -/
def unitFenced (s : State) (u : UnitRef) : Bool :=
  match u with
  | .tile n => tileFenced s n
  | .cluster n => clusterFenced s n
  | .matrixDie d => mxFenced s d
  | .engine n => engineFenced s n
  | .group n => groupFenced s n
  | .stack st => stackFenced s st
  | .slice k => sliceFenced s k
  | .port p => portFenced s p
  | .window w => windowFenced s w
  | .rail i => listed s (.rail i)
  | .pod p => (getPod s p).state = .fenced
  | .link _ => false
  | .hub h => hubFenced s h
  | .dramDie _ _ => false

/-! ### Unit codes (R325) -/

/-- The die index of R325 and R363: 0-3 matrix dies, 4-5 hubs, 6-21 stacks. -/
def unitCode (u : UnitRef) : Nat :=
  let mk (kind die x y : Nat) : Nat := kind + 256 * die + 65536 * x + 16777216 * y
  match u with
  | .tile n => mk 1 (n / 64) (n / 8 % 8) (n % 8)
  | .cluster n => mk 2 (n / 8) (n % 8) 0
  | .matrixDie d => mk 3 d 0 0
  | .engine n => mk 4 (6 + n / 64) (n % 64 / 16) (n % 64)
  | .group n => mk 5 (6 + n / 4) (n % 4) 0
  | .stack st => mk 6 (6 + st) 0 0
  | .slice k => mk 7 0 k 0
  | .port p => mk 8 (4 + p / 2) p 0
  | .window w => mk 9 0 w 0
  | .rail i => mk 10 (if i < 8 then i / 2 else if i < 40 then 6 + (i - 8) / 2 else 4 + (i - 40) / 3) i 0
  | .pod p => mk 11 0 p 0
  | .link n => mk 12 0 n 0
  | .hub h => mk 13 (4 + h) 0 0
  | .dramDie st k => mk 14 (6 + st) k 0

/-- The unit of a code, none where the code breaks R325: a code is accepted when it is the code of the unit it names. -/
def decodeUnit (w : Nat) : Option UnitRef :=
  let kind := w % 256
  let die := w / 256 % 256
  let x := w / 65536 % 256
  let y := w / 16777216 % 256
  let u : Option UnitRef :=
    match kind with
    | 1 => if die < 4 ∧ x < 8 ∧ y < 8 then some (.tile (64 * die + 8 * x + y)) else none
    | 2 => if die < 4 ∧ x < 8 then some (.cluster (8 * die + x)) else none
    | 3 => if die < 4 then some (.matrixDie die) else none
    | 4 => if 6 ≤ die ∧ die < 22 ∧ y < 64 ∧ x = y / 16 then some (.engine (64 * (die - 6) + y)) else none
    | 5 => if 6 ≤ die ∧ die < 22 ∧ x < 4 then some (.group (4 * (die - 6) + x)) else none
    | 6 => if 6 ≤ die ∧ die < 22 then some (.stack (die - 6)) else none
    | 7 => if x < 64 then some (.slice x) else none
    | 8 => if x < 4 then some (.port x) else none
    | 9 => if x < 64 then some (.window x) else none
    | 10 => if x < 46 then some (.rail x) else none
    | 11 => if x < 16 then some (.pod x) else none
    | 12 => if x < 37 then some (.link x) else none
    | 13 => if 4 ≤ die ∧ die < 6 then some (.hub (die - 4)) else none
    | 14 => if 6 ≤ die ∧ die < 22 ∧ x < 12 then some (.dramDie (die - 6) x) else none
    | _ => none
  match u with
  | some v => if unitCode v = w then some v else none
  | none => none

/-! ### Functions, ports and hubs (R309, R339) -/

/-- The port of a function: PF p on port p, VF v on port v div 4. -/
def fnPort (fn : Nat) : Nat := if fn < 4 then fn else (fn - 4) / 4

/-- The hub of a function. -/
def fnHub (fn : Nat) : Nat := fnPort fn / 2

/-- A function is a PF. -/
def isPF (fn : Nat) : Bool := fn < 4

/-- Mailbox key. -/
def mbxKey (m : Mbx) : Nat := 4 * m.fn + m.m
def getMbx (s : State) (m : Mbx) : Mailbox := SMap.get {} s.mboxes (mbxKey m)
def setMbx (m : Mbx) (v : Mailbox) (s : State) : State := { s with mboxes := SMap.set {} s.mboxes (mbxKey m) v }

/-- A mailbox exists: one on each PF, four on each VF (R310). -/
def mbxExists (m : Mbx) : Bool := (m.fn < 4 && m.m = 0) || (4 ≤ m.fn && m.fn < 20 && m.m < 4)

/-- READY of the mailboxes of a hub (R334). -/
def ready (s : State) (h : Nat) : Bool := s.fw.stage = 8 && !hubFenced s h

/-- A function that is there: a PF, or a VF among those that its PF has enabled (R337, R341). -/
def fnThere (s : State) (fn : Nat) : Bool :=
  fn < 20 && (isPF fn || ((getFunc s (fnPort fn)).vfEnable && decide ((fn - 4) % 4 < (getFunc s (fnPort fn)).numVfs)))

/-- A function that is there and whose port is in service (R339, R371). -/
def fnAlive (s : State) (fn : Nat) : Bool := fnThere s fn && !portFenced s (fnPort fn)

/-- An AER Uncorrectable Error Status bit of a function is set (R337; the bits are PCIe's, PRESUMED: log entry 12): 12 Poisoned TLP
Received, 14 Completion Timeout, 15 Completer Abort, 20 Unsupported Request Error. -/
def noteAer (fn b : Nat) (s : State) : State :=
  let f := getFunc s fn
  setFunc fn { f with aer := if bit f.aer b then f.aer else f.aer + 2 ^ b } s

/-- The pod bound to a function's VF (R331, R342). -/
def boundPod (s : State) (fn : Nat) : Option Nat :=
  if fn < 4 then none
  else (List.range 16).find? (fun p => (getPod s p).vf = some (fn - 4))

/-- The pod that holds a core, and a slice (R262). -/
def podOfCore (s : State) (c : Nat) : Option Nat := (List.range 16).find? (fun p => (getPod s p).cores.contains c)
def podOfSlice (s : State) (k : Nat) : Option Nat := (List.range 16).find? (fun p => (getPod s p).slices.contains k)

/-! ### The device address map (R35, R36) -/

/-- Where a device address lies. -/
inductive Place where
  | stack (st off : Nat)
  | slice (k off : Nat)
  | tile (n off : Nat)
  | local_ (e off : Nat)
  | csr (off : Nat)
  | window (w off : Nat)
  | group (n off : Nat)
  | reserved
deriving DecidableEq, Repr

def addrSlice (k : Nat) : Nat := 0x010000000000 + (k / 32) * 0x100000000 + (k % 32) * 0x8000000
def addrTile (n : Nat) : Nat := 0x011000000000 + n * 0x4000000
def addrLocal (e : Nat) : Nat := 0x012000000000 + (e / 64) * 0x10000000 + (e % 64) * 0x400000
def addrStack (st off : Nat) : Nat := st * 0x1000000000 + off
def addrCsr : Nat := 0x013000000000
def addrWindow (w : Nat) : Nat := 0x400000000000 + w * 0x10000000000

/-- R38: the key of group-shared memory, outside the device address space (the model's own place for it). -/
def addrGroup (n : Nat) : Nat := 2 ^ 48 + n * 0x40000

/-- The place of an address. -/
def placeOf (a : Nat) : Place :=
  if a < 0x010000000000 then .stack (a / 0x1000000000) (a % 0x1000000000)
  else if a < 0x010200000000 then
    .slice ((a - 0x010000000000) / 0x8000000) ((a - 0x010000000000) % 0x8000000)
  else if 0x011000000000 ≤ a ∧ a < 0x011400000000 then
    .tile ((a - 0x011000000000) / 0x4000000) ((a - 0x011000000000) % 0x4000000)
  else if 0x012000000000 ≤ a ∧ a < 0x012100000000 then
    .local_ (64 * ((a - 0x012000000000) / 0x10000000) + (a - 0x012000000000) % 0x10000000 / 0x400000)
      ((a - 0x012000000000) % 0x400000)
  else if 0x013000000000 ≤ a ∧ a < 0x013010000000 then .csr (a - 0x013000000000)
  else if 0x400000000000 ≤ a ∧ a < 0x800000000000 then
    .window ((a - 0x400000000000) / 0x10000000000) ((a - 0x400000000000) % 0x10000000000)
  else if 2 ^ 48 ≤ a ∧ a < 2 ^ 48 + 64 * 0x40000 then .group ((a - 2 ^ 48) / 0x40000) ((a - 2 ^ 48) % 0x40000)
  else .reserved

/-- The unit that holds an address is fenced (R37). -/
def placeFenced (s : State) (pl : Place) : Bool :=
  match pl with
  | .stack st _ => stackFenced s st
  | .slice k _ => sliceFenced s k
  | .tile n _ => tileFenced s n
  | .local_ e _ => engineFenced s e
  | .window w _ => windowFenced s w
  | .group n _ => groupFenced s n
  | _ => false

/-- The unit of R325 that detects errors at an address. -/
def placeUnit (pl : Place) : UnitRef :=
  match pl with
  | .stack st _ => .stack st
  | .slice k _ => .slice k
  | .tile n _ => .tile n
  | .local_ e _ => .engine e
  | .group n _ => .group n
  | .window w _ => .window w
  | _ => .hub 0

/-- The entry of R363 that counts errors at an address: matrix die, hub or stack base die. -/
def placeEntry (pl : Place) : Nat :=
  match pl with
  | .stack st _ => 6 + st
  | .slice k _ => 4 + k / 32
  | .tile n _ => n / 64
  | .local_ e _ => 6 + e / 64
  | .group n _ => 6 + n / 4
  | _ => 4

end Sys2Proof.Machine
end

