-- ==== Sys2Proof/Machine/Events.lean ====
section
/-! DEFINITION. Events (R317, R318, R326), completions (R313, R315, R316) and the checks every command passes (R323, R477). -/

namespace Sys2Proof.Machine

open Sys2Proof

/-! ### Status codes (R324) -/

def stOK : Status := 0x0000
def stPENDING : Status := 0x0001
def stBAD_OPCODE : Status := 0x0010
def stBAD_ARG : Status := 0x0011
def stNOT_PERMITTED : Status := 0x0012
def stNOT_OWNER : Status := 0x0013
def stREFUSED_DEADLINE : Status := 0x0020
def stREFUSED_QUOTA : Status := 0x0021
def stNO_PAGES : Status := 0x0022
def stNO_CORES : Status := 0x0023
def stFENCED : Status := 0x0030
def stPARTIAL : Status := 0x0031
def stCANCELLED : Status := 0x0032
def stPOISONED : Status := 0x0033
def stLATE : Status := 0x0034
def stTEMP_WINDOW : Status := 0x0040
def stLOCKED : Status := 0x0041
def stLOST_LEAD : Status := 0x0042
def stPARTNER_GONE : Status := 0x0043
def stUNKNOWN_ID : Status := 0x0044

/-! ### Events -/

/-- Mark a vector of a function as having something to announce (R318). -/
def pendVec (fn v : Nat) (s : State) : State :=
  let f := getFunc s fn
  setFunc fn { f with msixPend := f.msixPend.set v true } s

/-- Unconsumed entries of a ring of 2^log slots (R313). -/
def ringUsed (log tail head : Nat) : Nat := (tail + 2 ^ log - head) % 2 ^ log

/-- The next index of a ring. -/
def ringNext (log i : Nat) : Nat := if i + 1 = 2 ^ log then 0 else i + 1

/-- The 32 bytes of an event entry (R318). -/
def eventEntry (code : Nat) (phase : Bool) (pod : Option Nat) (seq time d0 d1 : Nat) : BitVec 256 :=
  BitVec.ofNat 256 (code % 256 + at_ 8 (b2n phase) + at_ 9 (b2n pod.isSome) + at_ 12 (pod.getD 0) + at_ 16 (seq % 2 ^ 16)
    + at_ 32 (time % 2 ^ 64) + at_ 96 (d0 % 2 ^ 64) + at_ 160 (d1 % 2 ^ 64))

/-- Post one event to one function's ring: written, or lost (R318). -/
def postTo (fn code : Nat) (pod : Option Nat) (d0 d1 : Nat) (s : State) : State :=
  let f := getFunc s fn
  let g := { f with seq := (f.seq + 1) % 2 ^ 16 }
  if f.evEnable ∧ ringUsed f.evLog f.evTail f.evHead < 2 ^ f.evLog - 1 then
    let nt := ringNext f.evLog f.evTail
    let s := setFunc fn { g with evTail := nt, phase := if nt = 0 then !f.phase else f.phase } s
    pendVec fn 1 (emit (.event fn f.evTail (eventEntry code f.phase pod f.seq (now s) d0 d1)) s)
  else
    let s1 := setFunc fn { g with lost := satAdd 0xFFFF f.lost 1, lostFlag := true } s
    if f.lostFlag then s1 else pendVec fn 2 s1

/-- Post a device event: to the ring of every PF (R326). -/
def postDevice (code d0 d1 : Nat) (s : State) : State :=
  (List.range 4).foldl (fun s fn => postTo fn code none d0 d1 s) s

/-- Post a pod event: to the ring of the pod's bound VF and to the owner PF's ring (R326). -/
def postPod (p code d0 d1 : Nat) (s : State) : State :=
  let s := match (getPod s p).vf with
    | some v => postTo (4 + v) code (some p) d0 d1 s
    | none => s
  match s.owner with
  | some o => postTo o code (some p) d0 d1 s
  | none => s

/-! ### Completions -/

/-- The kinds of R315. -/
inductive CKind where
  | only | first | final
deriving DecidableEq, Repr

def ckindCode (k : CKind) : Nat :=
  match k with
  | .only => 0
  | .first => 1
  | .final => 2

/-- Command fields of an entry (R314). -/
def entOpcode (e : BitVec 512) : Nat := bits e.toNat 7 0
def entFlag (e : BitVec 512) : Bool := bit e.toNat 8
def entCmdId (e : BitVec 512) : Nat := bits e.toNat 31 16
def entPod (e : BitVec 512) : Nat := bits e.toNat 35 32
def entPodV (e : BitVec 512) : Bool := bit e.toNat 36
/-- Bits hi:lo of an entry. -/
def ent (e : BitVec 512) (hi lo : Nat) : Nat := bits e.toNat hi lo

/-- The command may post two completions (R319). -/
def twoSlots (e : BitVec 512) : Bool :=
  match entOpcode e with
  | 0x20 => ent e 65 64 = 0 && bit e.toNat 80
  | 0x40 => entFlag e
  | op => [0x11, 0x13, 0x21, 0x22, 0x30, 0x31, 0x42, 0x43, 0x44, 0x45, 0x50, 0x51, 0x62, 0x63, 0x64, 0x91].contains op

/-- Slots reserved at acknowledgement (R313). -/
def slotsOf (e : BitVec 512) : Nat := if twoSlots e then 2 else 1

/-- The 32 bytes of a completion entry (R315). -/
def completionEntry (st : Status) (tok : CmdTok) (phase : Bool) (kind : CKind) (sqHead v0 v1 : Nat) : BitVec 256 :=
  BitVec.ofNat 256 (st % 2 ^ 16 + at_ 16 tok.cmdId + at_ 32 tok.opcode + at_ 40 (b2n phase) + at_ 41 (ckindCode kind)
    + at_ 48 sqHead + at_ 64 (tok.tag % 2 ^ 32) + at_ 96 (v0 % 2 ^ 64) + at_ 160 (v1 % 2 ^ 64))

/-- The PASID that a mailbox's ring and result-buffer accesses carry (R311, R320). -/
def mbxPasid (m : Mailbox) : Option (BitVec 20) := if m.pasidV then some (BitVec.ofNat 20 m.pasid) else none

/-- Post one completion, releasing slots: written, or discarded where the mailbox was stopped since (R312, R313). The command ends
with ONLY and FINAL. -/
def postComp (tok : CmdTok) (kind : CKind) (release : Nat) (st : Status) (v0 v1 : Nat) (s : State) : State :=
  let m := getMbx s tok.mbx
  let ends := match kind with
    | .first => 0
    | _ => 1
  let out := if tok.epoch / 2 ^ 32 = m.epoch / 2 ^ 32 then m.outstanding - ends else m.outstanding
  if tok.epoch = m.epoch then
    let nt := ringNext m.cqLog m.cqTail
    let s := setMbx tok.mbx { m with
      outstanding := out, reserved := m.reserved - release, cqTail := nt,
      phase := if nt = 0 then !m.phase else m.phase } s
    pendVec tok.mbx.fn 0 (emit (.completion tok.mbx m.cqTail (completionEntry st tok m.phase kind m.sqHead v0 v1) (mbxPasid m)) s)
  else setMbx tok.mbx { m with outstanding := out, dropped := satAdd 0xFFFF m.dropped 1 } s

/-- FIRST with PENDING (R316). -/
def postFirst (tok : CmdTok) (v0 : Nat) (s : State) : State := postComp tok .first 1 stPENDING v0 0 s

/-- FINAL. -/
def postFinal (tok : CmdTok) (st : Status) (v0 v1 : Nat) (s : State) : State := postComp tok .final 1 st v0 v1 s

/-! ### Lifecycle (R436) -/

/-- 3 RETIRED, 2 DEBUG_OPEN, 1 OWNED, 0 MANUFACTURE. -/
def lifecycle (s : State) : Nat :=
  if s.sec.retireFuse then 3
  else if s.sec.debugOpen then 2
  else if s.sec.owners.isEmpty then 0
  else 1

/-! ### The checks of R323 -/

/-- Who may issue a command: the From column of R319. -/
inductive From where
  | any | own | mgmt | pod | podOrMgmt | ownOrPod
deriving DecidableEq, Repr

/-- The POD_V rule of a command in a management mailbox (R477). -/
inductive PodRule where
  | must | mustNot | either
deriving DecidableEq, Repr

/-- What the framework must know of a command. -/
structure Spec where
  op : Nat
  src : From
  podRule : PodRule
  /-- FLAG is one of the command's fields -/
  flag : Bool
  /-- argument fields, as (high, low) bit positions -/
  fields : List (Nat × Nat)
  /-- read command: not stopped by row 8 -/
  reads : Bool
deriving DecidableEq, Repr

/-- A bit of the entry belongs to a field. -/
def inFields (fields : List (Nat × Nat)) (k : Nat) : Bool := fields.any (fun f => f.2 ≤ k && k ≤ f.1)

/-- Reserved bits and FLAG are 0 where they must be (R15, R314). -/
def reservedOk (sp : Spec) (e : BitVec 512) : Bool :=
  let w := e.toNat
  let mask := (sp.fields.map (fun f => (2 ^ (f.1 + 1 - f.2) - 1) <<< f.2)).foldl (· ||| ·) 0
  bits w 15 9 = 0 && bits w 63 37 = 0 && (sp.flag || !entFlag e) && (w >>> 64) <<< 64 = (((w >>> 64) <<< 64) &&& mask)

/-- POD_V and POD keep R477 for the mailbox and the command. -/
def podOk (sp : Spec) (fn : Nat) (e : BitVec 512) : Bool :=
  let zero := !entPodV e && entPod e = 0
  if isPF fn then
    match sp.podRule with
    | .must => entPodV e
    | .mustNot => zero
    | .either => entPodV e || zero
  else zero

/-- The pod a command acts on: POD, or the pod that a VF's mailbox served at the acknowledgement, also where the VF has been
unbound since (R342, R477). -/
def cmdPod (sub : Submission) : Option Nat :=
  if isPF sub.mbx.fn then (if entPodV sub.entry then some (entPod sub.entry) else none) else sub.pod

/-- Commands that every mailbox but the owner's management mailbox finds NOT_OWNER, a pod mailbox too (R269; log entry 31). -/
def ownerOnly : List Nat := [0x20, 0x21, 0x52]

/-- Rows 2 to 5 of R323. -/
def checkFrom (sp : Spec) (sub : Submission) (s : State) : Option Status :=
  let fn := sub.mbx.fn
  let isOwner := decide (s.owner = some fn)
  if (lifecycle s = 3 && !(List.contains [0x01, 0x02, 0x04, 0x92] sp.op)) || s.sec.retiring || s.sec.unlock.isSome then some stLOCKED
  else if (getHub s (fnHub fn)).lead = .demoted && !(List.contains [0x01, 0x02, 0x04, 0x80] sp.op) then some stLOST_LEAD
  else
    let ownClass := sp.src = .own || sp.src = .ownOrPod
    if ownClass && !isOwner && (isPF fn || ownerOnly.contains sp.op) then some stNOT_OWNER
    else
      let allowed :=
        if isPF fn then
          match sp.src with
          | .any => true
          | .own => isOwner
          | .mgmt => true
          | .pod => isOwner
          | .podOrMgmt => true
          | .ownOrPod => isOwner
        else
          match sp.src with
          | .any => true
          | .own => false
          | .mgmt => false
          | .pod => true
          | .podOrMgmt => true
          | .ownOrPod => true
      if !allowed || (!isPF fn && sub.pod.isNone) then some stNOT_PERMITTED else none

/-- Row 8 of R323 for the pod acted on. -/
def podBlocked (s : State) (p : Option Nat) : Bool :=
  match p with
  | some p => (getPod s p).state = .destroying || (getPod s p).state = .fenced
  | none => false

/-- The pod named does not exist (row 7 of R323). -/
def podMissing (s : State) (p : Option Nat) : Bool :=
  match p with
  | some p => (getPod s p).state = .free
  | none => false

/-- Rows 2 to 8 of R323: `fieldsOk` says the fields keep their rules, `known` that every further named object exists;
`freePod` lets the command name a FREE pod. -/
def checkCmd (sp : Spec) (freePod : Bool) (sub : Submission) (fieldsOk known : Bool) (s : State) : Option Status :=
  match checkFrom sp sub s with
  | some st => some st
  | none =>
    let p := cmdPod sub
    if !podOk sp sub.mbx.fn sub.entry || !reservedOk sp sub.entry || !fieldsOk then some stBAD_ARG
    else if (!freePod && podMissing s p) || !known then some stUNKNOWN_ID
    else if !sp.reads && podBlocked s p then some stNOT_PERMITTED
    else none

/-! ### Taking a command -/

/-- The oldest acknowledged command of a mailbox (R261). -/
def firstAcked (s : State) (m : Mbx) : Option (Submission × Nat) := s.acked.find? (fun a => a.1.mbx = m)

/-- The command's identity (R314, R315). -/
def tokOf (sub : Submission) (epoch tag : Nat) : CmdTok :=
  { mbx := sub.mbx, cmdId := entCmdId sub.entry, opcode := entOpcode sub.entry, tag := tag, epoch := epoch }

/-- An entry not yet acknowledged waits in a mailbox under a doorbell write before `bell`. -/
def earlierBell (s : State) (m : Mbx) (bell : Nat) : Bool :=
  mbxExists m && (match (getMbx s m).bells.head? with
    | some b => b.2 < bell
    | none => false)

/-- A command must wait for another of its pod, from another mailbox on the same hub, that an earlier doorbell write covers:
one acknowledged already, or one that waits in a mailbox of the same VF (R261, R316; log entry 32). -/
def waitsTurn (s : State) (sub : Submission) : Bool :=
  match cmdPod sub with
  | none => false
  | some p =>
    s.acked.any (fun a => a.1.mbx ≠ sub.mbx && fnHub a.1.mbx.fn = fnHub sub.mbx.fn && cmdPod a.1 = some p && a.1.bell < sub.bell) ||
    (!isPF sub.mbx.fn && (List.range 4).any (fun m => m ≠ sub.mbx.m && earlierBell s ⟨sub.mbx.fn, m⟩ sub.bell))

/-- The oldest acknowledged command of a mailbox, once the order of its pod's commands lets it be decided. -/
def nextAcked (s : State) (m : Mbx) : Option (Submission × Nat) :=
  match firstAcked s m with
  | some a => if waitsTurn s a.1 then none else some a
  | none => none

/-- Carry out a command row: the submission must be the next acknowledged one of its mailbox and its opcode (and selector) that
of the row; otherwise nothing happens (log entry 3). -/
def runCmd (sp : Spec) (sel : BitVec 512 → Bool) (sub : Submission) (s : State) (body : CmdTok → State → State) : State :=
  match nextAcked s sub.mbx with
  | none => s
  | some a =>
    if a.1 = sub ∧ entOpcode sub.entry = sp.op ∧ sel sub.entry then
      let tag := if sp.op = 0x31 then ent sub.entry 351 320 else if sp.op = 0x44 then ent sub.entry 447 416 else 0
      body (tokOf sub a.2 tag) { s with acked := s.acked.erase a }
    else s

/-- Post an ONLY completion of a submission. -/
def only (sub : Submission) (tok : CmdTok) (st : Status) (v0 v1 : Nat) (s : State) : State :=
  postComp tok .only (slotsOf sub.entry) st v0 v1 s

/-- A command whose checks come first: the status of the first failing row, or the home's meaning. -/
def guarded (sp : Spec) (freePod : Bool) (sub : Submission) (tok : CmdTok) (fieldsOk known : Bool) (s : State)
    (home : State → State) : State :=
  match checkCmd sp freePod sub fieldsOk known s with
  | some st => only sub tok st 0 0 s
  | none => home s

end Sys2Proof.Machine
end

