-- ==== Sys2Proof/Machine/Records.lean ====
section
/-! DEFINITION. Record-store and fuse writes inside temperature windows, and the deferred queue (R432-R435). -/

namespace Sys2Proof.Machine

open Sys2Proof

/-- The die's maximum Tj in 0.125 °C, by the index of R363. -/
def dieTj (s : State) (die : Nat) : Int := (SMap.get {} s.thermal.dies die).tj

/-- Every die of a list lies inside a window given in °C, with a margin in °C (R432, R435). -/
def inWindow (s : State) (lo hi margin : Int) (dies : List Nat) : Bool :=
  dies.all (fun d => decide (8 * (lo + margin) ≤ dieTj s d) && decide (dieTj s d ≤ 8 * (hi - margin)))

/-- The record store of a hub. -/
def getStore (s : State) (h : Nat) : RecordStore := if h = 0 then s.fw.storeA else s.fw.storeB
def setStore (h : Nat) (v : RecordStore) (s : State) : State :=
  if h = 0 then { s with fw := { s.fw with storeA := v } } else { s with fw := { s.fw with storeB := v } }

/-- A state write rather than a log write (R434). -/
def isStateWrite (k : DeferKind) : Bool :=
  match k with
  | .log _ => false
  | _ => true

/-- Two writes of the same record or fuse word of the same hub (R434). -/
def sameRecord (a b : DeferKind) : Bool :=
  match a, b with
  | .marginPlan _ _, .marginPlan _ _ => true
  | .sparing x, .sparing y => x = y
  | .preferredBank _, .preferredBank _ => true
  | .failedBank x, .failedBank y => x = y
  | .rollback _, .rollback _ => true
  | .lifecycleWord x, .lifecycleWord y => x = y
  | .log x, .log y => x = y
  | _, _ => false

/-- The window of a deferred write: dies involved and bounds (R432). -/
def deferWindow (h : Nat) (k : DeferKind) : List Nat × Int × Int :=
  match k with
  | .rollback _ => ([4, 5], 20, 85)
  | .lifecycleWord _ => ([4, 5], 20, 85)
  | _ => ([4 + h], 0, 90)

/-- Carry out a record or fuse write. Fuse words of R439 are programmed by their own command; the counter of R443 is here. -/
def applyWrite (h : Nat) (k : DeferKind) (at_ : Nat) (s : State) : State :=
  let r := getStore s h
  match k with
  | .marginPlan ver floors => setStore h { r with planVer := ver, plan := floors } s
  | .sparing st =>
    let d := getDie s st
    setStore h { r with dieMaps := (st, d.slot, d.erase, d.state, d.retired) :: r.dieMaps.filter (fun m => m.1 ≠ st) } s
  | .preferredBank b => setStore h { r with preferred := some b } s
  | .failedBank b => setStore h { r with failed := if r.failed.contains b then r.failed else r.failed ++ [b] } s
  | .rollback v => if h = 0 then { s with sec := { s.sec with rollA := v } } else { s with sec := { s.sec with rollB := v } }
  | .lifecycleWord _ => s
  | .log n => setStore h { r with logs := r.logs ++ [(n, at_)] } s

/-- Put a write into the deferred queue (R434). -/
def deferWrite (d : Deferred) (s : State) : State :=
  let same (x : Deferred) : Bool := x.hub = d.hub && sameRecord x.kind d.kind
  let q := s.fw.defer
  if q.any same then
    { s with fw := { s.fw with defer := q.map (fun x => if same x then d else x) } }
  else
    let nState := countIf (fun x => isStateWrite x.kind) q
    let nLog := q.length - nState
    if isStateWrite d.kind then
      if q.length < 1024 then { s with fw := { s.fw with defer := q ++ [d] } }
      else
        match q.find? (fun x => !isStateWrite x.kind) with
        | some l => { s with fw := { s.fw with defer := q.erase l ++ [d], deferDropped := satAdd 0xFFFF s.fw.deferDropped 1 } }
        | none => { s with fw := { s.fw with defer := q ++ [d] } }
    else if nLog + (nState - 64) < 960 then { s with fw := { s.fw with defer := q ++ [d] } }
    else { s with fw := { s.fw with deferDropped := satAdd 0xFFFF s.fw.deferDropped 1 } }

/-- A write the part starts itself: now where every die involved lies inside its window, else deferred (R434). -/
def recordWrite (h : Nat) (k : DeferKind) (s : State) : State :=
  let w := deferWindow h k
  if inWindow s w.2.1 w.2.2 0 w.1 then applyWrite h k (now s) s
  else deferWrite { hub := h, kind := k, queuedAt := now s } s

/-- A record write to both hubs, or to the one in service (R434). -/
def recordBoth (k : DeferKind) (s : State) : State :=
  let s := if hubFenced s 0 then s else recordWrite 0 k s
  if hubFenced s 1 then s else recordWrite 1 k s

end Sys2Proof.Machine
end

