-- ==== Sys2Proof/Machine/Ecc.lean ====
section
/-! DEFINITION. Stack DRAM and SRAM codes (R356-R359), correction buckets (R360), die sparing (R367-R369), uncorrectable errors (R365). -/

namespace Sys2Proof.Machine

open Sys2Proof

/-! ### Memory cells -/

/-- An address lies in a range that a zeroing left, so that it reads 0 where nothing is listed (R451). -/
def zeroAt (z : List (Nat × Nat)) (a : Nat) : Bool := z.any (fun r => decide (r.1 ≤ a) && decide (a < r.2))

/-- Write one byte, keeping the canonical form: no entry equal to the 0 that an unlisted byte of a zeroed range reads as. -/
def putByte (z : List (Nat × Nat)) (m : List Host.Cell) (a : Nat) (b : Byte) : List Host.Cell :=
  if b = 0 ∧ zeroAt z a then SMap.del m a else SMap.put m a b

/-- Cut [a, e) out of the zeroed ranges. -/
def cutZero (a e : Nat) (z : List (Nat × Nat)) : List (Nat × Nat) :=
  (z.flatMap (fun r => [(r.1, min r.2 a), (max r.1 e, r.2)])).filter (fun r => decide (r.1 < r.2))

/-- R285: the bytes [a, e) hold no value any more. -/
def clearBytes (a e : Nat) (s : State) : State :=
  { s with mem := s.mem.filter (fun c => !(decide (a ≤ c.1) && decide (c.1 < e))), zeroed := if a < e then cutZero a e s.zeroed else s.zeroed }

/-- The form that memory keeps: addresses strictly rising, and no entry equal to what an unlisted address of a zeroed range reads as. -/
def Memory.wf (z : List (Nat × Nat)) (m : List Host.Cell) : Bool := SMap.rising m && m.all (fun c => !(decide (c.2 = 0) && zeroAt z c.1))

/-! ### GF(2^8) (R356) -/

/-- Multiplication by α = 0x02 modulo x^8 + x^4 + x^3 + x^2 + 1. -/
def gfDouble (a : BitVec 8) : BitVec 8 := if a.msb then (a <<< 1) ^^^ 0x1D#8 else a <<< 1

/-- Multiplication: n bits of b from bit 0. -/
def gfMulN (n : Nat) (a b : BitVec 8) : BitVec 8 :=
  match n with
  | 0 => 0
  | n + 1 => (if b.getLsbD 0 then a else 0) ^^^ gfMulN n (gfDouble a) (b >>> 1)

def gfMul (a b : BitVec 8) : BitVec 8 := gfMulN 8 a b

/-- Powers. -/
def gfPow (a : BitVec 8) (n : Nat) : BitVec 8 :=
  match n with
  | 0 => 1
  | n + 1 => gfMul a (gfPow a n)

/-- α^n, with exponents modulo 255. -/
def gfAlpha (n : Nat) : BitVec 8 := gfPow 2 (n % 255)

/-- The inverse of a nonzero element: its 254th power. -/
def gfInv (a : BitVec 8) : BitVec 8 := gfPow a 254

/-- Evaluation of a polynomial, lowest coefficient first. -/
def gfEval (p : List (BitVec 8)) (x : BitVec 8) : BitVec 8 := p.foldr (fun c r => c ^^^ gfMul x r) 0

/-- Product of polynomials. -/
def gfPolyMul (p q : List (BitVec 8)) : List (BitVec 8) :=
  match p with
  | [] => []
  | c :: r =>
    let t := (0 : BitVec 8) :: gfPolyMul r q
    let u := q.map (fun d => gfMul c d)
    let n := max t.length u.length
    (List.range n).map (fun i => nth 0 t i ^^^ nth 0 u i)

/-! ### Decoding the Reed–Solomon code (R356, R357) -/

/-- Symbols in error: position and exclusive-or. -/
abbrev Errs := List (Nat × BitVec 8)

/-- The 16 syndromes of an error pattern. -/
def syndromes (e : Errs) : List (BitVec 8) :=
  (List.range 16).map (fun j => e.foldl (fun r p => r ^^^ gfMul p.2 (gfAlpha (p.1 * j))) 0)

/-- The state of the Berlekamp–Massey iteration. -/
structure BM where
  c : List (BitVec 8)
  b : List (BitVec 8)
  l : Nat
  m : Nat
  d : BitVec 8
deriving DecidableEq, Repr

/-- One iteration on syndrome n. -/
def bmStep (syn : List (BitVec 8)) (st : BM) (n : Nat) : BM :=
  let delta := (List.range (st.l + 1)).foldl (fun r i => r ^^^ gfMul (nth 0 st.c i) (if i ≤ n then nth 0 syn (n - i) else 0)) 0
  if delta = 0 then { st with m := st.m + 1 }
  else
    let k := gfMul delta (gfInv st.d)
    let shifted := List.replicate st.m (0 : BitVec 8) ++ st.b.map (fun x => gfMul k x)
    let len := max st.c.length shifted.length
    let c' := (List.range len).map (fun i => nth 0 st.c i ^^^ nth 0 shifted i)
    if 2 * st.l ≤ n then { c := c', b := st.c, l := n + 1 - st.l, m := 1, d := delta }
    else { st with c := c', m := st.m + 1 }

/-- The error locator of a syndrome list and its length. -/
def bmLocator (syn : List (BitVec 8)) : BM :=
  (List.range syn.length).foldl (bmStep syn) { c := [1], b := [1], l := 0, m := 1, d := 1 }

/-- The positions 0-79 whose inverse locators are roots. -/
def locate (c : List (BitVec 8)) : List Nat :=
  (List.range 80).filter (fun i => gfEval c (gfAlpha (255 - i)) = 0)

/-- Error values at the roots of a locator by Forney's formula, first root α^0. -/
def forney (psi syn : List (BitVec 8)) (pos : List Nat) : Errs :=
  let omega := (gfPolyMul syn psi).take 16
  let deriv := (List.range psi.length).map (fun i => if i % 2 = 0 then nth 0 psi (i + 1) else 0)
  pos.map (fun i =>
    let x := gfAlpha i
    let xi := gfAlpha (255 - i)
    (i, gfMul x (gfMul (gfEval omega xi) (gfInv (gfEval deriv xi)))))

/-- Drop symbols with no error. -/
def nonzero (e : Errs) : Errs := e.filter (fun p => p.2 ≠ 0)

/-- Bounded-distance decoding (R357 rows 3 and 4): the symbols the decoder changes, none where it finds no codeword. -/
def rsDecode (e : Errs) (erased : Option Nat) : Option Errs :=
  let syn := syndromes e
  let gammaPos := match erased with
    | some k => (List.range 8).map (fun i => 8 * k + i)
    | none => []
  let gamma := gammaPos.foldl (fun g i => gfPolyMul g [1, gfAlpha i]) [1]
  let modified := ((gfPolyMul syn gamma).take 16).drop gammaPos.length
  let bm := bmLocator modified
  let limit := if erased.isSome then 4 else 8
  let pos := locate bm.c
  if bm.l ≤ limit ∧ pos.length = bm.l ∧ pos.all (fun i => !gammaPos.contains i) then
    let fix := nonzero (forney (gfPolyMul bm.c gamma) syn (pos ++ gammaPos))
    if syndromes fix = syn then some fix else none
  else none

/-- The outcome of a read of a codeword (R357). -/
inductive DramOut where
  | clean
  | poisoned
  | corrected (fix : Errs)
  | uncorrectable
deriving DecidableEq, Repr

/-- The poison pattern as an error on the codeword of zero data (R358). -/
def poisonErrs : Errs := (List.range 16).map (fun i => (i, 0xA5#8))

/-- Exclusive-or of error patterns, positions ascending. -/
def errXor (a b : Errs) : Errs :=
  nonzero ((List.range 80).map (fun i =>
    (i, (SMap.get 0 a i) ^^^ (SMap.get 0 b i))))

/-- The stored error pattern of a granule: poison is a pattern too. -/
def storedErrs (s : State) (g : Nat) : Errs :=
  let e := SMap.get [] s.dramErr g
  if SMap.get false s.poison g then (if e.isEmpty then poisonErrs else errXor poisonErrs e) else e

/-- The erased slot of a stack, if any (R368, R369). -/
def erasedSlot (s : State) (st : Nat) : Option Nat :=
  let k := (getDie s st).erase
  if k < 10 then some k else none

/-- Decode an error pattern: the first row of R357 that applies. -/
def dramDecode (e : Errs) (erased : Option Nat) : DramOut :=
  if e.isEmpty then .clean
  else if e = poisonErrs then .poisoned
  else
    let syn := syndromes e
    if syn.all (fun x => x = 0) then .clean
    else if syn = syndromes poisonErrs then .poisoned
    else match rsDecode e erased with
      | some fix => .corrected fix
      | none => .uncorrectable

/-! ### Correction buckets (R360) -/

/-- Count corrections in a bucket: n in one cycle add together; past CAP it overflows once. -/
def countCorr (entry n : Nat) (u : UnitRef) (s : State) : State :=
  if n = 0 then s
  else
    let l := SMap.get {} s.ecc entry
    let raw := satAdd 0xFFFFFFFF l.ceRaw n
    if l.bucket + n > s.eccCfg.2.1 then
      let l := { l with ceRaw := raw, bucket := 0, ovf := satAdd 0xFFFF l.ovf 1, ovf24 := l.ovf24 ++ [now s] }
      postDevice 0x01 (unitCode u) raw { s with ecc := SMap.set {} s.ecc entry l }
    else { s with ecc := SMap.set {} s.ecc entry { l with ceRaw := raw, bucket := l.bucket + n } }

/-- Count an uncorrectable read of a unit's entry (R362). -/
def countUE (entry : Nat) (s : State) : State :=
  { s with ecc := SMap.mod {} s.ecc entry (fun l => { l with ue := satAdd 0xFFFF l.ue 1 }) }

/-- Entry of DRAM core die k of stack st (R363). -/
def dieEntry (st k : Nat) : Nat := 22 + 12 * st + k

/-- The unit of a counting entry that is not a DRAM die: matrix die, hub or stack base die. -/
def entryUnit (entry : Nat) : UnitRef :=
  if entry < 4 then .matrixDie entry
  else if entry < 6 then .hub (entry - 4)
  else if entry < 22 then .stack (entry - 6)
  else .dramDie ((entry - 22) / 12) ((entry - 22) % 12)

/-! ### Die sparing (R367, R368) -/

/-- Index of a die among the slots. -/
def slotOfDie (d : DieMap) (die : Nat) : Option Nat := (List.range 10).find? (fun k => nth 15 d.slot k = die)

/-- The die holds a live slot: one not erased, and the die neither retired nor queued. -/
def dieLive (d : DieMap) (die : Nat) : Bool :=
  match slotOfDie d die with
  | none => false
  | some k => d.erase ≠ k && !d.retired.contains die && d.queued ≠ die

/-- A die retires: the edge of R368 from the stack's sparing state. In ERASURE the stack's fence follows (FENCE_DECIDED). -/
def retireDie (st die : Nat) (s : State) : State :=
  let d := getDie s st
  match slotOfDie d die with
  | none => s
  | some k =>
    let used (left : Nat) (s : State) : State := postDevice 0x0C (unitCode (.dramDie st die)) left s
    match d.state with
    | 0 => recordBoth (.sparing st) (used 1
        (setDie st { d with slot := setAt d.slot k 10, erase := k, state := 1, retired := d.retired ++ [die], pos := 0 } s))
    | 2 => recordBoth (.sparing st) (used 0
        (setDie st { d with slot := setAt d.slot k 11, erase := k, state := 3, retired := d.retired ++ [die], pos := 0 } s))
    | 4 => recordBoth (.sparing st) (used 0
        (setDie st { d with erase := k, state := 5, retired := d.retired ++ [die] } s))
    | 5 => setDie st { d with retired := d.retired ++ [die] } s
    | _ => if d.queued = 15 then setDie st { d with queued := die } s else s

/-- A live die retires; any other stays. -/
def retireIfLive (st die : Nat) (s : State) : State :=
  if dieLive (getDie s st) die then retireDie st die s else s

/-- The rebuild ends: the erasure goes, and a queued die takes its edge (R368). -/
def rebuildDone (st : Nat) (s : State) : State :=
  let d := getDie s st
  let d1 := { d with erase := 15, state := if d.state = 1 then 2 else 4, pos := 0, queued := 15 }
  let s1 := recordBoth (.sparing st) (setDie st d1 s)
  if d.queued = 15 then s1 else retireDie st d.queued s1

/-- The slots of a codeword whose dies the decoder blames, with the symbols changed in each, outside the erased slot (R357). -/
def blamed (fix : Errs) (erased : Option Nat) : List (Nat × Nat) :=
  (List.range 10).filterMap (fun k =>
    let n := countIf (fun p => p.1 / 8 = k) fix
    if n = 0 || erased = some k then none else some (k, n))

/-- Count one slot's corrected symbols, a die-kill signature included, and retire the die where R367 says. -/
def countSlot (st : Nat) (b : Nat × Nat) (s : State) : State :=
  let die := nth 15 (getDie s st).slot b.1
  let entry := dieEntry st die
  let s := countCorr entry b.2 (.dramDie st die) s
  let kill := decide (5 ≤ b.2)
  let s := if kill then { s with ecc := SMap.mod {} s.ecc entry (fun l => { l with kill := satAdd 0xFFFF l.kill 1 }) } else s
  if kill || s.eccCfg.2.2.2 ≤ (SMap.get {} s.ecc entry).ovf24.length then retireIfLive st die s else s

/-- Count a corrected codeword. -/
def countFix (st : Nat) (fix : Errs) (erased : Option Nat) (s : State) : State :=
  (blamed fix erased).foldl (fun s b => countSlot st b s) s

/-! ### Uncorrectable errors and poison (R358, R365) -/

/-- The pods that own an address: by region, slice, cluster or bank group (R365). -/
def ownersOf (s : State) (a : Nat) : List Nat :=
  match placeOf a with
  | .stack st off => dedup (((mapped s).filter (fun r => r.2.stks.contains st && r.2.off ≤ off && off < r.2.off + r.2.span)).map (fun r => r.2.pod))
  | .slice k _ => (podOfSlice s k).toList
  | .tile n _ => (podOfCore s (n / 8)).toList
  | .local_ e _ => (podOfCore s (32 + e / 16)).toList
  | .group n _ => (podOfCore s (32 + n)).toList
  | _ => []

/-- Store a granule as poisoned (R358): data bytes 0, errors gone. -/
def storePoison (g : Nat) (s : State) : State :=
  let zero := (List.range 64).foldl (fun m i => putByte s.zeroed m (64 * g + i) (0 : Byte)) s.mem
  { s with mem := zero, poison := SMap.put s.poison g true, dramErr := SMap.del s.dramErr g,
           sramErr := (List.range 8).foldl (fun m i => SMap.del m (8 * g + i)) s.sramErr }

/-- Step 3 of R365: UE to the device and to each pod that owns the granule. -/
def postUE (g : Nat) (u : UnitRef) (s : State) : State :=
  let s := postDevice 0x02 (64 * g) (unitCode u) s
  (ownersOf s (64 * g)).foldl (fun s p => postPod p 0x02 (64 * g) (unitCode u) s) s

/-- An uncorrectable read: the three steps of R365, and the UE count of the detecting die. -/
def uncorrectable (g : Nat) (s : State) : State :=
  let pl := placeOf (64 * g)
  postUE g (placeUnit pl) (countUE (placeEntry pl) (storePoison g s))

/-! ### SRAM words (R359) -/

/-- The exclusive-or of the check-matrix columns of the bits in error. -/
def sramSyndrome (e : BitVec 72) : BitVec 8 :=
  (List.range 72).foldl (fun r i => if e.getLsbD i then r ^^^ Config.sramColumn i else r) 0

/-- The outcome of a read of an SRAM word: none where uncorrectable; the bits the reader flips otherwise. -/
inductive SramOut where
  | clean
  | poisoned
  | corrected (bit : Nat)
  | uncorrectable
deriving DecidableEq, Repr

/-- Bits in error. -/
def sramWeight (e : BitVec 72) : Nat := countIf (fun i => e.getLsbD i) (List.range 72)

/-- Decode a word's bits in error, on top of the poison pattern where the granule is poisoned (R358, R359). -/
def sramDecode (poisoned : Bool) (e : BitVec 72) : SramOut :=
  let syn := (if poisoned then 0xFF#8 else 0) ^^^ sramSyndrome e
  let byMatrix : SramOut :=
    if syn = 0 then .clean
    else if syn = 0xFF#8 then .poisoned
    else match (List.range 72).find? (fun i => Config.sramColumn i = syn) with
      | some i => .corrected i
      | none => .uncorrectable
  if e = 0 then (if poisoned then .poisoned else .clean)
  else if poisoned then byMatrix
  else match sramWeight e with
    | 1 => .corrected (((List.range 72).find? (fun i => e.getLsbD i)).getD 0)
    | 2 => if syn = 0xFF#8 then .poisoned else .uncorrectable
    | _ => byMatrix

end Sys2Proof.Machine
end

