-- ==== Sys2Proof/Machine/Memory.lean ====
section
/-! DEFINITION. Reads and writes of granules (R289-R292), the structures the firmware keeps in last-level memory as a reader sees
them (R181, R203, R226, R376), reach (R37, R270), mirrors (R279) and landing counters (R306). -/

namespace Sys2Proof.Machine

open Sys2Proof

/-! ### Structures the part writes -/

/-- Code of a node state (R377). -/
def nstateCode (st : NState) : Nat :=
  match st with
  | .notStarted => 0
  | .running => 1
  | .done => 2
  | .part => 3
  | .cancelled => 4
  | .poisoned => 5
  | .faulted => 6

/-- The 32 bytes of a journal record (R377). -/
def journalWord (r : JRec) : Nat :=
  r.inst % 2 ^ 32 + at_ 32 (r.node % 4096) + at_ 44 (nstateCode r.st) + at_ 48 r.pmask + at_ 56 r.cause
    + at_ 64 (nth 0 r.hwm 0 % 2 ^ 32) + at_ 96 (nth 0 r.hwm 1 % 2 ^ 32) + at_ 128 (nth 0 r.hwm 2 % 2 ^ 32)
    + at_ 160 (nth 0 r.hwm 3 % 2 ^ 32) + at_ 192 (r.time % 2 ^ 64)

/-- A record of a pod's journal ring: zeros where none was written. -/
def journalAt (s : State) (p pos : Nat) : Nat :=
  match SMap.get none (getPod s p).journal (pos % 65536) with
  | some r => journalWord r
  | none => 0

/-- Code of a page-table entry state (R182). -/
def pstateCode (st : PState) : Nat :=
  match st with
  | .resident => 0
  | .shared => 1
  | .parked => 2
  | .lost => 3

/-- The 16 bytes of a page-table entry (R182). -/
def pteWord (e : Pte) : Nat :=
  e.first + at_ 24 e.sizeExp + at_ 28 (pstateCode e.st) + at_ 32 e.frame + at_ 64 e.rc + at_ 88 e.park

/-- Code of a stream state (R204). -/
def sstateCode (st : StrState) : Nat :=
  match st with
  | .free => 0
  | .open_ => 1
  | .resident => 2
  | .parked => 3
  | .closing => 4

/-- The 256 bytes of a stream entry (R204). -/
def streamWord (e : Stream) : Nat :=
  e.pod + at_ 4 (sstateCode e.state) + at_ 7 (b2n e.inbound) + at_ 8 e.pool + at_ 10 e.pageExp + at_ 14 e.dclass
    + at_ 18 (b2n e.busy) + at_ 19 (b2n e.adapter.isSome) + at_ 32 (e.adapter.getD 0) + at_ 48 e.gen + at_ 64 e.wp
    + at_ 96 e.ptAddr + at_ 144 e.ptCap + at_ 160 e.pt.length + at_ 176 e.tail + at_ 192 e.pfx + at_ 224 e.stepInst
    + at_ 256 e.cause + at_ 320 e.maxpos + at_ 384 e.tokens + at_ 448 e.steps + at_ 480 e.late + at_ 512 e.dropped
    + at_ 544 e.copies + at_ 576 e.opened

/-- Device address of byte o of a pod's KV control area: its slices in ascending order (log entry 20). -/
def kvcAddr (v : Pod) (o : Nat) : Nat := addrSlice (nth 0 v.kvcSlices (o / 0x8000000)) + o % 0x8000000

/-- The KV control area begins with the token records, 256 bytes each, then the prefix nodes, 128 bytes each (R226; log entry 20). -/
def pfxNodeAddr (s : State) (p n : Nat) : Nat := kvcAddr (getPod s p) (256 * (getPod s p).nodes + 128 * n)
def pfxTokenAddr (s : State) (p n : Nat) : Nat := kvcAddr (getPod s p) (256 * n)

/-- Bytes of a pod's KV control area. -/
def kvcLen (v : Pod) : Nat := 0x8000000 * v.kvcSlices.length

/-- One past the highest reference-count index in use; 0 where none is. -/
def rcTop (v : Pod) : Nat := match v.rc with
  | [] => 0
  | l => maxNat (l.map (fun q => q.1)) + 1

/-- Offset of count i in the KV control area: the reference-count table ends the area, and index i lies 4 × (i + 1) bytes below the end
(R195; log entry 20). -/
def rcOffset (v : Pod) (i : Nat) : Nat := kvcLen v - 4 * (i + 1)

/-- The 128 bytes of a prefix node (R226). -/
def pfxWord (s : State) (p n : Nat) : Nat :=
  let d := SMap.get {} (getPod s p).pfx n
  d.fp.toNat + at_ 64 d.parent + at_ 96 d.child + at_ 128 d.sibling + at_ 160 d.depth + at_ 179 d.state + at_ 181 d.pool
    + at_ 192 (if d.state = 0 then 0 else pfxTokenAddr s p n)
    + at_ 256 (if d.state = 0 || n = 0 then 0 else pteWord
        { first := d.first, sizeExp := d.sizeExp, st := .shared, frame := d.frame, rc := d.rc, park := 0 })

/-- Byte k of a little-endian structure. -/
def byteOf (w k : Nat) : Byte := BitVec.ofNat 8 (w >>> (8 * k))

/-- Offset of the stream table in slices 31 and 63 (R203; log entry 20). -/
def stabOffset : Nat := 0x2000000

/-- The byte that the firmware's structures put at an offset of a slice, if they do. -/
def overlay (s : State) (k off : Nat) : Option Byte :=
  if k = 31 ∨ k = 63 then
    if off < 0x2000000 then
      let p := off / 0x200000
      some (byteOf (journalAt s p (off % 0x200000 / 32)) (off % 32))
    else if off < stabOffset + 0x1000000 then
      some (byteOf (streamWord (getStream s ((off - stabOffset) / 256))) (off % 256))
    else none
  else
    match (List.range 16).find? (fun p => (getPod s p).kvcSlices.contains k) with
    | none => none
    | some p =>
      let a := addrSlice k + off
      let v := getPod s p
      let o := 0x8000000 * ((v.kvcSlices.findIdx? (fun x => x = k)).getD 0) + off
      if o < 256 * v.nodes then some (byteOf (nth 0 (SMap.get {} v.pfx (o / 256)).tokens (o % 256 / 4)) (o % 4))
      else if o < 384 * v.nodes then some (byteOf (pfxWord s p ((o - 256 * v.nodes) / 128)) ((o - 256 * v.nodes) % 128))
      else if kvcLen v - 4 * rcTop v ≤ o then some (byteOf (SMap.get 0 v.rc ((kvcLen v - 1 - o) / 4)) (o % 4))
      else
        match s.streams.find? (fun e => e.2.pod = p && e.2.state ≠ .free && e.2.ptAddr ≤ a && a < e.2.ptAddr + 16 * e.2.pt.length) with
        | some (_, e) => (e.pt[(a - e.ptAddr) / 16]?).map (fun t => byteOf (pteWord t) ((a - e.ptAddr) % 16))
        | none => none

/-- The byte of memory at an address as last written: 0 where a zeroing was the last write (R451), free where nothing has been written
(R285; log entry 4). -/
def rawByte (s : State) (a : Nat) : Byte := (SMap.find s.mem a).getD (if zeroAt s.zeroed a then 0 else Config.unwritten a)

/-- The byte a reader finds at an address. -/
def memByte (s : State) (a : Nat) : Byte :=
  match placeOf a with
  | .slice k off => (overlay s k off).getD (rawByte s a)
  | _ => rawByte s a

/-! ### Reads of a granule (R289, R357, R359) -/

/-- The data bytes with symbol errors left by the decoder. -/
def applyErrs (e : Errs) (bs : List Byte) : List Byte :=
  if e.isEmpty then bs
  else (List.range 64).map (fun j => nth 0 bs j ^^^ SMap.get 0 e (16 + j))

/-- The 64 stored data bytes of a granule, without errors. -/
def granuleBytes (s : State) (g : Nat) : List Byte := (List.range 64).map (fun j => memByte s (64 * g + j))

/-- A read of a stack DRAM granule: bytes, poison, and what the decode does (R357, R365). -/
def fetchDram (st g : Nat) (s : State) : (List Byte × Bool) × State :=
  let e := storedErrs s g
  let er := erasedSlot s st
  match dramDecode e er with
  | .clean => ((applyErrs (SMap.get [] s.dramErr g) (granuleBytes s g), false), s)
  | .poisoned => ((granuleBytes s g, true), s)
  | .corrected fix => ((applyErrs (errXor e fix) (granuleBytes s g), false), countFix st fix er s)
  | .uncorrectable => ((granuleBytes s g, true), uncorrectable g s)

/-- A word of SRAM read: the bits flipped in the returned data, poison, and whether it is uncorrectable; one correction counted. -/
def fetchWord (w : Nat) (r : List (BitVec 64) × Bool × Bool × State) : List (BitVec 64) × Bool × Bool × State :=
  let (fl, po, ue, s) := r
  let e := SMap.get 0 s.sramErr w
  let stored : BitVec 64 := e.extractLsb' 0 64
  match sramDecode (SMap.get false s.poison (w / 8)) e with
  | .clean => (fl ++ [stored], po, ue, s)
  | .poisoned => (fl ++ [stored], true, ue, s)
  | .corrected b =>
    let pl := placeOf (8 * w)
    (fl ++ [stored ^^^ (if b < 64 then 1#64 <<< b else 0)], po, ue, countCorr (placeEntry pl) 1 (entryUnit (placeEntry pl)) s)
  | .uncorrectable => (fl ++ [stored], po, true, s)

/-- A read of an SRAM granule (R359, R365). -/
def fetchSram (g : Nat) (s : State) : (List Byte × Bool) × State :=
  let (fl, po, ue, s1) := (List.range 8).foldl (fun r i => fetchWord (8 * g + i) r) ([], false, false, s)
  if ue then ((granuleBytes s g, true), uncorrectable g s1)
  else (((List.range 64).map (fun j => memByte s (64 * g + j) ^^^ (nth 0 fl (j / 8)).extractLsb' (8 * (j % 8)) 8), po), s1)

/-- A read of a granule by a unit or host: its 64 bytes, whether they are poisoned, and the state with what the decode counted. -/
def fetchGranule (g : Nat) (s : State) : (List Byte × Bool) × State :=
  match placeOf (64 * g) with
  | .stack st _ =>
    if SMap.find s.dramErr g = none && SMap.find s.poison g = none then ((granuleBytes s g, false), s) else fetchDram st g s
  | _ =>
    if (List.range 8).all (fun i => SMap.find s.sramErr (8 * g + i) = none) && SMap.find s.poison g = none then
      ((granuleBytes s g, false), s)
    else fetchSram g s

/-- Read n granules from granule g on: bytes each with its granule's poison. -/
def fetchGranules (n g : Nat) (s : State) : List (Byte × Bool) × State :=
  match n with
  | 0 => ([], s)
  | n + 1 =>
    let ((bs, po), s1) := fetchGranule g s
    let (r, s2) := fetchGranules n (g + 1) s1
    (bs.map (fun b => (b, po)) ++ r, s2)

/-- Read len bytes from an address, each byte with its granule's poison. -/
def fetchBytes (a len : Nat) (s : State) : List (Byte × Bool) × State :=
  if len = 0 then ([], s)
  else
    let g := a / 64
    let n := (a + len - 1) / 64 + 1 - g
    let (r, s1) := fetchGranules n g s
    ((r.drop (a % 64)).take len, s1)

/-! ### Writes that land (R289-R292) -/

/-- Count masked bytes at an armed landing counter (R307). -/
def landCount (g n : Nat) (s : State) : State :=
  { s with land := s.land.map (fun c =>
      if c.2.armed ∧ c.2.base ≤ 64 * g ∧ 64 * g < c.2.base + c.2.len
      then (c.1, { c.2 with count := satAdd (2 ^ 64 - 1) c.2.count n }) else c) }

/-- Bytes selected by a mask. -/
def maskCount (mask : BitVec 64) : Nat := countIf (fun i => mask.getLsbD i) (List.range 64)

/-- Put the masked bytes of a granule into memory. -/
def putBytes (z : List (Nat × Nat)) (g : Nat) (mask : BitVec 64) (data : List Byte) (m : List Host.Cell) : List Host.Cell :=
  (List.range 64).foldl (fun m i => if mask.getLsbD i then putByte z m (64 * g + i) (nth 0 data i) else m) m

/-- A write lands at a granule (R289, R292). A full write clears poison and errors; a masked one leaves a poisoned granule as it
is (R365) and clears the errors of the words it fills. -/
def landGranule (g : Nat) (mask : BitVec 64) (data : List Byte) (s : State) : State :=
  let full := mask = BitVec.allOnes 64
  let s1 :=
    if full then
      { s with mem := putBytes s.zeroed g mask data s.mem, poison := SMap.del s.poison g, dramErr := SMap.del s.dramErr g,
               sramErr := (List.range 8).foldl (fun m i => SMap.del m (8 * g + i)) s.sramErr }
    else if SMap.get false s.poison g then s
    else
      { s with mem := putBytes s.zeroed g mask data s.mem,
               sramErr := (List.range 8).foldl (fun m i =>
                 if mask.extractLsb' (8 * i) 8 = 0xFF#8 then SMap.del m (8 * g + i) else m) s.sramErr }
  landCount g (maskCount mask) s1

/-- A poisoned write lands: the whole granule is stored as poisoned (R366). -/
def landPoison (g : Nat) (mask : BitVec 64) (s : State) : State := landCount g (maskCount mask) (storePoison g s)

/-- The mask of n bytes from byte k. -/
def maskFrom (k n : Nat) : BitVec 64 := BitVec.ofNat 64 ((2 ^ n - 1) <<< k)

/-- A write of bytes from an address, granule by granule (R291), each poisoned where a byte of it is, by fuel. -/
def landFrom (fuel a : Nat) (bs : List (Byte × Bool)) (s : State) : State :=
  match fuel with
  | 0 => s
  | f + 1 =>
    match bs with
    | [] => s
    | _ =>
      let k := a % 64
      let part := bs.take (64 - k)
      let mask := maskFrom k part.length
      let g := a / 64
      let s1 :=
        if part.any (fun b => b.2) then landPoison g mask s
        else landGranule g mask (List.replicate k 0 ++ part.map (fun b => b.1)) s
      landFrom f (a + part.length) (bs.drop (64 - k)) s1

def landPoisonable (a : Nat) (bs : List (Byte × Bool)) (s : State) : State := landFrom (bs.length / 64 + 2) a bs s

/-- A byte by address with its poison. -/
abbrev Cell := Nat × Byte × Bool

/-- The byte that a list of bytes puts at an address: the last one listed. -/
def cellAt (l : List Cell) (a : Nat) : Byte := match (l.filter (fun c => c.1 = a)).getLast? with
  | some c => c.2.1
  | none => 0

/-- The bytes of one granule land as one write, poisoned where one of them is (R291, R366). -/
def landCellsAt (g : Nat) (l : List Cell) (s : State) : State :=
  let mask := BitVec.ofNat 64 (maskOf (l.map (fun c => c.1 % 64)))
  if l.any (fun c => c.2.2) then landPoison g mask s
  else landGranule g mask ((List.range 64).map (fun i => cellAt l (64 * g + i))) s

/-- Bytes land granule by granule, in the order in which the granules first appear. -/
def landCells (l : List Cell) (s : State) : State :=
  (dedup (l.map (fun c => c.1 / 64))).foldl (fun s g => landCellsAt g (l.filter (fun c => c.1 / 64 = g)) s) s

/-- Bytes from an address, all with one poison. -/
def cellsOf (a : Nat) (bs : List Byte) (po : Bool) : List Cell := (bs.zipIdx).map (fun q => (a + q.2, q.1, po))

/-- A write of clean bytes. -/
def landBytes (a : Nat) (bs : List Byte) (s : State) : State := landPoisonable a (bs.map (fun b => (b, false))) s

/-- R285: bytes from an address on hold no value any more; poison there goes with them. -/
def forget (a len : Nat) (s : State) : State :=
  let s := clearBytes a (a + len) s
  { s with poison := s.poison.filter (fun q => !(decide (a ≤ 64 * q.1) && decide (64 * q.1 < a + len))) }

/-! ### Reach (R37, R270) -/

/-- Why an access is refused. -/
inductive Deny where
  | badAddress
  | fenced
deriving DecidableEq, Repr

/-- Region r covers offset off of stack st: from the completion of its map to the start of its unmap (R269, R271). -/
def covers (r : Region) (st off : Nat) : Bool := r.ready && r.stks.contains st && r.off ≤ off && off < r.off + r.span

/-- The check made for pod p at every access to a granule (R270); none when it is allowed. -/
def podAccess (s : State) (p a : Nat) (write : Bool) : Option Deny :=
  match placeOf a with
  | .stack st off =>
    let rs := (mapped s).filter (fun r => r.2.pod = p && covers r.2 st off)
    if rs.isEmpty then some .badAddress
    else if stackFenced s st then some .fenced
    else if rs.any (fun r => !r.2.lost) then none
    else some .badAddress
  | .slice k _ =>
    if !(getPod s p).slices.contains k then some .badAddress else if sliceFenced s k then some .fenced else none
  | .tile n _ =>
    if !(getPod s p).cores.contains (n / 8) then some .badAddress else if tileFenced s n then some .fenced else none
  | .local_ e _ =>
    if !(getPod s p).cores.contains (32 + e / 16) then some .badAddress else if engineFenced s e then some .fenced else none
  | .window w off =>
    let v := getWindow s w
    if v.access = 0 || v.pod ≠ p || v.len ≤ off || (write && v.access ≠ 2) then some .badAddress
    else if windowFenced s w then some .fenced
    else none
  | _ => some .badAddress

/-- Every granule of a range is allowed. -/
def podReaches (s : State) (p a len : Nat) (write : Bool) : Bool :=
  len ≠ 0 && (List.range ((a + len - 1) / 64 + 1 - a / 64)).all (fun i => (podAccess s p (64 * (a / 64 + i)) write).isNone)

/-- The range lies whole in one region of the pod, one slice, one scratchpad or one local memory of it, by its two ends. -/
def podReachesEnds (s : State) (p a len : Nat) (write : Bool) : Bool :=
  len ≠ 0 && (podAccess s p a write).isNone && (podAccess s p (a + len - 1) write).isNone

/-! ### The linear view of a region (R267) -/

/-- Bytes of a region's linear view. -/
def linearLen (r : Region) : Nat := r.stks.length * r.span

/-- Device address of linear byte i of a region. -/
def linearAddr (r : Region) (i : Nat) : Nat :=
  let g := i / 4096
  match r.mode with
  | 0 => addrStack (nth 0 r.stks 0) (r.off + i)
  | 1 => addrStack (nth 0 r.stks (g % 4)) (r.off + 4096 * (g / 4) + i % 4096)
  | 2 => addrStack (nth 0 r.stks (g % 16)) (r.off + 4096 * (g / 16) + i % 4096)
  | _ => addrStack (nth 0 r.stks (i / max 1 r.span)) (r.off + i % max 1 r.span)

/-! ### Mirrors and ACQUIRE (R279, R302) -/

/-- An active ACQUIRE of the pod covers the address. -/
def acquired (s : State) (p a : Nat) : Bool :=
  (getPod s p).acquires.any (fun q => q.addr ≤ a && a < q.addr + q.len)

/-- The mirror that redirects a read of the pod, if any; one that its slice's fence has removed sends reads to that slice still, where
they fault, until the slice returns or the mirror is unmapped (R279, R281; log entry 69). -/
def mirrorOf (s : State) (p a : Nat) : Option Mirror :=
  let l := ((declared s).map (fun m => m.2)).filter (fun m => m.pod = p && m.src ≤ a && a < m.src + m.len)
  if acquired s p a then none
  else match l.find? (fun m => !m.removed) with
    | some m => some m
    | none => l.find? (fun m => sliceFenced s m.slice)

/-- Where a feeder's, LDG's or GCOPY's read of an address goes, with the redirect counted (R279, R282). -/
def redirect (p a : Nat) (s : State) : Nat × State :=
  match mirrorOf s p a with
  | some m => (addrSlice m.slice + (a - m.src), if m.removed then s else { s with redirects := SMap.set 0 s.redirects m.slice (satAdd 0xFFFFFFFF (SMap.get 0 s.redirects m.slice) 1) })
  | none => (a, s)

end Sys2Proof.Machine
end

