-- ==== Sys2Proof/Machine/Formats.lean ====
section
/-! DEFINITION. Number formats of chapter 2: element encodings, block records, rounding, conversions, MX stores (R39-R46, R54-R57). -/

namespace Sys2Proof.Machine

open Sys2Proof

/-! ### Exact values -/

/-- Multiplication of exact values: NaN for infinity times zero, signs multiply (R47, R53). -/
def fvMul (x y : FVal) : FVal :=
  match x, y with
  | .nan, _ => .nan
  | _, .nan => .nan
  | .inf a, .inf b => .inf (a != b)
  | .inf a, .fin b m _ => if m = 0 then .nan else .inf (a != b)
  | .fin b m _, .inf a => if m = 0 then .nan else .inf (a != b)
  | .fin a m e, .fin b n f => .fin (a != b) (m * n) (e + f)

/-- Sign-magnitude integer of a value at the power of two `q ≤ e`. -/
def fvInt (neg : Bool) (m : Nat) (e q : Int) : Int :=
  let v : Int := ((m <<< (e - q).toNat : Nat) : Int)
  if neg then -v else v

/-- Exact sum: infinities of both signs give NaN; an exact zero is +0 unless both terms are −0 (R53). -/
def fvAdd (x y : FVal) : FVal :=
  match x, y with
  | .nan, _ => .nan
  | _, .nan => .nan
  | .inf a, .inf b => if a = b then .inf a else .nan
  | .inf a, .fin _ _ _ => .inf a
  | .fin _ _ _, .inf a => .inf a
  | .fin a m e, .fin b n f =>
    let q := min e f
    let v := fvInt a m e q + fvInt b n f q
    if v = 0 then .fin (m = 0 && n = 0 && a && b) 0 0
    else .fin (v < 0) v.natAbs q

/-- Negation. -/
def fvNeg (x : FVal) : FVal :=
  match x with
  | .nan => .nan
  | .inf a => .inf (!a)
  | .fin a m e => .fin (!a) m e

/-- A value times a power of two. -/
def fvScale (x : FVal) (k : Int) : FVal :=
  match x with
  | .fin a m e => .fin a m (e + k)
  | v => v

/-- The value of an integer. -/
def fvOfInt (v : Int) : FVal := .fin (v < 0) v.natAbs 0

/-- A value with any zero made +0. -/
def fvIsNan (x : FVal) : Bool := match x with | .nan => true | _ => false

/-- Comparison of two values that are not NaN: −1, 0 or 1, with −0 equal to +0. -/
def fvCmp (x y : FVal) : Int :=
  match x, y with
  | .inf a, .inf b => if a = b then 0 else if a then -1 else 1
  | .inf a, _ => if a then -1 else 1
  | _, .inf b => if b then 1 else -1
  | .fin a m e, .fin b n f =>
    let q := min e f
    let u := fvInt a m e q
    let v := fvInt b n f q
    if u < v then -1 else if u = v then 0 else 1
  | _, _ => 0

/-! ### Floating-point formats (R41) -/

/-- Parameters of a floating-point format: mantissa bits, bias, sign-less largest finite code, infinity code, written NaN code. -/
structure FltFmt where
  mb   : Nat
  bias : Nat
  top  : Nat
  inf  : Option Nat
  nan  : Option Nat
  width : Nat
deriving DecidableEq, Repr

def fltFP32 : FltFmt := { mb := 23, bias := 127, top := 0x7F7FFFFF, inf := some 0x7F800000, nan := some 0x7FC00000, width := 32 }
def fltBF16 : FltFmt := { mb := 7, bias := 127, top := 0x7F7F, inf := some 0x7F80, nan := some 0x7FC0, width := 16 }
def fltFP16 : FltFmt := { mb := 10, bias := 15, top := 0x7BFF, inf := some 0x7C00, nan := some 0x7E00, width := 16 }
def fltE4M3 : FltFmt := { mb := 3, bias := 7, top := 0x7E, inf := none, nan := some 0x7F, width := 8 }
def fltE5M2 : FltFmt := { mb := 2, bias := 15, top := 0x7B, inf := some 0x7C, nan := some 0x7E, width := 8 }
def fltE3M2 : FltFmt := { mb := 2, bias := 3, top := 0x1F, inf := none, nan := none, width := 6 }
def fltE2M3 : FltFmt := { mb := 3, bias := 1, top := 0x1F, inf := none, nan := none, width := 6 }
def fltE2M1 : FltFmt := { mb := 1, bias := 1, top := 0x7, inf := none, nan := none, width := 4 }

/-- The floating-point format of a format code, if it is one (R39). -/
def fltOf (fmt : Nat) : Option FltFmt :=
  match fmt with
  | 0 => some fltFP32
  | 1 => some fltBF16
  | 2 => some fltFP16
  | 3 => some fltE4M3
  | 4 => some fltE5M2
  | 5 => some fltE3M2
  | 6 => some fltE2M3
  | 7 => some fltE2M1
  | _ => none

/-- The value of a code of a floating-point format (R41, R42). -/
def fltDecode (f : FltFmt) (code : Nat) : FVal :=
  let neg := bit code (f.width - 1)
  let c := code % 2 ^ (f.width - 1)
  let e := c >>> f.mb
  let m := c % 2 ^ f.mb
  if f.top < c ∧ f.nan.isSome then
    (if f.inf = some c then .inf neg else .nan)
  else if e = 0 then .fin neg m (1 - (f.bias : Int) - (f.mb : Int))
  else .fin neg (2 ^ f.mb + m) ((e : Int) - (f.bias : Int) - (f.mb : Int))

/-! ### Rounding (R54, R55) -/

/-- The 16 random bits of an element, by the seed and the global coordinates (R55). -/
def stochBits (seed : BitVec 32) (g : List Nat) : Nat :=
  let mix (h : BitVec 32) (x : Nat) : BitVec 32 :=
    let h := (h ^^^ BitVec.ofNat 32 x) * 0x9E3779B1#32
    h ^^^ (h >>> 16)
  let h := ((List.range 5).map (fun i => nth 0 g i)).foldl mix seed
  let h := h * 0x85EBCA6B#32
  let h := h ^^^ (h >>> 13)
  (h >>> 16).toNat

/-- The magnitude m·2^e rounded to a multiple of 2^q, in units of 2^q: mode 0 nearest even, 1 toward zero, 2 stochastic with
the random bits u (R54, R55). -/
def roundMag (mode u m : Nat) (e q : Int) : Nat :=
  if q ≤ e then m <<< (e - q).toNat
  else
    let sh := (q - e).toNat
    let t := m >>> sh
    let rem := m % 2 ^ sh
    if rem = 0 then t
    else match mode with
      | 0 => if 2 * rem > 2 ^ sh ∨ (2 * rem = 2 ^ sh ∧ t % 2 = 1) then t + 1 else t
      | 2 => if (rem * 2 ^ 16) / 2 ^ sh + u ≥ 2 ^ 16 then t + 1 else t
      | _ => t

/-- The code of a magnitude rounded to a format of unbounded exponent: a code above `top` means beyond the largest finite. -/
def fltRoundCode (f : FltFmt) (mode u m : Nat) (e : Int) : Nat :=
  if m = 0 then 0
  else
    let ex : Int := max ((Nat.log2 m : Nat) + e) (1 - (f.bias : Int))
    let n := roundMag mode u m e (ex - (f.mb : Int))
    (ex + (f.bias : Int) - 1).toNat * 2 ^ f.mb + n

/-- A code with its sign bit. -/
def signCode (f : FltFmt) (neg : Bool) (c : Nat) : Nat := if neg then c + 2 ^ (f.width - 1) else c

/-- Conversion to a floating-point format (R57): the code, and whether SATURATE counts one. A NaN to an element format without
NaN is the block's matter (R56); it converts to 0 here. -/
def toFlt (f : FltFmt) (mode u : Nat) (v : FVal) : Nat × Bool :=
  match v with
  | .nan => (f.nan.getD 0, false)
  | .inf neg =>
    match f.inf with
    | some c => (signCode f neg c, false)
    | none => (signCode f neg f.top, true)
  | .fin neg m e =>
    let c := fltRoundCode f mode u m e
    if f.top < c then (signCode f neg f.top, true) else (signCode f neg c, false)

/-- Conversion to a two's-complement integer of n bits (R57). -/
def toInt (n : Nat) (mode u : Nat) (v : FVal) : Nat × Bool :=
  let hi : Int := ((2 ^ (n - 1) : Nat) : Int) - 1
  let lo : Int := -((2 ^ (n - 1) : Nat) : Int)
  match v with
  | .nan => (0, true)
  | .inf neg => (unsigned n (if neg then lo else hi), true)
  | .fin neg m e =>
    let r := roundMag mode u m e 0
    let x : Int := if neg then -(r : Int) else (r : Int)
    if hi < x then (unsigned n hi, true)
    else if x < lo then (unsigned n lo, true)
    else (unsigned n x, false)

/-- Conversion to an unblocked store format (R39, R57). -/
def convert (fmt mode u : Nat) (v : FVal) : Nat × Bool :=
  match fmt with
  | 8 => toInt 8 mode u v
  | 0xB => toInt 32 mode u v
  | _ => match fltOf fmt with
    | some f => toFlt f mode u v
    | none => (0, false)

/-- Conversion of a value of a number format to an unblocked store format (R57): to FP32 it is exact but for INT32 and block values
beyond the range, and those round to nearest even whatever the mode; to every other format it rounds in the store mode. -/
def convertTo (fmt mode u : Nat) (v : FVal) : Nat × Bool := convert fmt (if fmt = 0 then 0 else mode) u v

/-- The largest finite value of a destination (R51 rows 5 and 6). -/
def largestCode (fmt : Nat) (neg : Bool) : Nat :=
  match fmt with
  | 8 => if neg then unsigned 8 (-127) else 127
  | 0xB => if neg then unsigned 32 (-2147483647) else 2147483647
  | _ => match fltOf fmt with
    | some f => signCode f neg f.top
    | none => 0

/-- True for an integer destination. -/
def isIntFmt (fmt : Nat) : Bool := fmt = 8 || fmt = 9 || fmt = 0xB

/-! ### Block records (R43-R46) -/

/-- Elements per block: 1 where the format has no block (R39). -/
def blockLen (fmt : Nat) (scaled : Bool) : Nat :=
  match fmt with
  | 5 => 32
  | 6 => 32
  | 7 => 32
  | 8 => if scaled then 32 else 1
  | 9 => 16
  | 0xA => 64
  | _ => 1

/-- Bytes of a record: of one element where the format has no block (R43). -/
def recBytes (fmt : Nat) (scaled : Bool) : Nat :=
  match fmt with
  | 0 => 4
  | 1 => 2
  | 2 => 2
  | 3 => 1
  | 4 => 1
  | 5 => 25
  | 6 => 25
  | 7 => 17
  | 8 => if scaled then 33 else 1
  | 9 => 9
  | 0xA => 15
  | 0xB => 4
  | _ => 1

/-- True for a format code that is a multiplicand of the exact path (R40). -/
def isExact (fmt : Nat) : Bool := 3 ≤ fmt && fmt ≤ 0xA

/-- True for a multiplicand format (R39). -/
def isMultiplicand (fmt : Nat) : Bool := 1 ≤ fmt && fmt ≤ 0xA

/-- True for a store format (R39); INT8 only unscaled. -/
def isStore (fmt : Nat) (scaled : Bool) : Bool := fmt ≤ 7 || (fmt = 8 && !scaled) || fmt = 0xB

/-- What loading a record gives: element values, and the counts of BAD_TRIT and NAN_SCALE events (R44, R46). -/
structure Loaded where
  vals : List FVal
  badTrit : Nat
  nanScale : Nat
deriving DecidableEq, Repr

/-- The value of an E8M0 scale, none for a NaN block (R44). -/
def scaleE8M0 (b : Nat) : Option FVal := if b = 255 then none else some (.fin false 1 ((b : Int) - 127))

/-- The value of an E4M3 or BF16 scale, none for a NaN block (R44). -/
def scaleFlt (f : FltFmt) (c : Nat) : Option FVal :=
  match fltDecode f c with
  | .fin a m e => some (.fin a m e)
  | _ => none

/-- Trit digit i of a byte (R45). -/
def tritVal (b i : Nat) : FVal :=
  match b / 3 ^ i % 3 with
  | 1 => .fin false 1 0
  | 2 => .fin true 1 0
  | _ => .fin false 0 0

/-- The elements of byte j of a TB2 record, and whether the byte is invalid (R45, R46). -/
def tb2Byte (j b : Nat) : List FVal × Nat :=
  let n := if j < 12 then 5 else 4
  if 3 ^ n ≤ b then (List.replicate n (.fin false 0 0), 1)
  else ((List.range n).map (tritVal b), 0)

/-- A block of n elements scaled, or a NaN block. -/
def loadBlock (sc : Option FVal) (elems : List FVal) (bad : Nat) : Loaded :=
  match sc with
  | none => { vals := elems.map (fun _ => FVal.nan), badTrit := 0, nanScale := 1 }
  | some k => { vals := elems.map (fun v => fvMul v k), badTrit := bad, nanScale := 0 }

/-- The 4-bit element i of a packed record (R43). -/
def nibble (bs : List Byte) (i : Nat) : Nat :=
  let b := (nth 0 bs (i / 2)).toNat
  if i % 2 = 0 then b % 16 else b / 16

/-- Decode one record of a format from its bytes (R43-R46): a single element where the format has no block. -/
def loadRecord (fmt : Nat) (scaled : Bool) (bs : List Byte) : Loaded :=
  let byte (i : Nat) : Nat := (nth 0 bs i).toNat
  match fmt with
  | 5 =>
    let n := leNat (bs.take 24)
    loadBlock (scaleE8M0 (byte 24)) ((List.range 32).map (fun i => fltDecode fltE3M2 (bits n (6 * i + 5) (6 * i)))) 0
  | 6 =>
    let n := leNat (bs.take 24)
    loadBlock (scaleE8M0 (byte 24)) ((List.range 32).map (fun i => fltDecode fltE2M3 (bits n (6 * i + 5) (6 * i)))) 0
  | 7 => loadBlock (scaleE8M0 (byte 16)) ((List.range 32).map (fun i => fltDecode fltE2M1 (nibble bs i))) 0
  | 8 =>
    if scaled then
      loadBlock (scaleFlt fltE4M3 (byte 32)) ((List.range 32).map (fun i => fvOfInt (signed 8 (byte i)))) 0
    else { vals := [fvOfInt (signed 8 (byte 0))], badTrit := 0, nanScale := 0 }
  | 9 => loadBlock (scaleFlt fltE4M3 (byte 8)) ((List.range 16).map (fun i => fvOfInt (signed 4 (nibble bs i)))) 0
  | 0xA =>
    let parts := (List.range 13).map (fun j => tb2Byte j (byte j))
    loadBlock (scaleFlt fltBF16 (leNat ((bs.drop 13).take 2))) (parts.flatMap (fun p => p.1))
      ((parts.map (fun p => p.2)).foldl (· + ·) 0)
  | 0xB => { vals := [fvOfInt (signed 32 (leNat (bs.take 4)))], badTrit := 0, nanScale := 0 }
  | _ =>
    match fltOf fmt with
    | some f => { vals := [fltDecode f (leNat (bs.take (f.width / 8)))], badTrit := 0, nanScale := 0 }
    | none => { vals := [.nan], badTrit := 0, nanScale := 0 }

/-- Decode consecutive records. -/
def loadRecords (fmt : Nat) (scaled : Bool) (n : Nat) (bs : List Byte) : Loaded :=
  match n with
  | 0 => { vals := [], badTrit := 0, nanScale := 0 }
  | n + 1 =>
    let r := loadRecord fmt scaled bs
    let t := loadRecords fmt scaled n (bs.drop (recBytes fmt scaled))
    { vals := r.vals ++ t.vals, badTrit := r.badTrit + t.badTrit, nanScale := r.nanScale + t.nanScale }

/-! ### FP32 values -/

/-- The FP32 value of a register or word. -/
def fp32Val (w : BitVec 32) : FVal := fltDecode fltFP32 w.toNat

/-- Rounding of an arithmetic result to FP32, nearest even, beyond the largest finite to an infinity (R53, R58). -/
def fp32Round (v : FVal) : BitVec 32 :=
  match v with
  | .nan => 0x7FC00000#32
  | .inf neg => if neg then 0xFF800000#32 else 0x7F800000#32
  | .fin neg m e =>
    let c := fltRoundCode fltFP32 0 0 m e
    BitVec.ofNat 32 (signCode fltFP32 neg (if fltFP32.top < c then 0x7F800000 else c))

/-- Conversion of a loaded element to FP32 (R40, R57): exact, but INT32 to nearest even and beyond-range block values saturate. -/
def fp32Load (v : FVal) : BitVec 32 × Bool :=
  let r := toFlt fltFP32 0 0 v
  (BitVec.ofNat 32 r.1, r.2)

/-- FP32 addition, subtraction, multiplication and fused multiply-add (R53). -/
def fp32Add (a b : BitVec 32) : BitVec 32 := fp32Round (fvAdd (fp32Val a) (fp32Val b))
def fp32Neg (a : BitVec 32) : BitVec 32 := a ^^^ 0x80000000#32
def fp32Sub (a b : BitVec 32) : BitVec 32 := fp32Round (fvAdd (fp32Val a) (fvNeg (fp32Val b)))
def fp32Mul (a b : BitVec 32) : BitVec 32 := fp32Round (fvMul (fp32Val a) (fp32Val b))
def fp32Fma (a b c : BitVec 32) : BitVec 32 := fp32Round (fvAdd (fvMul (fp32Val a) (fp32Val b)) (fp32Val c))

/-! ### MX stores (R56) -/

/-- emax of an MX element format (R56). -/
def mxEmax (fmt : Nat) : Int := if fmt = 5 then 4 else 2

/-- floor(log2) of a nonzero finite magnitude, none for zero and non-finite values. -/
def fvLog (v : FVal) : Option Int :=
  match v with
  | .fin _ m e => if m = 0 then none else some ((Nat.log2 m : Nat) + e)
  | _ => none

/-- Pack 4-bit codes into bytes, low nibble first. -/
def packNibbles (l : List Nat) : List Byte :=
  match l with
  | a :: b :: r => BitVec.ofNat 8 (a + 16 * b) :: packNibbles r
  | [a] => [BitVec.ofNat 8 a]
  | [] => []

/-- One 6-bit little-endian stream as a number. -/
def packSix (l : List Nat) : Nat :=
  match l with
  | [] => 0
  | a :: r => a + 64 * packSix r

/-- One block of 32 values stored in an MX format, each with its random bits (R56): the record's bytes and the SATURATE events.
DESIGN CHOICE (log entry 22): R56 defines amax over the finite elements; of a block without one the model takes the scale exponent −127,
as for amax 0. -/
def storeBlock (fmt mode : Nat) (vals : List (FVal × Nat)) : List Byte × Nat :=
  let pack (l : List Nat) : List Byte := if fmt = 7 then packNibbles l else leBytes 24 (packSix l)
  if vals.any (fun v => fvIsNan v.1) then (pack (vals.map (fun _ => 0)) ++ [255], 0)
  else
    let logs := vals.filterMap (fun v => fvLog v.1)
    let x : Int := match logs with
      | [] => -127
      | l :: r => max (-127) (min 127 (r.foldl max l - mxEmax fmt))
    let enc := vals.map (fun v => convert fmt mode v.2 (fvScale v.1 (-x)))
    (pack (enc.map (fun c => c.1)) ++ [BitVec.ofNat 8 (x + 127).toNat], countIf (fun c => c.2) enc)

/-- Bytes of one value stored in an unblocked format, and whether SATURATE counts one (R57). -/
def storeElem (fmt mode u : Nat) (v : FVal) : List Byte × Bool :=
  let c := convert fmt mode u v
  (leBytes (recBytes fmt false) c.1, c.2)

end Sys2Proof.Machine
end

