-- ==== Sys2Proof/Machine/Exact.lean ====
section
/-! DEFINITION. The exact path (R47-R51), the FP32 path (R52) and the format event counters (R64). -/

namespace Sys2Proof.Machine

open Sys2Proof

/-! ### Contributions -/

/-- Sum of the products of a run (R47): NaN for a NaN product or infinities of both signs. -/
def runSum (prods : List FVal) : FVal := prods.foldl fvAdd (.fin false 0 0)

/-- Products of two element lists of equal length. -/
def products (xs ys : List FVal) : List FVal := List.zipWith fvMul xs ys

/-- Cut a list into consecutive runs of n elements (R47), by fuel. -/
def chunks (fuel n : Nat) (l : List FVal) : List (List FVal) :=
  match fuel with
  | 0 => []
  | k + 1 =>
    match l with
    | [] => []
    | _ => l.take n :: chunks k n (l.drop n)

/-- The run length of R47: 1 when neither operand is block-scaled. -/
def runLen (bx by_ : Nat) : Nat :=
  if bx = 1 then by_ else if by_ = 1 then bx else min bx by_

/-- The contributions of a reduction over two operand rows (R47). Scales are part of the values, which gives the same
contributions: a run's scales are constant. -/
def contributions (bx by_ : Nat) (xs ys : List FVal) : List FVal :=
  let p := products xs ys
  (chunks p.length (runLen bx by_) p).map runSum

/-! ### The accumulator (R48-R50) -/

/-- The count limit of R50. -/
def countTop : Nat := 2 ^ 21 - 1

/-- A magnitude at or above 2^k (R49 step 4). -/
def magGe (m : Nat) (e k : Int) : Bool := m ≠ 0 && k ≤ (Nat.log2 m : Nat) + e

/-- trunc(m·2^e · 2^-l) and whether it is inexact (R49 step 5). -/
def truncTo (m : Nat) (e l : Int) : Nat × Bool :=
  if l ≤ e then (m <<< (e - l).toNat, false)
  else
    let sh := (l - e).toNat
    (m >>> sh, m % 2 ^ sh ≠ 0)

/-- Enter a contribution (R49): the lane, and whether TRUNCATE counts one. -/
def accEnter (anchor : Int) (c : FVal) (acc : Acc) : Acc × Bool :=
  let l := anchor - 32
  let acc := { acc with count := min countTop (acc.count + 1) }
  match c with
  | .nan => ({ acc with nan := true }, false)
  | .inf neg => (if neg then { acc with ninf := true } else { acc with pinf := true }, false)
  | .fin neg m e =>
    if magGe m e (l + 74) then (if neg then { acc with ovfn := true } else { acc with ovfp := true }, false)
    else
      let t := truncTo m e l
      let d := BitVec.ofNat 96 t.1
      ({ acc with a := if neg then acc.a - d else acc.a + d }, t.2)

/-- Enter a list of contributions: the lane and the TRUNCATE events. -/
def accEnterAll (anchor : Int) (cs : List FVal) (acc : Acc) : Acc × Nat :=
  cs.foldl (fun r c => let q := accEnter anchor c r.1; (q.1, r.2 + b2n q.2)) (acc, 0)

/-- Merge of two lanes: sums, flags or-ed, counts added to saturation (R50, R74, R156). -/
def accMerge (x y : Acc) : Acc :=
  { a := x.a + y.a, nan := x.nan || y.nan, pinf := x.pinf || y.pinf, ninf := x.ninf || y.ninf, ovfp := x.ovfp || y.ovfp,
    ovfn := x.ovfn || y.ovfn, count := min countTop (x.count + y.count), s := x.s, poison := x.poison || y.poison }

/-! ### Exit (R51) -/

/-- What a lane holds as it leaves, before the destination's rounding (R51). -/
inductive Leave where
  /-- rows 1 and 4: a NaN, and whether the cause alone counts SATURATE -/
  | nan (sat : Bool)
  /-- rows 5 and 6: the largest finite value of the destination -/
  | most (neg : Bool)
  /-- rows 2, 3, 7 and 8 -/
  | value (v : FVal)
deriving DecidableEq, Repr

/-- The first row of R51 that applies. -/
def accLeave (anchor : Int) (acc : Acc) : Leave :=
  let past := decide (acc.count > 2 ^ 20)
  if acc.nan || (acc.pinf && acc.ninf) || past then .nan past
  else if acc.pinf then .value (.inf false)
  else if acc.ninf then .value (.inf true)
  else if acc.ovfp && acc.ovfn then .nan true
  else if acc.ovfp then .most false
  else if acc.ovfn then .most true
  else .value (.fin (acc.a.toInt < 0) acc.a.toInt.natAbs (anchor - 32))

/-- One exit of a lane to an unblocked destination: the code, and whether SATURATE counts one (R50, R51). -/
def accExit (fmt mode u : Nat) (anchor : Int) (acc : Acc) : Nat × Bool :=
  match accLeave anchor acc with
  | .nan sat =>
    let c := convert fmt mode u .nan
    (c.1, sat || isIntFmt fmt)
  | .most neg => (largestCode fmt neg, true)
  | .value v => convert fmt mode u v

/-! ### The FP32 path (R52) -/

/-- One level of the pairwise tree (R52 step 3). -/
def pairUp (l : List (BitVec 32)) : List (BitVec 32) :=
  match l with
  | a :: b :: r => fp32Add a b :: pairUp r
  | [a] => [a]
  | [] => []

/-- The pairwise tree over at most 32 elements: five levels and one to spare. -/
def treeSum (l : List (BitVec 32)) : BitVec 32 :=
  match pairUp (pairUp (pairUp (pairUp (pairUp (pairUp l))))) with
  | a :: _ => a
  | [] => 0#32

/-- Chunks of 32 added to the running sum S in ascending order (R52 steps 2-4), by fuel. -/
def fp32Chunks (fuel : Nat) (s : BitVec 32) (prods : List (BitVec 32)) : BitVec 32 :=
  match fuel with
  | 0 => s
  | k + 1 =>
    match prods with
    | [] => s
    | _ => fp32Chunks k (fp32Add s (treeSum (prods.take 32))) (prods.drop 32)

/-- The running sum after a reduction on the FP32 path: multiplicands converted first (R40), then R52; with the SATURATE events
of the conversions. -/
def fp32Reduce (s : BitVec 32) (xs ys : List FVal) : BitVec 32 × Nat :=
  let cx := xs.map fp32Load
  let cy := ys.map fp32Load
  let prods := List.zipWith (fun a b => fp32Mul a.1 b.1) cx cy
  (fp32Chunks (prods.length + 1) s prods, countIf (fun c => c.2) cx + countIf (fun c => c.2) cy)

/-! ### Format event counters (R64) -/

/-- Raise the four counters, saturating at 0xFFFF_FFFF. -/
def fmtAdd (c : FmtCnt) (badTrit nanScale saturate truncate : Nat) : FmtCnt :=
  let top := 0xFFFFFFFF
  { badTrit := satAdd top c.badTrit badTrit, nanScale := satAdd top c.nanScale nanScale,
    saturate := satAdd top c.saturate saturate, truncate := satAdd top c.truncate truncate }

/-- Count format events of a cluster, n = 8 × die + cluster. -/
def countMx (n badTrit nanScale saturate truncate : Nat) (s : State) : State :=
  { s with mxFmt := SMap.mod {} s.mxFmt n (fun c => fmtAdd c badTrit nanScale saturate truncate) }

/-- Count format events of a bank engine, n = 64 × stack + engine. -/
def countStk (n badTrit nanScale saturate truncate : Nat) (s : State) : State :=
  { s with stkFmt := SMap.mod {} s.stkFmt n (fun c => fmtAdd c badTrit nanScale saturate truncate) }

/-- Word w (0-3) of a counter register. -/
def fmtWord (c : FmtCnt) (w : Nat) : Nat :=
  match w with
  | 0 => c.badTrit
  | 1 => c.nanScale
  | 2 => c.saturate
  | _ => c.truncate

/-- The register with word w cleared. -/
def fmtClear (c : FmtCnt) (w : Nat) : FmtCnt :=
  match w with
  | 0 => { c with badTrit := 0 }
  | 1 => { c with nanScale := 0 }
  | 2 => { c with saturate := 0 }
  | _ => { c with truncate := 0 }

end Sys2Proof.Machine
end

