-- ==== Sys2Proof/Machine/Tensor.lean ====
section
/-! DEFINITION. Tensor descriptors (R95-R98): their fields, the checks GRAPH_LOAD makes of them, element addresses, and element
loads and stores with poison (R366). -/

namespace Sys2Proof.Machine

open Sys2Proof

/-- A descriptor read from its 1024 bits (R95). -/
def tdParse (w : Nat) : TDesc :=
  let dims := List.range 5
  { fmt := bits w 3 0, rnd := bits w 5 4, scaled := bit w 6, lc := bit w 7, space := bits w 9 8, ndim := bits w 12 10,
    seed := BitVec.ofNat 32 (bits w 63 32), base := bits w 111 64, shapes := bits w 143 128, shapesV := bit w 144,
    ext := dims.map (fun d => bits w (192 + 128 * d + 23) (192 + 128 * d) + 1),
    stride := dims.map (fun d => signed 40 (bits w (192 + 128 * d + 63) (192 + 128 * d + 24))),
    origin := dims.map (fun d => bits w (192 + 128 * d + 95) (192 + 128 * d + 64)) }

/-- Reserved bits of a descriptor are 0 (R15, R95). -/
def tdReserved (w : Nat) : Bool :=
  bits w 31 13 = 0 && bits w 127 112 = 0 && bits w 191 145 = 0 && w >>> 832 = 0
    && (List.range 5).all (fun d => bits w (192 + 128 * d + 127) (192 + 128 * d + 96) = 0)

/-- Extent, stride and origin of a dimension. -/
def tdExt (t : TDesc) (d : Nat) : Nat := nth 1 t.ext d
def tdStride (t : TDesc) (d : Nat) : Int := nth 0 t.stride d
def tdOrigin (t : TDesc) (d : Nat) : Nat := nth 0 t.origin d

/-- The tensor has block records (R43). -/
def tdBlocked (t : TDesc) : Bool := blockLen t.fmt t.scaled ≠ 1

/-- Bytes of one element, or of one record. -/
def tdUnit (t : TDesc) : Nat := recBytes t.fmt t.scaled

/-- The lowest byte the tensor covers, and one past the highest. -/
def tdSpan (t : TDesc) : Int × Int :=
  let reach (d : Nat) : Int := tdStride t d * ((tdExt t d : Int) - 1)
  let low : Int := ((List.range 5).map (fun d => if d = 0 ∧ tdBlocked t then 0 else min 0 (reach d))).foldl (· + ·) 0
  let high : Int := ((List.range 5).map (fun d =>
    if d = 0 ∧ tdBlocked t then (((tdExt t 0 / blockLen t.fmt t.scaled - 1) * tdUnit t : Nat) : Int) else max 0 (reach d))).foldl (· + ·) 0
  ((t.base : Int) + low, (t.base : Int) + high + (tdUnit t : Int))

/-- The row of the table of R35 an address lies in, none for a reserved address (R96). -/
def rangeRow (a : Int) : Option Nat :=
  if a < 0 then none
  else
    let a := a.toNat
    if a < 0x010000000000 then some 0
    else if a < 0x010100000000 then some 1
    else if a < 0x010200000000 then some 2
    else if 0x011000000000 ≤ a ∧ a < 0x011400000000 then some 3
    else if 0x012000000000 ≤ a ∧ a < 0x012100000000 then some 4
    else if 0x013000000000 ≤ a ∧ a < 0x013010000000 then some 5
    else if 0x400000000000 ≤ a ∧ a < 0x800000000000 then some 6
    else none

/-- The rules of R95, R96 and R43 for one descriptor. -/
def tdOk (w : Nat) : Bool :=
  let t := tdParse w
  let unused := (List.range 5).all (fun d => d < t.ndim || (tdExt t d = 1 && tdStride t d = 0 && tdOrigin t d = 0))
  let sp := tdSpan t
  tdReserved w && t.fmt < 12 && t.rnd ≠ 3 && (!t.scaled || t.fmt = 8) && (!t.lc || t.space = 0) && t.space < 2
    && 1 ≤ t.ndim && t.ndim ≤ 5 && unused
    && (t.space = 0 || t.base < 0x4000000)
    && (if tdBlocked t then tdStride t 0 = 0 && tdExt t 0 % blockLen t.fmt t.scaled = 0
        else tdStride t 0 ≠ 0 && tdStride t 0 % (tdUnit t : Int) = 0 && t.base % tdUnit t = 0)
    && t.shapes % 256 = 0
    && (if t.space = 1 then decide (0 ≤ sp.1) && decide (sp.2 ≤ 0x4000000)
        else (rangeRow sp.1).isSome && decide (rangeRow sp.1 = rangeRow (sp.2 - 1)))

/-- The byte address of an element, or of its record, and its position in the record (R97). -/
def elemAddr (t : TDesc) (c : List Int) : Int × Nat :=
  let rest : Int := ((List.range 5).map (fun d => if d = 0 then 0 else nth 0 c d * tdStride t d)).foldl (· + ·) 0
  let n := blockLen t.fmt t.scaled
  let c0 := nth 0 c 0
  if n = 1 then ((t.base : Int) + rest + c0 * tdStride t 0, 0)
  else ((t.base : Int) + rest + (c0 / (n : Int)) * (tdUnit t : Int), (c0 % (n : Int)).toNat)

/-- Every coordinate lies in its extent. -/
def inExtent (t : TDesc) (c : List Int) : Bool :=
  (List.range 5).all (fun d => decide (0 ≤ nth 0 c d) && decide (nth 0 c d < (tdExt t d : Int)))

/-! ### Reading elements -/

/-- A byte as a reader decodes it, with its granule's poison: no counting. -/
def viewByte (s : State) (a : Nat) : Byte × Bool :=
  let g := a / 64
  if SMap.find s.poison g = none && SMap.find s.dramErr g = none
      && (List.range 8).all (fun i => SMap.find s.sramErr (8 * g + i) = none) then (memByte s a, false)
  else
    let v := (fetchGranule g s).1
    (nth 0 v.1 (a % 64), v.2)

/-- Bytes from an address, with the poison of any granule they lie in. -/
def viewBytes (s : State) (a n : Nat) : List Byte × Bool :=
  let l := (List.range n).map (fun i => viewByte s (a + i))
  (l.map (fun b => b.1), l.any (fun b => b.2))

/-- The decodes that reading these addresses makes: each granule with errors is read once (R357, R359). -/
def touch (addrs : List Nat) (s : State) : State :=
  if s.sramErr.isEmpty && s.dramErr.isEmpty then s
  else (dedup (addrs.map (fun a => a / 64))).foldl (fun s g => (fetchGranule g s).2) s

/-- The granules a record at an address lies in, by one address each. -/
def recAddrs (t : TDesc) (a : Nat) : List Nat := [a, a + tdUnit t - 1]

/-- The record at a byte address: its elements, events and poison. -/
def viewRecord (s : State) (t : TDesc) (a : Nat) : Loaded × Bool :=
  let r := viewBytes s a (tdUnit t)
  (loadRecord t.fmt t.scaled r.1, r.2)

/-- The element at a coordinate, in a space whose offset 0 lies at `origin`: value and poison. -/
def viewElem (s : State) (origin : Nat) (t : TDesc) (c : List Int) : FVal × Bool :=
  let p := elemAddr t c
  let r := viewRecord s t (origin + p.1.toNat)
  (nth .nan r.1.vals p.2, r.2)

/-! ### Storing elements -/

/-- One result to store: stored coordinates, value or exit, poison. -/
structure Item where
  coord : List Int
  val : Leave
  poison : Bool
deriving DecidableEq, Repr

/-- The random bits of a stored element (R55, R114). -/
def itemBits (t : TDesc) (c : List Int) : Nat :=
  stochBits t.seed ((List.range 5).map (fun d => unsigned 32 (nth 0 c d + (tdOrigin t d : Int))))

/-- The code an unblocked store writes for an exit, and whether SATURATE counts one (R51, R57). -/
def leaveCode (fmt mode u : Nat) (v : Leave) : Nat × Bool :=
  match v with
  | .nan sat => ((convert fmt mode u .nan).1, sat || isIntFmt fmt)
  | .most neg => (largestCode fmt neg, true)
  | .value x => convert fmt mode u x

/-- An exit as an element of an MX block (R51, R56): a lane that overflowed stores the largest element with its sign, as an
infinity does. -/
def leaveBlock (v : Leave) : FVal :=
  match v with
  | .nan _ => .nan
  | .most neg => .inf neg
  | .value x => x

/-- SATURATE events that the exit of a lane into an MX block counts besides those of its block's conversions (R50, R51): rows 1 and 4 by
themselves, and rows 5 and 6 in a NaN block, which converts nothing. -/
def leaveSat (nanBlock : Bool) (v : Leave) : Nat :=
  match v with
  | .nan sat => b2n sat
  | .most _ => b2n nanBlock
  | .value _ => 0

/-- Items of an unblocked tensor as bytes by address, with the SATURATE events. -/
def storeItems (origin : Nat) (t : TDesc) (items : List Item) : List Cell × Nat :=
  items.foldl (fun r it =>
    let a := origin + (elemAddr t it.coord).1.toNat
    let c := leaveCode t.fmt t.rnd (if t.rnd = 2 then itemBits t it.coord else 0) it.val
    (r.1 ++ cellsOf a (leBytes (tdUnit t) c.1) it.poison, r.2 + b2n c.2)) ([], 0)

/-- Byte k of an MX record holds bits of element i; the last byte, the scale, belongs to every element (R43). -/
def recHolds (fmt i k : Nat) : Bool :=
  if k = recBytes fmt false - 1 then true
  else if fmt = 7 then k = i / 2
  else 6 * i / 8 ≤ k && k ≤ (6 * i + 5) / 8

/-- The record that an exit group's results make in an MX tensor: its bytes with their places, and the SATURATE events. A position that
several results take keeps the last (R121), and only the bytes that hold a result are written (R116). DEDUCED (log entry 22): in such a
byte the bits of an element without a result are +0. -/
def groupRecord (fmt mode : Nat) (elems : List (Nat × Leave × Nat)) : List (Nat × Byte) × Nat :=
  let at_ (i : Nat) : Option (Leave × Nat) := ((elems.filter (fun e => e.1 = i)).getLast?).map (fun e => e.2)
  let held := (List.range 32).filterMap at_
  let nan := held.any (fun e => fvIsNan (leaveBlock e.1))
  let st := storeBlock fmt mode ((List.range 32).map (fun i =>
    match at_ i with
    | some e => (leaveBlock e.1, e.2)
    | none => (.fin false 0 0, 0)))
  ((st.1.zipIdx).filterMap (fun b =>
      if (List.range 32).any (fun i => (at_ i).isSome && recHolds fmt i b.2) then some (b.2, b.1) else none),
    st.2 + (held.map (fun e => leaveSat nan e.1)).foldl (· + ·) 0)

/-- The results of one exit group in an MX tensor, record by record (R56, R115, R116). -/
def storeRecords (origin : Nat) (t : TDesc) (items : List Item) : List Cell × Nat :=
  let place (it : Item) : Nat := origin + (elemAddr t it.coord).1.toNat
  (dedup (items.map place)).foldl (fun r a =>
    let mine := items.filter (fun it => place it = a)
    let rec_ := groupRecord t.fmt t.rnd (mine.map (fun it =>
      ((elemAddr t it.coord).2, it.val, if t.rnd = 2 then itemBits t it.coord else 0)))
    let po := mine.any (fun it => it.poison)
    (r.1 ++ rec_.1.map (fun b => (a + b.1, b.2, po)), r.2 + rec_.2)) ([], 0)

/-- Items as bytes by address, and the SATURATE events. -/
def storeCells (origin : Nat) (t : TDesc) (items : List Item) : List Cell × Nat :=
  if tdBlocked t then storeRecords origin t items else storeItems origin t items

/-- Store items through a tensor descriptor. -/
def storeAll (origin : Nat) (t : TDesc) (items : List Item) (s : State) : State × Nat :=
  let c := storeCells origin t items
  (landCells c.1 s, c.2)

end Sys2Proof.Machine
end

