-- ==== Sys2Proof/Machine/Walk.lean ====
section
/-! DEFINITION. Tile descriptors and the walks of the three generators (R99-R105, R110, R113, R117, R118), and the checks GRAPH_LOAD
makes of a descriptor block (R93, R96, R98, R102, R104-R106, R108, R109, R111-R115, R118). -/

namespace Sys2Proof.Machine

open Sys2Proof

/-- A loop-level record (R100). -/
structure Loop where
  count : Nat
  role : Nat
  dim : Nat
  skip : Bool
  wrap : Bool
  step : Int
deriving DecidableEq, Repr

def loopParse (w : Nat) : Loop :=
  { count := bits w 19 0, role := bits w 21 20, dim := bits w 25 22, skip := bit w 26, wrap := bit w 27,
    step := signed 24 (bits w 55 32) }

/-- A tile descriptor (R110). -/
structure TileDesc where
  kind : Nat
  conv : Bool
  mode : Nat
  stream : Bool
  exit : Bool
  fwd : Bool
  delta : Nat
  anchor : Int
  ppb : Nat
  link : Nat
  end_ : Bool
  sTd : Nat
  mTd : Nat
  oTd : Nat
  listOff : Nat
  listGen : Nat
  listLen : Nat
  perm : List Nat
  kw : Nat
  kh : Nat
  sx : Nat
  sy : Nat
  dx : Nat
  dy : Nat
  padL : Nat
  padR : Nat
  padT : Nat
  padB : Nat
  outW : Nat
  padValue : Nat
  s : List Loop
  m : List Loop
  d : List Loop
  sStart : List Int
  mStart : List Int
  dStart : List Int
deriving DecidableEq, Repr

/-- A descriptor read from its 2048 bits. -/
def tileParse (w : Nat) : TileDesc :=
  let nest (b : Nat) : List Loop := (List.range 6).map (fun i => loopParse (bits w (b + 64 * i + 63) (b + 64 * i)))
  let starts (b n : Nat) : List Int := (List.range n).map (fun d => signed 24 (bits w (b + 24 * d + 23) (b + 24 * d)))
  { kind := bits w 3 0, conv := bits w 5 4 = 1, mode := bits w 5 4, stream := bit w 6, exit := bit w 7,
    fwd := bit w 8, delta := bits w 11 9 + 1,
    anchor := signed 8 (bits w 23 16), ppb := bits w 39 24, link := bits w 79 64, end_ := bit w 80,
    sTd := bits w 143 128, mTd := bits w 159 144, oTd := bits w 175 160, listOff := bits w 217 192, listGen := bits w 219 218,
    listLen := bits w 239 224, perm := (List.range 5).map (fun j => bits w (240 + 3 * j + 2) (240 + 3 * j)),
    kw := bits w 259 256, kh := bits w 263 260, sx := bits w 266 264 + 1, sy := bits w 269 267 + 1, dx := bits w 272 270 + 1,
    dy := bits w 275 273 + 1, padL := bits w 278 276, padR := bits w 281 279, padT := bits w 284 282, padB := bits w 287 285,
    outW := bits w 303 288, padValue := bits w 319 304, s := nest 320, m := nest 704, d := nest 1088,
    sStart := starts 1472 5, mStart := starts 1592 7, dStart := starts 1760 5 }

/-- The structure at a byte offset of a descriptor block. -/
def blockNat (block : List Byte) (off n : Nat) : Nat := leNat ((block.drop off).take n)

/-- Tensor and tile descriptors of a block. -/
def blockTd (block : List Byte) (off : Nat) : TDesc := tdParse (blockNat block off 128)
def blockTile (block : List Byte) (off : Nat) : TileDesc := tileParse (blockNat block off 256)

/-! ### Walks (R101) -/

/-- Coordinates by dimension code: 0-4 tensor dimensions, 5 KW, 6 KH, 7 PIX. -/
abbrev Coord := List Int

def zero8 : Coord := List.replicate 8 0
def addV (a b : Coord) : Coord := List.zipWith (· + ·) a b
def subV (a b : Coord) : Coord := List.zipWith (· - ·) a b

/-- A level's contribution at an iteration. -/
def stepV (l : Loop) (i : Nat) (v : Coord) : Coord := v.set l.dim (nth 0 v l.dim + (i : Int) * l.step)

/-- The levels in use (R99). -/
def usedLevels (nest : List Loop) : List Loop := nest.takeWhile (fun l => l.count ≠ 0)

/-- The levels in use that have a role. -/
def roleLevels (nest : List Loop) (role : Nat) : List Loop := (usedLevels nest).filter (fun l => l.role = role)

/-- Product of counts. -/
def countProd (ls : List Loop) : Nat := ls.foldl (fun n l => n * l.count) 1

/-- All combinations of iterations, the first level fastest, as contributions. -/
def combos (ls : List Loop) : List Coord :=
  match ls with
  | [] => [zero8]
  | l :: r => (combos r).flatMap (fun o => (List.range l.count).map (fun i => stepV l i o))

/-- The combination of an index, the first level fastest. -/
def comboAt (ls : List Loop) (idx : Nat) : Coord :=
  match ls with
  | [] => zero8
  | l :: r => stepV l (idx % l.count) (comboAt r (idx / l.count))

/-- A generator: its nest, start coordinates and the range of each dimension code. -/
structure Gen where
  nest : List Loop
  start : Coord
  range : List Nat
deriving DecidableEq, Repr

/-- Coordinates with the wrapped dimensions reduced (R101 step 2). -/
def wrapCoord (g : Gen) (v : Coord) : Coord :=
  (roleLevels g.nest 0).foldl (fun v l => if l.wrap then v.set l.dim (nth 0 v l.dim % ((nth 1 g.range l.dim : Nat) : Int)) else v) v

/-- A combination of a role is skipped (R101 step 4). -/
def skipped (g : Gen) (role : Nat) (v : Coord) : Bool :=
  (roleLevels g.nest role).any (fun l => l.skip &&
    (decide (nth 0 v l.dim < 0) || decide (((nth 1 g.range l.dim : Nat) : Int) ≤ nth 0 v l.dim)))

/-- The contributions of a role that are kept in a pass, in order (R101 steps 4 and 5). DESIGN CHOICE (log entry 66): where a level of
another role than this one and PASS also names a SKIP level's dimension, its contribution counts as 0 here. -/
def keptOf (g : Gen) (role : Nat) (pass : Coord) : List Coord :=
  (combos (roleLevels g.nest role)).filter (fun c => !skipped g role (wrapCoord g (addV (addV g.start pass) c)))

/-- Contribution of pass p. -/
def passOf (g : Gen) (p : Nat) : Coord := comboAt (roleLevels g.nest 3) p

/-- Starts as coordinates by dimension code; in CONV mode dimension 1's start is that of pix, and 5 and 6 those of kw and kh (R104). -/
def startV (conv : Bool) (l : List Int) : Coord :=
  if conv then [nth 0 l 0, 0, 0, nth 0 l 3, nth 0 l 4, nth 0 l 5, nth 0 l 6, nth 0 l 1]
  else (l.take 5) ++ [0, 0, 0]

/-- The three generators of a descriptor. -/
def genS (t : TileDesc) (td : TDesc) : Gen := { nest := t.s, start := startV false t.sStart, range := td.ext ++ [1, 1, 1] }
def genM (t : TileDesc) (td : TDesc) : Gen :=
  { nest := t.m, start := startV t.conv t.mStart, range := td.ext ++ [t.kw, t.kh, 1] }
/-- D names logical dimensions: the range of one is the extent of the stored dimension that PERM takes from it (R101, R113). -/
def genD (t : TileDesc) (td : TDesc) : Gen :=
  { nest := t.d, start := startV t.conv t.dStart,
    range := (List.range 5).map (fun k => match t.perm.findIdx? (fun q => q = k) with | some j => tdExt td j | none => 1) ++ [t.kw, t.kh, 1] }

/-- Output pixel of a pix coordinate. -/
def pixOf (t : TileDesc) (v : Coord) : Int × Int :=
  let pix := nth 0 v 7
  let w : Int := ((max 1 t.outW : Nat) : Int)
  (pix % w, pix / w)

/-- The input coordinate of a moving element (R104). -/
def moveCoord (t : TileDesc) (v : Coord) : Coord :=
  if t.conv then
    let o := pixOf t v
    let x := o.1 * (t.sx : Int) + nth 0 v 5 * (t.dx : Int) - (t.padL : Int)
    let y := o.2 * (t.sy : Int) + nth 0 v 6 * (t.dy : Int) - (t.padT : Int)
    [nth 0 v 0, x, y, nth 0 v 3, nth 0 v 4]
  else v.take 5

/-- The logical coordinate of a result (R104). DESIGN CHOICE (log entry 66): a level of D that names dimension 1 or 2 in CONV mode, which
R104 forbids to M alone, is accepted and has no effect. -/
def outCoord (t : TileDesc) (v : Coord) : Coord :=
  if t.conv then
    let o := pixOf t v
    [nth 0 v 0, o.1, o.2, nth 0 v 3, nth 0 v 4]
  else v.take 5

/-- A padded position (R105): x or y outside the input. -/
def padded (t : TileDesc) (td : TDesc) (c : Coord) : Bool :=
  t.conv && (decide (nth 0 c 1 < 0) || decide ((tdExt td 1 : Int) ≤ nth 0 c 1) || decide (nth 0 c 2 < 0)
    || decide ((tdExt td 2 : Int) ≤ nth 0 c 2))

/-- The stored coordinates of a logical coordinate (R113). -/
def permute (t : TileDesc) (l : Coord) : Coord := t.perm.map (fun k => nth 0 l k)

/-! ### Block-coordinate lists (R117, R118) -/

/-- An entry of a list (R117). -/
structure ListEntry where
  c : List Nat
  shape : Nat
  ok : Bool
deriving DecidableEq, Repr

def listParse (w : Nat) : ListEntry :=
  { c := (List.range 5).map (fun d => bits w (24 * d + 23) (24 * d)), shape := bits w 123 120, ok := bits w 127 124 = 0 }

/-- The extent of a shape of a block's shape table (R98). -/
def shapeExt (block : List Byte) (td : TDesc) (shape d : Nat) : Nat :=
  bits (blockNat block (td.shapes + 16 * shape) 16) (24 * d + 23) (24 * d) + 1

/-- An element is masked by its offset from the block origin (R118). -/
def maskedBy (block : List Byte) (td : TDesc) (e : ListEntry) (off : Coord) : Bool :=
  (List.range 5).any (fun d => decide (nth 0 off d < 0) || decide (((shapeExt block td e.shape d : Nat) : Int) ≤ nth 0 off d))

/-- A coordinate with the list entry's block origin added in every dimension (R118). DEDUCED (log entry 66): the entry is added to the
coordinates that the generator reaches, so after WRAP, and in CONV mode to x and y or ox and oy. -/
def placed (e : Option ListEntry) (c : Coord) : Coord :=
  match e with
  | some e => addV c (e.c.map Int.ofNat)
  | none => c

/-- Slots per list iteration: the product of the SLOT counts inside the outermost. -/
def innerSlots (ls : List Loop) : Nat := countProd ls.dropLast

/-! ### Rates and roles -/

/-- Two elements per cell per slot (R67). -/
def twoElem (a b : Nat) : Bool := (a = 0xA && (b = 9 || b = 0xA)) || (b = 0xA && a = 9)

/-- The slot period (R67); 0 for a pair no tile accepts. -/
def slotPeriod (a b : Nat) : Nat :=
  if !isMultiplicand a || !isMultiplicand b then 0
  else if !isExact a || !isExact b then 4
  else if twoElem a b then 1
  else if (a = 0xA && b = 8) || (a = 8 && b = 0xA) then 1
  else if (a = 9 || a = 7) && (b = 9 || b = 7) then 1
  else 2

/-- The FP32 path serves the pair (R40). -/
def fp32Pair (a b : Nat) : Bool := !isExact a || !isExact b

/-! ### Checks of GRAPH_LOAD -/

/-- The rules of R100 for one record, used or not: its reserved bits, its dimension code, and where SKIP and WRAP may stand. -/
def loopOk (w : Nat) : Bool :=
  let l := loopParse w
  bits w 31 28 = 0 && bits w 63 56 = 0 && l.dim < 8 && (!l.skip || l.role < 2) && (!l.wrap || (l.role = 0 && !l.skip))

/-- A nest is well formed: every record keeps R100, roles are allowed and non-decreasing, the levels above the last used are unused. -/
def nestOk (w b : Nat) (roles : List Nat) (dims : Nat → Nat → Bool) : Bool :=
  let raw := (List.range 6).map (fun i => bits w (b + 64 * i + 63) (b + 64 * i))
  let ls := raw.map loopParse
  let used := usedLevels ls
  raw.all loopOk
    && (ls.drop used.length).all (fun l => l.count = 0)
    && used.all (fun l => roles.contains l.role && dims l.role l.dim)
    && (List.zip used (used.drop 1)).all (fun p => p.1.role ≤ p.2.role)

/-- The PASS levels that run within one reduction of n passes: those whose inner PASS levels make fewer than n (R73, R74). -/
def reductionLevels (n : Nat) (ls : List Loop) : List Loop :=
  ((ls.zipIdx).filter (fun l => countProd (ls.take l.2) < n)).map (fun l => l.1)

/-- Reserved bits of a tile descriptor are 0. -/
def tileReserved (w : Nat) : Bool :=
  bits w 15 12 = 0 && bits w 63 40 = 0 && bits w 127 81 = 0 && bits w 191 176 = 0 && bits w 223 220 = 0 && !bit w 255 && w >>> 1880 = 0

/-- The numbers of kept rows and columns agree in every pass, and stay in the array (R102). -/
def countsOk (t : TileDesc) (gs gm gd : Gen) (p two : Nat) : Bool :=
  (List.range p).all (fun i =>
    let rs := (keptOf gs 0 (passOf gs i)).length
    let cs := (keptOf gs 1 (passOf gs i)).length
    rs = (keptOf gm 0 (passOf gm i)).length && rs ≤ 128 * two && cs ≤ 256
      && cs = (keptOf gd 1 (passOf gd (i / t.ppb))).length)

/-- Coordinates that S reaches in a pass. -/
def sCoords (gs : Gen) (p : Nat) : List (Nat × Nat × Coord) :=
  let pc := addV gs.start (passOf gs p)
  ((keptOf gs 0 (passOf gs p)).zipIdx).flatMap (fun r =>
    ((keptOf gs 1 (passOf gs p)).zipIdx).map (fun c => (r.2, c.2, (wrapCoord gs (addV (addV pc r.1) c.1)).take 5)))

/-- What M reaches in a slot of a pass, by row element, and the origin of a list's block: the same with every inner level at
iteration 0 (R118; the list's own level has STEP 0). -/
def mRows (gm : Gen) (p slot : Nat) : List (Nat × Coord × Coord) :=
  let o := addV gm.start (passOf gm p)
  let pc := addV o (comboAt (roleLevels gm.nest 2) slot)
  ((keptOf gm 0 (passOf gm p)).zipIdx).map (fun r => (r.2, wrapCoord gm (addV pc r.1), wrapCoord gm o))

/-- What D reaches in a slot of a block, by column, with the origin of a list's block. -/
def dCols (gd : Gen) (b slot : Nat) : List (Nat × Coord × Coord) :=
  let o := addV gd.start (passOf gd b)
  let pc := addV o (comboAt (roleLevels gd.nest 2) slot)
  ((keptOf gd 1 (passOf gd b)).zipIdx).map (fun c => (c.2, wrapCoord gd (addV pc c.1), wrapCoord gd o))

/-- Slots of a pass. -/
def slotsPerPass (t : TileDesc) : Nat := countProd (roleLevels t.m 2)

/-- Passes. -/
def passCount (t : TileDesc) : Nat := countProd (roleLevels t.s 3)

/-- Blocks that the drain stores. -/
def blockCount (t : TileDesc) : Nat := countProd (roleLevels t.d 3)

/-- A moving position is allowed: in its extents, or a pad of R105. -/
def moveOk (t : TileDesc) (td : TDesc) (c : Coord) : Bool :=
  let lim (d : Nat) (lo hi : Nat) : Bool := decide (-(lo : Int) ≤ nth 0 c d) && decide (nth 0 c d < (tdExt td d : Int) + (hi : Int))
  if t.conv then lim 0 0 0 && lim 1 t.padL t.padR && lim 2 t.padT t.padB && lim 3 0 0 && lim 4 0 0 else inExtent td c

/-- In CONV mode kw and kh of every row that M keeps lie in their ranges (R102). -/
def kernelOk (t : TileDesc) (gm : Gen) : Bool :=
  !t.conv || (List.range (passCount t)).all (fun p => (mRows gm p 0).all (fun r =>
    decide (0 ≤ nth 0 r.2.1 5) && decide (nth 0 r.2.1 5 < (t.kw : Int)) && decide (0 ≤ nth 0 r.2.1 6) && decide (nth 0 r.2.1 6 < (t.kh : Int))))

/-- Every coordinate reached lies in its range (R102, R105); elements a list masks or places are checked when its entries are
fetched (R120). -/
def coordsOk (t : TileDesc) (std mtd otd : TDesc) : Bool :=
  let gs := genS t std
  let gm := genM t mtd
  let gd := genD t otd
  let n := slotsPerPass t
  (List.range (passCount t)).all (fun p => (sCoords gs p).all (fun c => inExtent std c.2.2))
    && kernelOk t gm
    && (t.listGen = 1 || (List.range (passCount t)).all (fun p => (List.range n).all (fun i =>
        (mRows gm p i).all (fun r => moveOk t mtd (moveCoord t r.2.1)))))
    && (t.exit || t.listGen = 2 || (List.range (blockCount t)).all (fun b => (List.range n).all (fun i =>
        (dCols gd b i).all (fun r => inExtent otd (permute t (outCoord t r.2.1))))))

/-- Bytes that a tensor covers in its space, as one range. -/
def spanRange (td : TDesc) : Int × Nat := ((tdSpan td).1, ((tdSpan td).2 - (tdSpan td).1).toNat)

/-- A descriptor's stationary and moving bytes (address, length) in its scratchpad (R112). DESIGN CHOICE (log entry 66): which elements a
gather reads is known when its list is, so at load its moving operand covers the whole of its tensor. -/
def operandRanges (t : TileDesc) (std mtd : TDesc) : List (Int × Nat) :=
  let gs := genS t std
  let gm := genM t mtd
  (List.range (passCount t)).flatMap (fun p => (sCoords gs p).map (fun c => ((elemAddr std c.2.2).1, tdUnit std)))
    ++ (if t.listGen = 1 then [spanRange mtd]
        else (List.range (passCount t)).flatMap (fun p => (List.range (slotsPerPass t)).flatMap (fun i =>
          (mRows gm p i).filterMap (fun r =>
            let c := moveCoord t r.2.1
            if padded t mtd c then none else some ((elemAddr mtd c).1, tdUnit mtd)))))

/-- Every byte that a descriptor reads: its operands and its list (R112, R117). -/
def readRanges (t : TileDesc) (std mtd : TDesc) : List (Int × Nat) :=
  operandRanges t std mtd ++ (if t.listGen = 0 then [] else [((t.listOff : Int), 16 * t.listLen)])

/-- The output is the sprout output of its node, whose descriptor lies at offset `port`: it goes to the sprout port and not to the
scratchpad (R192). -/
def toPort (t : TileDesc) (port : Option Nat) : Bool := !t.exit && port = some t.oTd

/-- Bytes that a descriptor writes in its scratchpad; a scatter covers its whole tensor (R112). -/
def writeRanges (t : TileDesc) (port : Option Nat) (otd : TDesc) : List (Int × Nat) :=
  let gd := genD t otd
  if t.exit || toPort t port then []
  else if t.listGen = 2 then [spanRange otd]
  else (List.range (blockCount t)).flatMap (fun b => (List.range (slotsPerPass t)).flatMap (fun i =>
    (dCols gd b i).map (fun r => ((elemAddr otd (permute t (outCoord t r.2.1))).1, tdUnit otd))))

/-- Two lists of byte ranges share a byte. -/
def overlaps (a b : List (Int × Nat)) : Bool :=
  a.any (fun x => b.any (fun y => decide (x.1 < y.1 + (y.2 : Int)) && decide (y.1 < x.1 + (x.2 : Int))))

/-- Lines of 64 bytes that byte ranges touch, each once. -/
def linesOf (l : List (Int × Nat)) : List Nat :=
  dedup (l.flatMap (fun x =>
    let a := x.1.toNat
    (List.range ((a + x.2 - 1) / 64 + 1 - a / 64)).map (fun i => a / 64 + i)))

/-- Lines in the bank that has most of them (R94). -/
def maxPerBank (lines : List Nat) : Nat := maxNat ((List.range 128).map (fun b => countIf (fun l => l % 128 = b) lines))

/-- R108: no fill needs more than 8 lines from one bank. -/
def fillsOk (t : TileDesc) (std : TDesc) : Bool :=
  (List.range (passCount t)).all (fun p =>
    maxPerBank (linesOf ((sCoords (genS t std) p).map (fun c => ((elemAddr std c.2.2).1, tdUnit std)))) ≤ 8)

/-- Stored dimension 0 comes from the SLOT role (R109, R115): the levels of D that name the logical dimension it takes. -/
def dim0Levels (t : TileDesc) : List Loop :=
  let k := nth 0 t.perm 0
  (usedLevels t.d).filter (fun l => l.dim = k || (t.conv && l.dim = 7 && (k = 1 || k = 2)))

/-- Lane rows in an exit group (R109): 32 where stored dimension 0 comes from the SLOT role, else one. -/
def groupRows (t : TileDesc) : Nat := if !t.stream && (dim0Levels t).any (fun l => l.role = 2) then 32 else 1

/-- The slots of a drain block cut into exit groups, in order; a stream's results leave slot by slot (R74, R109). -/
def slotGroups (t : TileDesc) (n : Nat) : List (List Nat) :=
  let g := groupRows t
  (List.range ((n + g - 1) / g)).map (fun k => (List.range (min g (n - g * k))).map (fun i => g * k + i))

/-- R109: no exit group of g lane rows writes more than 2g lines in one bank. DESIGN CHOICE (log entry 66): at load the entries of a
scatter's list are not known, and its groups are judged with the block origin at 0 and nothing masked. -/
def groupsOk (t : TileDesc) (port : Option Nat) (otd : TDesc) : Bool :=
  t.exit || t.stream || toPort t port || (List.range (blockCount t)).all (fun b => (slotGroups t (slotsPerPass t)).all (fun l =>
    maxPerBank (linesOf (l.flatMap (fun i => (dCols (genD t otd) b i).map (fun r =>
      ((elemAddr otd (permute t (outCoord t r.2.1))).1, tdUnit otd))))) ≤ 2 * l.length))

/-- R115: where the elements of an MX output's blocks come from. In CONV mode dimensions 1 and 2 come from pix and not from COL. -/
def mxOk (t : TileDesc) (otd : TDesc) : Bool :=
  let blocked := otd.fmt = 5 || otd.fmt = 6 || otd.fmt = 7
  let k := nth 0 t.perm 0
  let fromCol := match usedLevels t.d with
    | l :: _ => l.role = 1 && l.dim = k && !(t.conv && (k = 1 || k = 2)) && l.step = 1 && l.count % 32 = 0 && nth 0 t.dStart k % 32 = 0
    | [] => false
  let fromSlot := !t.stream && (dim0Levels t).any (fun l => l.role = 2) && slotsPerPass t % 32 = 0
  t.exit || !blocked || fromCol || fromSlot

/-- A multiset of five codes that is a permutation of 0-4. -/
def permOk (l : List Nat) : Bool := (List.range 5).all (fun k => l.contains k)

/-- The rules for one tile descriptor of a block, in a node whose sprout output, if it has one, has its descriptor at offset `port`.
DESIGN CHOICE (log entry 66): with EXIT = 1 no descriptor describes D's output; the ranges of D's SKIP levels, and the shape table of a
list that D has, are then those of M's. -/
def tileOk (block : List Byte) (port : Option Nat) (off : Nat) : Bool :=
  let w := blockNat block off 256
  let t := tileParse w
  let tdAt (o : Nat) : Bool := o + 128 ≤ block.length && tdOk (blockNat block o 128)
  let std := blockTd block t.sTd
  let mtd := blockTd block t.mTd
  let otd := if t.exit then mtd else blockTd block t.oTd
  let two := if twoElem std.fmt mtd.fmt then 2 else 1
  let noConv (_ : Nat) (d : Nat) : Bool := d < 5
  let mDims (role d : Nat) : Bool :=
    if t.conv then d < 8 && d ≠ 1 && d ≠ 2 && (d < 5 || (d < 7 && (role = 0 || role = 3)) || (d = 7 && (role = 2 || role = 3)))
    else d < 5
  let dDims (role d : Nat) : Bool := d < 5 || (t.conv && d = 7 && (role = 2 || role = 3))
  let n := slotsPerPass t
  let p := passCount t
  let listTd := if t.listGen = 1 then mtd else otd
  let listLevel := (roleLevels (if t.listGen = 1 then t.m else t.d) 2).getLast?
  let shapesOk (td : TDesc) : Bool :=
    !td.shapesV || (td.shapes + 256 ≤ block.length
      && (List.range 16).all (fun e => blockNat block (td.shapes + 16 * e) 16 >>> 120 = 0
          && shapeExt block td e 0 % blockLen td.fmt td.scaled = 0))
  tileReserved w && t.kind = 1 && t.mode < 2 && 1 ≤ t.ppb && (!t.exit || !t.stream)
    && t.sTd % 128 = 0 && tdAt t.sTd && tdAt t.mTd && (if t.exit then t.oTd = 0 else tdAt t.oTd)
    && std.space = 1 && mtd.space = 1 && (t.exit || ((otd.space = 1 || toPort t port) && isStore otd.fmt otd.scaled))
    && shapesOk std && shapesOk mtd && (t.exit || shapesOk otd)
    && slotPeriod std.fmt mtd.fmt ≠ 0
    && (!fp32Pair std.fmt mtd.fmt
        || (reductionLevels t.ppb (roleLevels t.s 3) ++ reductionLevels t.ppb (roleLevels t.m 3)).all (fun l => 0 ≤ l.step))
    && nestOk w 320 [0, 1, 3] noConv && nestOk w 704 [0, 2, 3] mDims && nestOk w 1088 [1, 2, 3] dDims
    && (if t.conv then t.kw ≠ 0 && t.kh ≠ 0 && t.outW ≠ 0 && nth 0 t.mStart 2 = 0 && nth 0 t.dStart 2 = 0
          && (!tdBlocked mtd || (t.padL = 0 && t.padR = 0 && t.padT = 0 && t.padB = 0))
          && (tdUnit mtd ≠ 1 || t.padValue < 256)
        else bits w 319 256 = 0)
    && t.listGen < 3 && (t.listLen = 0) = (t.listGen = 0) && t.listOff % 64 = 0
    && (t.listGen = 0 || (listTd.shapesV && (match listLevel with
        | some l => l.count = t.listLen && l.step = 0
        | none => false)))
    && permOk t.perm
    && n = countProd (roleLevels t.d 2) && n ≤ (if t.stream then 1048575 else 512)
    && p = countProd (roleLevels t.m 3)
    && (if t.stream then t.ppb = 1 && blockCount t = p else p % t.ppb = 0 && blockCount t = p / t.ppb)
    && countsOk t (genS t std) (genM t mtd) (genD t otd) p two
    && coordsOk t std mtd otd && fillsOk t std && groupsOk t port otd && mxOk t otd
    && !overlaps (writeRanges t port otd) (operandRanges t std mtd)
    && (if t.end_ then t.link = 0 else t.link % 256 = 0 && t.link + 256 ≤ block.length)

/-- The offsets of a program's descriptors in chain order, none where the chain returns or has more than 255 (R111). -/
def tileChain (fuel : Nat) (block : List Byte) (off : Nat) (seen : List Nat) : Option (List Nat) :=
  match fuel with
  | 0 => none
  | f + 1 =>
    if block.length < off + 256 ∨ seen.contains off then none
    else
      let t := blockTile block off
      if t.end_ then some (seen ++ [off]) else tileChain f block t.link (seen ++ [off])

/-- A descriptor block keeps every rule (R93, R111, R112). -/
def tileBlockOk (block : List Byte) (port : Option Nat) (prog : Nat) : Bool :=
  match tileChain 255 block prog [] with
  | none => false
  | some offs =>
    offs.all (tileOk block port)
      && (offs.zipIdx).all (fun o => (offs.drop (o.2 + 1)).all (fun q =>
          let a := blockTile block o.1
          let b := blockTile block q
          !overlaps (writeRanges a port (blockTd block a.oTd)) (readRanges b (blockTd block b.sTd) (blockTd block b.mTd))))

end Sys2Proof.Machine
end

