-- ==== Sys2Proof/Machine/Graphs.lean ====
section
/-! DEFINITION. Graph images (R234-R242): header, node records, bodies, launch descriptors (R133), gangs, and every check that
GRAPH_LOAD makes of them. -/

namespace Sys2Proof.Machine

open Sys2Proof

/-- The little-endian number of n bytes at an offset of an image. -/
def imgNat (img : List Byte) (off n : Nat) : Nat := leNat ((img.drop off).take n)

/-! ### Header and node records -/

def hdrNodes (h : Nat) : Nat := bits h 60 48
def hdrNodeOff (h : Nat) : Nat := bits h 127 96
def hdrEdgeOff (h : Nat) : Nat := bits h 159 128
def hdrEdgeLen (h : Nat) : Nat := bits h 175 160
def hdrBufOff (h : Nat) : Nat := bits h 223 192
def hdrBufLen (h : Nat) : Nat := bits h 239 224
def hdrLcCap (h : Nat) : Nat := bits h 245 240

/-- The rules of R235 for the header of an image of the given length. -/
def hdrOk (h len : Nat) : Bool :=
  bits h 31 0 = 0x59524A46 && bits h 47 32 = 1 && 1 ≤ hdrNodes h && hdrNodes h ≤ 4096 && bits h 63 61 = 0
    && bits h 95 64 = len && len % 64 = 0 && 256 ≤ len && len ≤ 268435456
    && hdrNodeOff h % 128 = 0 && hdrEdgeOff h % 64 = 0 && hdrBufOff h % 128 = 0 && bits h 191 176 = 0
    && hdrLcCap h ≤ 48 && bits h 255 246 = 0 && bits h 2047 320 = 0
    && hdrNodeOff h + 128 * hdrNodes h ≤ len && hdrEdgeOff h + 4 * hdrEdgeLen h ≤ len
    && hdrBufOff h + 128 * hdrBufLen h ≤ len

/-- A node record (R236) with its successors. -/
def nodeParse (img : List Byte) (h n : Nat) : NodeRec :=
  let w := imgNat img (hdrNodeOff h + 128 * n) 128
  let first := bits w 207 192
  { kind := bits w 3 0, cores := 2 ^ bits w 5 4, peer := bit w 6, sprout := bit w 7, gang := bits w 19 8, costCyc := bits w 63 32,
    costSer := bits w 95 64, routes := [bits w 111 96, bits w 127 112, bits w 143 128, bits w 159 144, bits w 175 160],
    succ := (List.range (bits w 219 208)).map (fun i => bits (imgNat img (hdrEdgeOff h + 4 * (first + i)) 4) 11 0),
    bodyOff := bits w 255 224, blkLen := bits w 266 256, progOff := bits w 287 272,
    outs := (List.range 4).map (fun i => bits w (288 + 16 * i + 15) (288 + 16 * i)),
    qbase := bits w 373 352, qlen := bits w 388 374, chan := bits w 392 389, sproutTd := bits w 431 416, value := bits w 479 448 }

/-- Reserved bits of a node record, and the fields that its kind does not use (R15, R236). -/
def nodeUnused (w kind : Nat) : Bool :=
  let core := kind = 1 || kind = 2 || kind = 4
  let cost := core || kind = 3
  bits w 31 20 = 0 && bits w 191 176 = 0 && bits w 223 220 = 0 && bits w 271 267 = 0 && bits w 415 393 = 0 && bits w 447 432 = 0
    && bits w 1023 480 = 0
    && (core || bits w 5 4 = 0) && (kind = 1 || !bit w 7) && (cost || (bits w 63 32 = 0 && bits w 95 64 = 0 && bits w 175 96 = 0))
    && (kind ≠ 6 || bits w 255 224 = 0) && (kind = 1 || (bits w 266 256 = 0 && bits w 287 272 = 0))
    && (kind = 4 || bits w 392 352 = 0) && (bit w 7 || bits w 431 416 = 0) && (kind = 6 || bits w 479 448 = 0)

/-- The edges of a node keep R237. -/
def edgesOk (img : List Byte) (h n : Nat) : Bool :=
  let w := imgNat img (hdrNodeOff h + 128 * n) 128
  let first := bits w 207 192
  let cnt := bits w 219 208
  let es := (List.range cnt).map (fun i => imgNat img (hdrEdgeOff h + 4 * (first + i)) 4)
  (cnt = 0 || first + cnt ≤ hdrEdgeLen h)
    && es.all (fun e => e / 4096 = 0 && n < e && e < hdrNodes h) && (dedup es).length = cnt

/-! ### Bodies -/

/-- A launch descriptor (R133). -/
def launchParse (w : Nat) : LaunchDesc :=
  { lc := bit w 4, barrier := bit w 5, resGroups := bits w 12 8 + 1, anchor := signed 8 (bits w 23 16), sharedKib := bits w 32 24,
    gx := bits w 87 64 + 1, gy := bits w 111 88 + 1, gz := bits w 135 112 + 1, code := bits w 239 192, codeLen := bits w 269 256,
    args := bits w 335 288, localBase := bits w 373 352, localLen := bits w 396 374, seed := BitVec.ofNat 32 (bits w 447 416) }

/-- Threads and thread groups of a grid (R135). -/
def gridThreads (d : LaunchDesc) : Nat := d.gx * d.gy * d.gz
def gridGroups (d : LaunchDesc) : Nat := ceilDiv (gridThreads d) 32

/-- A device address is in a peer or expander window (R35). -/
def inWindowRow (a : Nat) : Bool := rangeRow (a : Int) = some 6

/-- The rules of R133 and R137 for a launch of a pod on `cores` bank groups. -/
def launchOk (s : State) (p cores : Nat) (peer : Bool) (w : Nat) : Bool :=
  let d := launchParse w
  bits w 3 0 = 2 && bits w 7 6 = 0 && bits w 15 13 = 0 && bits w 63 33 = 0 && bits w 191 136 = 0 && bits w 255 240 = 0
    && bits w 287 270 = 0 && bits w 351 336 = 0 && bits w 415 397 = 0 && bits w 1023 448 = 0
    && d.sharedKib ≤ 256 && gridThreads d ≤ 2 ^ 24 && 1 ≤ d.codeLen && d.codeLen ≤ 8192
    && d.code % 8 = 0 && (match rangeRow (d.code : Int) with | some r => r < 3 | none => false)
    && podReaches s p d.code (8 * d.codeLen) false
    && d.args % 64 = 0 && (peer || !inWindowRow d.args)
    && d.localBase % 64 = 0 && d.localLen % 64 = 0 && d.localBase + d.localLen ≤ 0x400000
    && (!d.barrier || ceilDiv (gridGroups d) (16 * cores) ≤ d.resGroups)

/-- A copy body (R239). -/
structure CopyBody where
  gather : Bool
  final : Bool
  peerSrc : Bool
  peerDst : Bool
  peerIdx : Nat
  src : Nat
  dst : Nat
  row : Nat
  posA : Nat
  posB : Nat
  l0 : Nat
  l1 : Nat
deriving DecidableEq, Repr

def copyParse (w : Nat) : CopyBody :=
  { gather := bits w 1 0 = 1, final := bit w 2, peerSrc := bit w 3, peerDst := bit w 4, peerIdx := bits w 11 8, src := bits w 31 16,
    dst := bits w 47 32, row := bits w 59 48, posA := bits w 87 64, posB := bits w 112 88, l0 := bits w 135 128, l1 := bits w 143 136 }

/-- A tensor names a peer or expander window (R241). -/
def tdWindow (t : TDesc) : Bool := t.space = 0 && inWindowRow t.base

/-- The rules of R190, R239 and R241 for a copy body over the graph's buffers. -/
def copyOk (bufs : List TDesc) (peer : Bool) (w : Nat) : Bool :=
  let b := copyParse w
  let blank : TDesc := tdParse 0
  let d := nth blank bufs b.dst
  let s := nth blank bufs b.src
  bits w 1 0 < 2 && bits w 7 5 = 0 && bits w 15 12 = 0 && bits w 63 60 = 0 && bits w 127 113 = 0 && bits w 511 144 = 0
    && (peer || !(b.peerSrc || b.peerDst)) && b.dst < bufs.length && (peer || b.peerDst || !tdWindow d)
    && (if b.gather then
          b.posA < b.posB && b.posB ≤ 16777216 && b.l0 ≤ b.l1 && 4 ≤ d.ndim && tdExt d 1 = b.posB - b.posA && tdExt d 3 = 2
            && (if d.ndim = 4 then b.l0 = b.l1 else tdExt d 4 = b.l1 - b.l0 + 1)
        else
          b.src < bufs.length && (peer || b.peerSrc || !tdWindow s) && s.ndim = d.ndim && s.ext = d.ext
            && ((!tdBlocked s && !tdBlocked d && isStore s.fmt s.scaled && isStore d.fmt d.scaled)
              || (s.fmt = d.fmt && s.scaled = d.scaled)))

/-- A sync body (R240): mode, channel, address, length, count. -/
structure SyncBody where
  mode : Nat
  chan : Nat
  addr : Nat
  len : Nat
  count : Nat
deriving DecidableEq, Repr

def syncParse (w : Nat) : SyncBody :=
  { mode := bits w 1 0, chan := bits w 15 8, addr := bits w 111 64, len := bits w 159 112, count := bits w 255 192 }

/-- The rules of R240, R241, R303 and R307 for a sync body. -/
def syncOk (peer : Bool) (w : Nat) : Bool :=
  let b := syncParse w
  bits w 7 2 = 0 && bits w 63 16 = 0 && bits w 191 160 = 0 && bits w 511 256 = 0
    && (b.mode = 3 || (b.chan = 0 && b.count = 0)) && (b.mode = 1 || b.mode = 2 || (b.addr = 0 && b.len = 0))
    && (b.mode ≠ 3 || (peer && b.chan < 16))
    && (!(b.mode = 1 || b.mode = 2) || (b.addr % 64 = 0 && b.len % 64 = 0 && b.len ≠ 0))

/-- A sprout output descriptor keeps R192 in a pod, and names a window only in a node with PEER (R241). -/
def sproutTdOk (s : State) (p : Nat) (peer : Bool) (w : Nat) : Bool :=
  let t := tdParse w
  tdOk w && (peer || !tdWindow t) && t.rnd < 2 && (t.fmt = 3 || t.fmt = 7) && (List.range 4).any (fun q => match poolOf s p q with
    | some r => r.2.fmt = t.fmt
    | none => false)

/-- The span of a tensor in granules: first granule and count (R379). -/
def tdGranules (t : TDesc) : Nat × Nat :=
  let sp := tdSpan t
  let lo := sp.1.toNat / 64
  (lo, (sp.2 - 1).toNat / 64 + 1 - lo)

/-- Where a MATRIX node's sprout output has its descriptor in each block (R236). -/
def sproutPort (r : NodeRec) : Option Nat := if r.sprout then some r.sproutTd else none

/-- Block t of a MATRIX node (R238). -/
def matrixBlock (img : List Byte) (r : NodeRec) (t : Nat) : List Byte :=
  (img.drop (r.bodyOff + 64 * r.blkLen * t)).take (64 * r.blkLen)

/-- The body of a node keeps the rules of its kind. -/
def bodyOk (s : State) (p : Nat) (img : List Byte) (bufs : List TDesc) (r : NodeRec) : Bool :=
  let fits (n : Nat) : Bool := r.bodyOff % 64 = 0 && r.bodyOff + n ≤ img.length
  match r.kind with
  | 1 =>
    1 ≤ r.blkLen && r.blkLen ≤ 1024 && fits (64 * r.blkLen * 8 * r.cores) && r.progOff + 256 ≤ 64 * r.blkLen
      && (!r.sprout || r.sproutTd + 128 ≤ 64 * r.blkLen)
      && (List.range (8 * r.cores)).all (fun t =>
        tileBlockOk (matrixBlock img r t) (sproutPort r) r.progOff
          && (!r.sprout || sproutTdOk s p r.peer (blockNat (matrixBlock img r t) r.sproutTd 128)))
  | 2 => fits 128 && launchOk s p r.cores r.peer (imgNat img r.bodyOff 128)
  | 4 => fits 128 && launchOk s p r.cores r.peer (imgNat img r.bodyOff 128) && r.qbase % 64 = 0 && 1 ≤ r.qlen && r.qlen ≤ 16384 && r.chan ≠ 15
  | 3 => fits 64 && copyOk bufs r.peer (imgNat img r.bodyOff 64)
  | 5 => fits 64 && syncOk r.peer (imgNat img r.bodyOff 64)
  | _ => true

/-- Outputs name buffers of allowed span (R236, R241, R379). -/
def outsOk (bufs : List TDesc) (r : NodeRec) : Bool :=
  r.outs.all (fun o => o = 0xFFFF || (r.kind ≠ 5 && r.kind ≠ 6 && o < bufs.length
    && (match bufs[o]? with
      | some t => (tdGranules t).2 ≤ 2 ^ 32 - 2 && (r.peer || !tdWindow t)
      | none => false)))

/-- The members of the gang of a node, ascending (R242): itself alone when it is in none. -/
def gangOf (nodes : List NodeRec) (n : Nat) : List Nat :=
  match nodes[n]? with
  | none => [n]
  | some r => (List.range nodes.length).filter (fun m => match nodes[m]? with | some q => q.gang = r.gang | none => false)

/-- Gangs keep R242. -/
def gangsOk (nodes : List NodeRec) : Bool :=
  (nodes.zipIdx).all (fun q =>
    let g := q.1.gang
    let n := q.2
    if g = n then true
    else
      g < n && n - g ≤ 15
        && (match nodes[g]?, nodes[n - 1]? with
          | some l, some b => l.gang = g && b.gang = g && l.kind = q.1.kind
          | _, _ => false)
        && (q.1.kind = 1 || q.1.kind = 2 || q.1.kind = 4))
    && (nodes.zipIdx).all (fun q => q.1.succ.all (fun t => match nodes[t]? with | some r => r.gang ≠ q.1.gang | none => false))

/-- What an image holds, when it keeps every rule that names BAD_ARG (R234); none when it breaks one. -/
def graphParse (s : State) (p : Nat) (img : List Byte) : Option Graph :=
  let h := imgNat img 0 256
  if !hdrOk h img.length then none
  else
    let ids := List.range (hdrNodes h)
    let rec_ (n : Nat) : Nat := imgNat img (hdrNodeOff h + 128 * n) 128
    let tds := (List.range (hdrBufLen h)).map (fun i => imgNat img (hdrBufOff h + 128 * i) 128)
    let bufs := tds.map tdParse
    let nodes := ids.map (nodeParse img h)
    if tds.all tdOk
        && ids.all (fun n => 1 ≤ bits (rec_ n) 3 0 && bits (rec_ n) 3 0 ≤ 6 && nodeUnused (rec_ n) (bits (rec_ n) 3 0) && edgesOk img h n)
        && nodes.all (fun r => outsOk bufs r && bodyOk s p img bufs r) && gangsOk nodes then
      some
        { pod := p, id := 0, lcCap := hdrLcCap h, storeAt := 0, image := img, nodes := nodes, bufs := bufs, loaded := false,
          peer := nodes.any (fun r => r.peer),
          step := nodes.any (fun r => r.kind = 4 || r.sprout || (r.kind = 3 && (copyParse (imgNat img r.bodyOff 64)).gather)) }
    else none

/-! ### Readers -/

/-- A loaded graph of a pod. -/
def getGraph (s : State) (p id : Nat) : Option Graph := s.graphs.find? (fun g => g.pod = p && g.id = id && g.loaded)

/-- A node's record in the graph of an instance. -/
def graphOf (s : State) (i : Inst) : Option Graph := s.graphs.find? (fun g => g.id = i.graph)
def nodeRec (g : Graph) (n : Nat) : NodeRec := (g.nodes[n]?).getD (nodeParse [] 0 0)

/-- Bodies of a node. -/
def launchOf (g : Graph) (r : NodeRec) : LaunchDesc := launchParse (imgNat g.image r.bodyOff 128)
def copyOf (g : Graph) (r : NodeRec) : CopyBody := copyParse (imgNat g.image r.bodyOff 64)
def syncOf (g : Graph) (r : NodeRec) : SyncBody := syncParse (imgNat g.image r.bodyOff 64)

/-- Predecessors of a node. -/
def predsOf (g : Graph) (n : Nat) : List Nat :=
  (List.range n).filter (fun m => (nodeRec g m).succ.contains n)

/-- Direct and indirect successors of a node, ascending. -/
def downstream (g : Graph) (n : Nat) : List Nat :=
  (List.range g.nodes.length).foldl (fun l m => if (predsOf g m).any (fun q => q = n || l.contains q) then l ++ [m] else l) []

/-- A graph that a slice's fence has unloaded (R371): neither loaded nor in the course of a load or unload. -/
def graphLost (s : State) (g : Graph) : Bool :=
  !g.loaded && !s.cmds.any (fun c => c.work = .graphLoad g.pod g.id || c.work = .graphUnload g.pod g.id)

/-- Graphs of a pod, loaded or in the course of a load or unload (R234). -/
def podGraphs (s : State) (p : Nat) : List Graph := s.graphs.filter (fun g => g.pod = p && !graphLost s g)

/-- Bytes of a pod's graph store that loaded graphs use: (first, end), ascending by load. -/
def storeUsed (s : State) (p : Nat) : List (Nat × Nat) :=
  (podGraphs s p).map (fun g => (g.storeAt, g.storeAt + g.image.length))

/-- Bytes of a pod's graph store in fenced slices. -/
def storeLost (s : State) (p : Nat) : List (Nat × Nat) :=
  (((getPod s p).graphSlices.zipIdx).filter (fun q => sliceFenced s q.1)).map (fun q => (q.2 * 0x8000000, (q.2 + 1) * 0x8000000))

/-- First fit of n bytes in the graph store of a pod, none when there is no room (R234). -/
def storeFit (s : State) (p n : Nat) : Option Nat :=
  let used := storeUsed s p ++ storeLost s p
  let size := (getPod s p).graphSlices.length * 0x8000000
  let starts := sortNat (0 :: used.map (fun u => u.2))
  starts.find? (fun a => a + n ≤ size && used.all (fun u => u.2 ≤ a || a + n ≤ u.1))

/-- Device address of byte k of a graph's copy in its pod's graph store (R234). -/
def storeAddr (s : State) (g : Graph) (k : Nat) : Nat :=
  let x := g.storeAt + k
  addrSlice (nth 0 (getPod s g.pod).graphSlices (x / 0x8000000)) + x % 0x8000000

/-- Slices that hold bytes of a graph. -/
def graphSlicesOf (s : State) (g : Graph) : List Nat :=
  let l := (getPod s g.pod).graphSlices
  (List.range l.length).filterMap (fun i =>
    if i * 0x8000000 < g.storeAt + g.image.length ∧ g.storeAt < (i + 1) * 0x8000000 then l[i]? else none)

end Sys2Proof.Machine
end

