-- ==== Sys2Proof/Machine/KvPages.lean ====
section
/-! DEFINITION. Key-value pages: layout (R175-R179), frame allocation (R180), growth (R209), page descriptors and walks (R184-R187),
and the sprout port (R191-R194, R219). -/

namespace Sys2Proof.Machine

open Sys2Proof

/-! ### Layout -/

/-- V: bytes of a head vector (R175). -/
def kvV (fmt hdim : Nat) : Nat := if fmt = 7 then 17 * hdim / 32 else hdim
def regV (r : Region) : Nat := kvV r.fmt r.hdim
/-- U: bytes of a unit-layer (R175). -/
def regU (r : Region) : Nat := 2 * r.heads * 16 * regV r
/-- Frame bytes (R175). -/
def frameBytes (r : Region) : Nat := r.layers * regU r

/-- Positions of a page set. -/
def pageP (sizeExp : Nat) : Nat := 2 ^ sizeExp
/-- m: units of each residue (R177). -/
def pageM (sizeExp : Nat) : Nat := max 1 (pageP sizeExp / 256)
/-- Residues of a page set: consecutive from that of FIRST (R177). -/
def residues (first sizeExp : Nat) : List Nat :=
  (List.range (min 16 (pageP sizeExp / 16))).map (fun i => (first / 16 + i) % 16)

/-- Stack that holds a residue in a pool (R178). -/
def holderOf (r : Region) (res : Nat) : Nat := nth 0 r.holder res
/-- Residues of a page set that a stack holds, ascending. -/
def heldBy (r : Region) (first sizeExp st : Nat) : List Nat :=
  sortNat ((residues first sizeExp).filter (fun x => holderOf r x = st))
/-- k of R179: lower residues of the page set in the same stack. -/
def pieceIndex (r : Region) (first sizeExp res : Nat) : Nat :=
  countIf (fun x => x < res) (heldBy r first sizeExp (holderOf r res))

/-- Stack offset of the piece of a residue (R179, R184). -/
def pieceOff (r : Region) (first sizeExp frame res : Nat) : Nat :=
  r.off + (frame + pieceIndex r first sizeExp res * pageM sizeExp) * frameBytes r

/-- Device address of byte `b` of the head vector of a position, layer, head and kind (R179). -/
def kvAddr (r : Region) (first sizeExp frame pos layer head : Nat) (value : Bool) (b : Nat) : Nat :=
  let res := pos / 16 % 16
  addrStack (holderOf r res) (pieceOff r first sizeExp frame res + layer * pageM sizeExp * regU r
    + ((pos - first) / 256) * regU r + (2 * head + b2n value) * 16 * regV r + (pos % 16) * regV r + b)

/-- Byte offset of an element in its head vector (R176), and its place in an MXFP4 record. -/
def elemByte (fmt e : Nat) : Nat := if fmt = 7 then e / 32 * 17 else e

/-! ### Frames (R180) -/

/-- Frames that a page set takes: (stack, frame) pairs from frame F on. -/
def framesOf (r : Region) (first sizeExp frame : Nat) : List (Nat × Nat) :=
  (List.range 16).flatMap (fun st =>
    (List.range ((heldBy r first sizeExp st).length * pageM sizeExp)).map (fun i => (st, frame + i)))

/-- Frames of a page set summed over stacks. -/
def frameCount (sizeExp : Nat) : Nat := (min 16 (pageP sizeExp / 16)) * pageM sizeExp

/-- Frames of each stack's share of a pool: FRAMES of its map (R174, R269). -/
def poolFrames (r : Region) : Nat := r.frames

/-- The lowest frame index that fits a page set, if any (R180). -/
def findFrame (r : Region) (first sizeExp : Nat) : Option Nat :=
  (List.range (poolFrames r)).find? (fun f =>
    (framesOf r first sizeExp f).all (fun x => x.2 < poolFrames r && !r.used.contains x))

/-- Frames taken and given back in a pool. -/
def takeFrames (l : List (Nat × Nat)) (r : Region) : Region := { r with used := r.used ++ l }
def giveFrames (l : List (Nat × Nat)) (r : Region) : Region := { r with used := r.used.filter (fun x => !l.contains x) }

/-- Change a pod's pool. -/
def modPool (p pool : Nat) (f : Region → Region) (s : State) : State :=
  match poolOf s p pool with
  | some (id, r) => setRegion id (some (f r)) s
  | none => s

/-- Put a page set's frames on the chaff list (R196). -/
def chaffSet (p pool : Nat) (e : Pte) (s : State) : State :=
  match poolOf s p pool with
  | some (_, r) =>
    modPod p (fun v => { v with chaff := v.chaff ++ (framesOf r e.first e.sizeExp e.frame).map (fun x => (pool, x.1, x.2, 1)) }) s
  | none => s

/-- Allocate one page set in a pool (R180): its entry, or none. -/
def allocSet (p pool first sizeExp : Nat) (s : State) : Option (Pte × State) :=
  match poolOf s p pool with
  | none => none
  | some (_, r) =>
    match findFrame r first sizeExp with
    | none => none
    | some f =>
      some ({ first := first, sizeExp := sizeExp, st := .resident, frame := f, rc := 0, park := 0 },
        modPool p pool (takeFrames (framesOf r first sizeExp f)) s)

/-! ### Growth (R209) -/

/-- Size exponent of a page set appended at a position (R209). -/
def growExp (pageExp first : Nat) : Nat :=
  ((List.range (pageExp + 1)).filter (fun e => first % 2 ^ e = 0)).foldl max 0

/-- The position where a table ends. -/
def tableEnd (pt : List Pte) : Nat :=
  match pt.getLast? with
  | some e => e.first + pageP e.sizeExp
  | none => 0

/-- Page sets (FIRST, SIZE_EXP) that growth to an end position appends, by fuel. -/
def growPlan (fuel pageExp start stop : Nat) : List (Nat × Nat) :=
  match fuel with
  | 0 => []
  | f + 1 =>
    if stop ≤ start then []
    else
      let e := growExp pageExp start
      (start, e) :: growPlan f pageExp (start + 2 ^ e) stop

/-- Index of the entry that holds a position; the table's length where none does (R204). -/
def tailIndex (pt : List Pte) (pos : Nat) : Nat :=
  (pt.findIdx? (fun e => e.first ≤ pos && pos < e.first + pageP e.sizeExp)).getD pt.length

/-- The entry that covers a position. -/
def entryAt (pt : List Pte) (pos : Nat) : Option Pte := pt.find? (fun e => e.first ≤ pos && pos < e.first + pageP e.sizeExp)

/-! ### Walks (R184-R188) -/

/-- A page descriptor (R184), LAST apart. -/
def descWord (r : Region) (stream row winEnd : Nat) (e : Pte) (res : Nat) : Nat :=
  e.first + at_ 24 e.sizeExp + at_ 28 r.fmt + at_ 32 stream + at_ 48 res + at_ 52 (pageM e.sizeExp - 1) + at_ 64 row
    + at_ 76 (min (pageP e.sizeExp) (winEnd - e.first)) + at_ 96 (pieceOff r e.first e.sizeExp e.frame res)
    + at_ 144 (pageM e.sizeExp * regU r)

/-- Descriptors that one stack gets for one row's entries, in table order (R185, R186), the last with LAST set. -/
def rowDescs (r : Region) (stream row winEnd st : Nat) (pt : List Pte) : List Nat :=
  let l := pt.flatMap (fun e =>
    if e.st = .resident ∨ e.st = .shared then (heldBy r e.first e.sizeExp st).map (descWord r stream row winEnd e) else [])
  match l.getLast? with
  | some x => l.dropLast ++ [x + at_ 55 1]
  | none => []

/-- One table entry walked by a stack's page-walk unit (R187): from the buffer, or from the table into the buffer. -/
def pwuEntry (st stream idx : Nat) (e : Pte) (s : State) : Pte × State :=
  let u := SMap.get {} s.pwu st
  match u.lab.find? (fun l => l.stream = stream && l.index = idx) with
  | some l => (l.pte, { s with pwu := SMap.set {} s.pwu st { u with hits := satAdd 0xFFFF u.hits 1 } })
  | none =>
    let lab := u.lab ++ [{ stream := stream, index := idx, pte := e }]
    let v : Pwu := { u with misses := satAdd 0xFFFF u.misses 1, lab := if 256 < lab.length then lab.drop 1 else lab }
    (e, { s with pwu := SMap.set {} s.pwu st v })

/-- The entries of a table as a stack's page-walk unit finds them, in order. -/
def pwuTable (st stream : Nat) (pt : List Pte) (s : State) : List Pte × State :=
  (pt.zipIdx).foldl (fun r q => let x := pwuEntry st stream q.2 q.1 r.2; (r.1 ++ [x.1], x.2)) ([], s)

/-- Drop look-aside entries of a unit, one invalidation counted (R187, R201). -/
def pwuInval (st : Nat) (keep : LabEntry → Bool) (s : State) : State :=
  let u := SMap.get {} s.pwu st
  { s with pwu := SMap.set {} s.pwu st { u with lab := u.lab.filter keep, invals := satAdd 0xFFFF u.invals 1 } }

/-- At a boundary of a pod, its streams' entries leave every buffer that holds them (R187). -/
def pwuBoundary (p : Nat) (s : State) : State :=
  (List.range 16).foldl (fun s st =>
    let mine (l : LabEntry) : Bool := (getStream s l.stream).pod = p && (getStream s l.stream).state ≠ .free
    if (SMap.get {} s.pwu st).lab.any mine then pwuInval st (fun l => !mine l) s else s) s

/-- A page table of a stream holds poison (R366). -/
def tablePoisoned (s : State) (e : Stream) : Bool :=
  e.pt ≠ [] && (List.range ((e.ptAddr + 16 * e.pt.length - 1) / 64 + 1 - e.ptAddr / 64)).any (fun i =>
    SMap.get false s.poison (e.ptAddr / 64 + i))

/-- The descriptors of one stack for the rows of a step (R185): ascending row, sinks and leaves apart. -/
def walkStack (p st : Nat) (rows : List StepRow) (s : State) : List Nat × State :=
  (rows.zipIdx).foldl (fun acc q =>
    let row := q.1
    let e := getStream acc.2 row.stream
    if row.kind ≥ 2 then acc
    else match poolOf acc.2 p e.pool with
      | none => acc
      | some (_, r) =>
        let (pt, s1) := if (getPod acc.2 p).walk then pwuTable st row.stream e.pt acc.2 else (e.pt, acc.2)
        (acc.1 ++ rowDescs r row.stream q.2 (row.wp + row.n) st pt, s1)) ([], s)

/-! ### The sprout port (R191-R194, R219) -/

/-- The window of a stream in an instance. -/
def windowOf (s : State) (p inst stream : Nat) : Option Window :=
  s.sprout.find? (fun w => w.pod = p && w.inst = inst && w.stream = stream)

/-- Key of a byte count in a window. -/
def countKey (w : Window) (pos layer : Nat) (value : Bool) : Nat := ((pos - w.first) * 256 + layer) * 2 + b2n value

/-- What a port answers to a write. -/
inductive PortOut where
  /-- discarded at a sink row (R219): granules counted -/
  | sink (granules : Nat)
  /-- dropped, and the node ends FAULTED with this cause (R192, R193) -/
  | fault (cause : Nat)
  /-- written: bytes by address, holding stack, payload bytes counted -/
  | write (writes : List (Nat × List (Byte × Bool))) (stack : Nat) (bytes : Nat)
deriving DecidableEq, Repr

/-- Pieces of a write by head: (head, byte offset in the head vector, bytes). -/
def headPieces (r : Region) (w : PortWrite) : List (Nat × Nat × List (Byte × Bool)) :=
  if w.sprt then
    let bytes := w.pieces.flatMap (fun q => q.2)
    (List.range r.heads).map (fun h => (h, 0, (bytes.drop (h * regV r)).take (regV r)))
  else w.pieces.map (fun q => (q.1 / max 1 r.hdim, elemByte r.fmt (q.1 % max 1 r.hdim), q.2))

/-- Payload bytes of a list of pieces. -/
def pieceBytes (l : List (Nat × Nat × List (Byte × Bool))) : Nat := (l.map (fun q => q.2.2.length)).foldl (· + ·) 0

/-- Granules of an SPRT payload. -/
def payloadGranules (w : PortWrite) : Nat := ceilDiv ((w.pieces.map (fun q => q.2.length)).foldl (· + ·) 0) 64

/-- The port's checks, in order, before it writes any byte (R192, R193, R219), against the page-table entries and the holder map that the
release loaded (R191). An element past HEADS × HDIM has no slot under R179: KV_RANGE (DEDUCED, log entry 45). -/
def portCheck (s : State) (w : PortWrite) : PortOut :=
  match windowOf s w.node.pod w.node.inst w.stream with
  | none => .fault 0x09
  | some win =>
    if w.pos < win.first || win.first + win.n ≤ w.pos then .fault 0x09
    else if win.sink then .sink (payloadGranules w)
    else
      let e := getStream s w.stream
      match poolOf s w.node.pod e.pool with
      | none => .fault 0x09
      | some (_, r) =>
        let full := r.heads * regV r
        let ps := headPieces r w
        if r.layers ≤ w.layer then .fault 0x09
        else if w.sprt && payloadGranules w ≠ ceilDiv full 64 then .fault 0x04
        else match entryAt win.entries w.pos with
          | none => .fault 0x09
          | some t =>
            let r := { r with holder := win.holder }
            if ps.any (fun q => r.heads ≤ q.1 || regV r < q.2.1 + q.2.2.length) then .fault 0x09
            else if full < SMap.get 0 win.counts (countKey win w.pos w.layer w.value) + pieceBytes ps then .fault 0x0A
            else
              .write (ps.map (fun q => (kvAddr r t.first t.sizeExp t.frame w.pos w.layer q.1 w.value q.2.1, q.2.2)))
                (holderOf r (w.pos / 16 % 16)) (pieceBytes ps)

/-- Raise a window's byte count. -/
def countWindow (w : PortWrite) (n : Nat) (s : State) : State :=
  { s with sprout := s.sprout.map (fun x =>
      if x.pod = w.node.pod && x.inst = w.node.inst && x.stream = w.stream then
        { x with counts := SMap.mod 0 x.counts (countKey x w.pos w.layer w.value) (fun c => c + n) }
      else x) }

/-- Positions complete in a row from the window's first (R194). -/
def doneFrom (full layers : Nat) (w : Window) (fuel k : Nat) : Nat :=
  match fuel with
  | 0 => k
  | f + 1 =>
    if k < w.n ∧ (List.range (2 * layers)).all (fun i => SMap.get 0 w.counts ((k * 256 + i / 2) * 2 + i % 2) = full)
    then doneFrom full layers w f (k + 1) else k

/-- The write high-water mark of a window (R194). -/
def windowMark (s : State) (w : Window) : Nat :=
  match poolOf s w.pod (getStream s w.stream).pool with
  | some (_, r) => if w.sink then w.first else w.first + doneFrom (r.heads * regV r) r.layers w w.n 0
  | none => w.first

end Sys2Proof.Machine
end

