-- ==== Sys2Proof/Machine/Fabric.lean ====
section
/-! DEFINITION. The package fabric: links (R19), fixed routes (R20, R31), route bounds (R22, R23, R476) and arbitration (R27, R248). -/

namespace Sys2Proof.Machine

open Sys2Proof

/-! ### Links and segments -/

/-- The kinds of link of R19. -/
inductive LinkKind where
  | inner | spoke | hubhub | outer | cross
deriving DecidableEq, Repr

/-- Kind of link n. -/
def linkKind (n : Nat) : LinkKind :=
  if n < 4 then .inner else if n < 12 then .spoke else if n = 12 then .hubhub else if n < 33 then .outer else .cross

/-- Routers are numbered as in `routersLost`: matrix die d as d, hub h as 4 + h, stack s as 6 + s. -/
def epNode (e : Endpoint) : Nat :=
  match e with
  | .matrix d => d
  | .hub h => 4 + h
  | .stack s => 6 + s
  | .cluster c => c / 8
  | .tile t => t / 64
  | .group g => 6 + g / 4
  | .engine e => 6 + e / 64
  | .slice k => 4 + k / 32

/-- The two routers of link n (R19), the first its lower end. -/
def linkEnds (n : Nat) : Nat × Nat :=
  match linkKind n with
  | .inner => (n, (n + 1) % 4)
  | .spoke => (4 + (n - 4) / 4, (n - 4) % 4)
  | .hubhub => (4, 5)
  | .outer =>
    let d := (n - 13) / 5
    match (n - 13) % 5 with
    | 0 => (d, 6 + 4 * d)
    | 4 => (6 + 4 * d + 3, d)
    | j => (6 + 4 * d + j - 1, 6 + 4 * d + j)
  | .cross => (6 + 4 * (n - 33) + 3, 6 + (4 * (n - 33) + 4) % 16)

/-- Bandwidth of link n in each direction, in GB/s (R19). -/
def linkBandwidth (n : Nat) : Nat :=
  match linkKind n with
  | .inner => 4000
  | .spoke => 1000
  | .hubhub => 1000
  | .outer => 4000
  | .cross => 2000

/-- Flit rate of link n in each direction, in flits per microsecond: its bandwidth over the 64 bytes of a payload (R25). -/
def flitRate (n : Nat) : Nat := linkBandwidth n * 1000 / 64

/-- Bandwidth of a stack's local port in each direction, in GB/s (R19). -/
def portBandwidth : Nat := 2000

/-- The class of a flit (R26). -/
def trafficClass (w : Traffic) : TClass :=
  match w with
  | .lcRead | .lcResponse | .exchange => .lc
  | .mailbox | .journal | .streamMirror | .fence | .heartbeat | .event => .ctl
  | .other => .bulk

/-- The class of a flit in flight. -/
def flitClass (f : Flit) : TClass := trafficClass f.desc.what

/-- Worst-case time of a hop (R22). -/
def hopTime (k : LinkKind) : Nat :=
  match k with
  | .inner => 16
  | .spoke => 40
  | .hubhub => 40
  | .outer => 12
  | .cross => 20

/-- Worst-case time of an endpoint (R22). -/
def endTime (node : Nat) : Nat := if 4 ≤ node ∧ node < 6 then 30 else 8

def isHubNode (n : Nat) : Bool := 4 ≤ n && n < 6

/-- A router is in service. -/
def routerLive (s : State) (n : Nat) : Bool := !s.fabric.routersLost.contains n

/-- Some matrix router is lost. -/
def matrixLost (s : State) : Bool := s.fabric.routersLost.any (fun n => n < 4)

/-- A link that routes may use (R31): UP or RETRAINING; crosslinks only while a matrix router is lost; both routers live. -/
def linkLive (s : State) (n : Nat) : Bool :=
  let st := (getLink s n).state
  (st ≤ 1 || (st = 3 && linkKind n = .cross)) && (n < 33 || matrixLost s)
    && routerLive s (linkEnds n).1 && routerLive s (linkEnds n).2

/-- STATE as HUB_FAB_LINK_STAT shows it (R21, R33): crosslinks leave STANDBY while a matrix router is lost. -/
def linkState (s : State) (n : Nat) : Nat :=
  let st := (getLink s n).state
  if st = 3 && matrixLost s then 0 else st

/-! ### Routes -/

/-- A route under construction: where it stands, the kind of the last link (none at the source), its time, and its links. -/
structure Path where
  at_ : Nat
  kind : Option LinkKind
  cost : Nat
  links : List (Nat × Bool)
deriving DecidableEq, Repr

/-- Time to leave a router: a ring change where the kind of port changes at a matrix router (R22). -/
def turnTime (p : Path) (k : LinkKind) : Nat :=
  match p.kind with
  | none => 0
  | some j => if p.at_ < 4 ∧ j ≠ k then 12 else 0

/-- The live continuations of a path: no transit through a hub (R31), no router twice. -/
def extend (s : State) (src : Nat) (p : Path) : List Path :=
  if isHubNode p.at_ ∧ p.at_ ≠ src then []
  else (List.range 37).filterMap (fun n =>
    if !linkLive s n then none
    else
      let (a, b) := linkEnds n
      let go (up : Bool) (dest : Nat) : Path :=
        { at_ := dest, kind := some (linkKind n), cost := p.cost + turnTime p (linkKind n) + hopTime (linkKind n),
          links := p.links ++ [(n, up)] }
      if a = p.at_ then some (go true b)
      else if b = p.at_ then some (go false a)
      else none)

/-- The preferred of two links that leave the same router (R31 ties): on the inner ring ascending toward a hub, else by the third
rule of R20; otherwise the lower index. -/
def firstBetter (toHub : Bool) (x y : Nat × Bool) : Bool :=
  if linkKind x.1 = .inner ∧ linkKind y.1 = .inner then
    let die := if x.2 then (linkEnds x.1).1 else (linkEnds x.1).2
    let ascend := toHub || die % 2 = 0
    if x.2 = y.2 then x.1 < y.1 else x.2 = ascend
  else x.1 < y.1

/-- The tie-break of R31 between two routes of equal sum. -/
def tieBetter (toHub : Bool) (x y : List (Nat × Bool)) : Bool :=
  match x, y with
  | a :: r, b :: t => if a = b then tieBetter toHub r t else firstBetter toHub a b
  | [], _ :: _ => true
  | _, [] => false

/-- The first path is the better one. -/
def pathBetter (toHub : Bool) (x y : Path) : Bool :=
  x.cost < y.cost || (x.cost = y.cost && tieBetter toHub x.links y.links)

/-- Keep the better of two paths that stand at one router on the same kind of port. -/
def addPath (toHub : Bool) (l : List Path) (p : Path) : List Path :=
  match l with
  | [] => [p]
  | q :: r => if q.at_ = p.at_ ∧ q.kind = p.kind then (if pathBetter toHub p q then p :: r else q :: r) else q :: addPath toHub r p

/-- Rounds of relaxation: a route crosses each of the 22 routers at most once, so 24 rounds reach every route. -/
def relax (s : State) (src : Nat) (toHub : Bool) (n : Nat) (l : List Path) : List Path :=
  match n with
  | 0 => l
  | n + 1 =>
    let l' := (l.flatMap (extend s src)).foldl (addPath toHub) l
    if l' = l then l else relax s src toHub n l'

/-- The fixed route between two routers with its segment sum, endpoints included; none when unreachable (R20, R31, R476). -/
def route (s : State) (src dst : Nat) : Option (Nat × List (Nat × Bool)) :=
  if !routerLive s src || !routerLive s dst then none
  else if src = dst then some (endTime src + endTime dst, [])
  else
    let start : Path := { at_ := src, kind := none, cost := 0, links := [] }
    let done := (relax s src (isHubNode dst) 24 [start]).filter (fun p => p.at_ = dst)
    match done with
    | [] => none
    | p :: r =>
      let best := r.foldl (fun b q => if pathBetter (isHubNode dst) q b then q else b) p
      some (endTime src + best.cost + endTime dst, best.links)

/-- The router at which a place is reached (R22): a window's is the hub of its partner's port; none for addresses that lie nowhere. -/
def placeNode (s : State) (pl : Place) : Option Nat :=
  match pl with
  | .stack st _ => some (6 + st)
  | .slice k _ => some (4 + k / 32)
  | .tile n _ => some (n / 64)
  | .local_ e _ => some (6 + e / 64)
  | .group n _ => some (6 + n / 4)
  | .window w _ => some (4 + (getPartner s (getWindow s w).partner).port / 2)
  | .csr _ => none
  | .reserved => none

/-- A place can be reached from a router (R476). -/
def reachable (s : State) (src a : Nat) : Bool :=
  match placeNode s (placeOf a) with
  | some d => d = src || (route s src d).isSome
  | none => true

/-! ### Route bounds -/

/-- Route classes of R327. -/
inductive RClass where
  | sg | ss | sm | mm | hub
deriving DecidableEq, Repr

/-- The bound of R23. -/
def classBase (c : RClass) : Nat :=
  match c with
  | .sg => 40
  | .ss => 120
  | .sm => 84
  | .mm => 48
  | .hub => 150

/-- Source and destination routers of a class. -/
def classPairs (c : RClass) : List (Nat × Nat) :=
  let stks := (List.range 16).map (fun s => 6 + s)
  let mxs := List.range 4
  let all (a b : List Nat) : List (Nat × Nat) := a.flatMap (fun x => b.map (fun y => (x, y)))
  match c with
  | .sg => (all stks stks).filter (fun p => p.1 ≠ p.2 && (p.1 - 6) / 4 = (p.2 - 6) / 4)
  | .ss => (all stks stks).filter (fun p => p.1 ≠ p.2)
  | .sm => all stks mxs ++ all mxs stks
  | .mm => (all mxs mxs).filter (fun p => p.1 ≠ p.2)
  | .hub => all (mxs ++ stks) [4, 5] ++ all [4, 5] (mxs ++ stks) ++ [(4, 5), (5, 4)]

/-- FAILED links. -/
def failedLinks (s : State) : List Nat := (List.range 37).filter (fun n => (getLink s n).state = 2)

/-- The largest segment sum over reachable pairs of a class, none where no pair is reachable (R476). -/
def classMax (s : State) (c : RClass) : Option Nat :=
  match (classPairs c).filterMap (fun p => (route s p.1 p.2).map (fun r => r.1)) with
  | [] => none
  | x :: r => some (r.foldl max x)

/-- The degraded bound of a single failure's row of R31. -/
def singleBound (isMatrix isOuter isInner : Bool) (c : RClass) : Nat :=
  match c with
  | .sg => if isOuter then 64 else if isMatrix then 52 else 40
  | .ss => if isInner then 136 else if isOuter then 144 else if isMatrix then 140 else 120
  | .sm => if isInner then 100 else if isOuter then 108 else if isMatrix then 104 else 84
  | .mm => if isInner then 64 else 48
  | .hub => 150

/-- The route bound of a class in force, 0xFFFF where no pair is reachable (R23, R31, R476). -/
def routeBound (s : State) (c : RClass) : Nat :=
  match failedLinks s, s.fabric.routersLost with
  | [], [] => classBase c
  | [n], [] => singleBound false (linkKind n = .outer) (linkKind n = .inner) c
  | [], [r] =>
    if r < 4 then singleBound true false false c
    else if 6 ≤ r then singleBound false true false c
    else match classMax s c with
      | none => 0xFFFF
      | some m => max m (classBase c)
  | _, _ =>
    match classMax s c with
    | none => 0xFFFF
    | some m => max m (classBase c)

/-! ### Arbitration (R27, R248) -/

def getArb (s : State) (link : Nat) (up : Bool) : Arb := SMap.get {} s.fabric.arb (2 * link + b2n up)
def setArb (link : Nat) (up : Bool) (a : Arb) (s : State) : State :=
  { s with fabric := { s.fabric with arb := SMap.set {} s.fabric.arb (2 * link + b2n up) a } }

/-- Flits that wait for a link direction. -/
def waiting (s : State) (link : Nat) (up : Bool) : List Flit :=
  s.fabric.flits.filter (fun f => match f.route with | h :: _ => h = (link, up) | [] => false)

/-- The class that the next slot carries (R27), none where nothing waits. -/
def slotClass (a : Arb) (cap : Nat) (w : List Flit) : Option TClass :=
  let has (c : TClass) : Bool := w.any (fun f => flitClass f = c)
  if (a.slot = 0 || a.slot = 50) && has .ctl then some .ctl
  else if has .lc && a.lcUsed < cap then some .lc
  else if has .bulk then some .bulk
  else if has .lc then some .lc
  else if has .ctl then some .ctl
  else none

/-- The next key at or after a start in cyclic order among n that satisfies a test. -/
def cyclic (n start : Nat) (f : Nat → Bool) : Option Nat :=
  ((List.range n).map (fun i => (start + i) % n)).find? f

/-- Deficit round-robin over pods weighted by FAB_SHARE: the pod served and the deficit left after it (R248). -/
def pickPod (s : State) (a : Turn) (w : List Flit) : Nat × Nat :=
  let has (p : Nat) : Bool := w.any (fun f => f.desc.pod = p)
  if 0 < a.deficit ∧ has a.pod then (a.pod, a.deficit - 1)
  else match cyclic 16 (a.pod + 1) has with
    | some p => (p, max 1 (getPod s p).share - 1)
    | none => (a.pod, 0)

/-- The key of a class in `Arb.turns`. -/
def classKey (c : TClass) : Nat :=
  match c with
  | .lc => 0
  | .ctl => 1
  | .bulk => 2

/-- The turn of a class: its flits that do not yield before those that do (R256, R257), the pods among them by their shares and a
pod's cores in rotation (R248); none where no flit of the class waits. -/
def takeTurn (s : State) (a : Turn) (wc : List Flit) : Option (Flit × Turn) :=
  let first := wc.filter (fun f => !f.yields)
  let w := if first.isEmpty then wc else first
  let (p, d) := pickPod s a w
  let wp := w.filter (fun f => f.desc.pod = p)
  (cyclic 128 (SMap.get 0 a.last p + 1) (fun k => wp.any (fun f => f.desc.core = k))).bind (fun k =>
    (wp.find? (fun f => f.desc.core = k)).map (fun f => (f, { pod := p, deficit := d, last := SMap.set 0 a.last p k })))

/-- The window after a slot has carried a flit of a class (R27). -/
def nextSlot (c : TClass) (a : Arb) : Arb :=
  let slot := (a.slot + 1) % 100
  { a with slot := slot, lcUsed := if slot = 0 then 0 else a.lcUsed + b2n (decide (c = .lc)) }

/-- The flit that the next slot of a link direction carries, and the arbitration after it (R27, R29): the sender's oldest
unacknowledged flit goes first, and a new one enters the 64-flit replay buffer. DESIGN CHOICE (log entry 18): the rules give the
window no word for a slot in which nothing waits, and the model lets no slot pass then; a replay takes the next slot, in its own class. -/
def arbitrate (s : State) (link : Nat) (up : Bool) : Option (Flit × Arb) :=
  let w := waiting s link up
  let a := getArb s link up
  match w.find? (fun f => a.replay.contains f.id) with
  | some f => some (f, nextSlot (flitClass f) a)
  | none =>
    if 64 ≤ a.replay.length then none
    else
      (slotClass a (getLink s link).capActive w).bind (fun c =>
        (takeTurn s (SMap.get {} a.turns (classKey c)) (w.filter (fun f => flitClass f = c))).map (fun q =>
          (q.1, { nextSlot c a with turns := SMap.set {} a.turns (classKey c) q.2, replay := a.replay ++ [q.1.id] })))

/-- A flit of the list replaced, or taken out. -/
def replaceFlit (id : Nat) (f : Option Flit) (l : List Flit) : List Flit :=
  match l with
  | [] => []
  | g :: r => if g.id = id then (match f with | some h => h :: r | none => r) else g :: replaceFlit id f r

/-- The router a flit waits at. -/
def flitAt (f : Flit) : Nat :=
  match f.route with
  | (n, up) :: _ => if up then (linkEnds n).1 else (linkEnds n).2
  | [] => epNode f.desc.dst

/-- A flit on its new route: its CRC failures count on the link it was waiting for and on no other (R30). -/
def redirected (f : Flit) (r : List (Nat × Bool)) : Flit :=
  { f with route := r, fails := if r.head? = f.route.head? then f.fails else 0 }

/-- Every flit in flight with the route it takes from where it waits (R30, R31). -/
def newRoutes (s : State) : List (Flit × Option (List (Nat × Bool))) :=
  s.fabric.flits.map (fun f => (f, (route s (flitAt f) (epNode f.desc.dst)).map (fun q => q.2)))

/-- Flits in flight that no live route leads on: they get the error response of R34 (R476). -/
def stranded (s : State) : List Flit := ((newRoutes s).filter (fun r => r.2.isNone)).map (fun r => r.1)

/-- The routes are chosen again after the set of failures changes (R30, R31): every flit in flight goes on from where it waits, and
leaves the replay buffer of a link it no longer crosses. -/
def reroute (s : State) : State :=
  let kept := (newRoutes s).filterMap (fun r => r.2.map (redirected r.1))
  let onLink (k id : Nat) : Bool := kept.any (fun f => f.id = id && f.route.head? = some (k / 2, decide (k % 2 = 1)))
  { s with fabric := { s.fabric with flits := kept, arrived := s.fabric.arrived ++ (stranded s).map (fun f => (f, false)),
                                     arb := (s.fabric.arb.map (fun a => (a.1, { a.2 with replay := a.2.replay.filter (onLink a.1) }))).filter
                                       (fun a => a.2 ≠ {}) } }

end Sys2Proof.Machine
end

