-- ==== Sys2Proof/Machine/Plan.lean ====
section
/-! DEFINITION. Service floors (R426), what a node costs (R246-R248), the plan and admission (R249-R252), and the extension of plans
(R425, R479). -/

namespace Sys2Proof.Machine

open Sys2Proof

/-! ### Service floors -/

/-- Inlet level of an inlet maximum: 25, 30, 35, 40 °C (R426). -/
def inletLevel (m : Nat) : Nat := if m ≤ 25 then 0 else if m ≤ 30 then 1 else if m ≤ 35 then 2 else 3

/-- Target frequency of a table island, MHz (R386, R426). -/
def islandTarget (i : Nat) : Nat := if i < 32 then 2000 else if i < 48 then 1000 else 1600

/-- Floor of a table island at a cap step and inlet level (R426). -/
def floorAt (s : State) (step level i : Nat) : Nat := SMap.get (islandTarget i) s.power.floors ((4 * step + level) * 50 + i)

/-- Cap step of a cap in watts. -/
def capStep (w : Nat) : Nat := (w - 1500) / 100

/-- The floor in force for an island (R426). -/
def floorNow (s : State) (i : Nat) : Nat := floorAt s (capStep s.power.capW) (inletLevel s.thermal.inletMax) i

/-- The floor published for the grade's horizon for a table island at an inlet level and 4.8 kW, MHz (R13, R327, R429): no plan passes the
island's target. -/
def horizonAt (level i : Nat) : Nat := min (islandTarget i) (Config.horizonFloor (50 * level + i)).toNat

/-- Table island of a core of a pod; DMA channels count at the CTL island of the scheduler's hub (R246). -/
def islandOf (s : State) (p core : Nat) : Nat :=
  if core < 32 then core else if core < 96 then 32 + (core - 32) / 4 else 48 + (getPod s p).hub

/-! ### Cost of a node -/

/-- What a decision fixes for the durations of its nodes (R246, R248, R479): floors by table island, sources SRC and FAB_SHARE. -/
structure Terms where
  floors : List (Nat × Nat)
  sources : Nat
  share : Nat
deriving DecidableEq, Repr

/-- SRC of R248: the pod's clusters, bank groups and DMA channels. -/
def podSources (s : State) (p : Nat) : Nat := (getPod s p).cores.length + 4

/-- The terms that a decision made now fixes. -/
def termsNow (s : State) (p : Nat) : Terms :=
  let v := getPod s p
  { floors := (dedup ((v.cores ++ [96]).map (islandOf s p))).map (fun i => (i, floorNow s i)), sources := podSources s p, share := v.share }

/-- A duration that no promise can meet (R248, R476). -/
def infinite : Nat := 2 ^ 80

/-- Degradation charge of a core (R87, R143, R246). -/
def chargeOf (s : State) (core : Nat) : Nat :=
  if core < 32 then (if clusterW s core = 0 then 1 else ceilDiv 8 (clusterW s core))
  else if core < 96 then (if groupW s (core - 32) = 0 then 1 else ceilDiv 16 (groupW s (core - 32)))
  else 1

/-- y of R248. -/
def factorY (s : State) : Nat :=
  if !s.fabric.routersLost.isEmpty then 4
  else match failedLinks s with
    | [] => 1
    | [n] => if linkKind n = .cross then 4 else 2
    | _ => 4

/-- The smallest ACTIVE cap over all links (R248). -/
def activeCap (s : State) : Nat := ((List.range 37).map (fun n => (getLink s n).capActive)).foldl min 63

/-- z of R248 as numerator and denominator; denominator 0 is infinite. -/
def factorZ (s : State) (lcCap : Nat) : Nat × Nat :=
  let a := activeCap s
  if a = 0 then (if lcCap = 0 then (1, 1) else (1, 0))
  else if a < lcCap then (lcCap, a)
  else if lcCap < a then (98 - lcCap, 98 - a)
  else (1, 1)

/-- ceil(COST_SER × x) (R246, R248). -/
def serCost (s : State) (tm : Terms) (k lcCap cost : Nat) : Nat :=
  let z := factorZ s lcCap
  if cost = 0 then 0
  else if z.2 = 0 then infinite
  else ceilDiv (cost * (16 * tm.sources * factorY s * z.1)) (max 1 (tm.share * k * z.2))

/-- A term of route bounds; a class with no reachable pair is infinite (R476). -/
def routeCost (s : State) (c : RClass) (n : Nat) : Nat :=
  if n = 0 then 0
  else
    let b := if c = .hub then (if classMax s c = none then 0xFFFF else 150) else routeBound s c
    if b = 0xFFFF then infinite else n * b

/-- Stand-in stacks in force for a pod's pools (R178, R247). -/
def standIns (s : State) (p : Nat) : Nat :=
  countIf (fun k => (mapped s).any (fun r => r.2.pod = p && r.2.mode = 3
    && (List.range 16).any (fun i => i ≠ k && nth 0 r.2.holder i = k))) (List.range 16)

/-- What admission knows of a step (R247, R251): E, S, and the pod's last boundary with its period and slew. -/
structure WalkIn where
  e : Nat
  rows : Nat
  tb : Nat
  period : Nat
  slew : Nat
deriving DecidableEq, Repr

/-- A planned node: its cores and interval. -/
structure Slot where
  cores : List Nat
  start : Nat
  fin : Nat
deriving DecidableEq, Repr

/-- No boundary of the pod can fall between two times (R188). -/
def noBoundary (w : WalkIn) (a b : Nat) : Bool :=
  let k := if b < w.tb then 0 else (b - w.tb) / max 1 (w.period - w.slew)
  k = 0 || w.tb + k * (w.period + w.slew) < a

/-- Cycles to nanoseconds at a frequency in MHz, rounded up. -/
def cycNs (cycles mhz : Nat) : Nat := ceilDiv (cycles * 1000) (max 1 mhz)

/-- A first walker-mode walk in ns: tables lie in last-level memory, and the walk unit keeps the 1.0 GHz stack clock whatever the issue
floor (R123, R188, R427). -/
def walkFirst (w : WalkIn) : Nat := 300 + 40 + 4 * w.e + 16 * w.rows

/-- The stacks of a set of bank groups. -/
def stacksOf (cores : List Nat) : List Nat := dedup (cores.filterMap (fun c => if 32 ≤ c ∧ c < 96 then some ((c - 32) / 4) else none))

/-- Lowest floor among the islands of a core set. -/
def minFloor (s : State) (tm : Terms) (p : Nat) (cores : List Nat) : Nat :=
  match cores.map (fun c => let i := islandOf s p c; SMap.get (islandTarget i) tm.floors i) with
  | [] => 1000
  | x :: r => r.foldl min x

/-- The part of dur(n, K) that does not depend on a page walk (R246). -/
def durBase (s : State) (tm : Terms) (p : Nat) (g : Graph) (n : Nat) (cores : List Nat) : Nat :=
  let r := nodeRec g n
  let start := match r.kind with
    | 1 => 1000 + 2 * r.blkLen
    | 2 => 1000 + ceilDiv (launchOf g r).codeLen 8
    | 4 => 1000 + ceilDiv (launchOf g r).codeLen 8
    | 3 => 500
    | _ => 200
  if r.kind = 5 ∨ r.kind = 6 then 200
  else
    let w := maxNat (cores.map (chargeOf s))
    let gang := gangOf g.nodes n
    let k := if r.kind = 3 then 1 else (gang.map (fun m => (nodeRec g m).cores)).foldl (· + ·) 0
    let route (i : Nat) : Nat := nth 0 r.routes i
    start + cycNs (r.costCyc * w) (minFloor s tm p cores)
      + routeCost s .sg (route 0) + routeCost s .ss (route 1) + routeCost s .sm (route 2) + routeCost s .mm (route 3)
      + routeCost s .hub (route 4) + serCost s tm k g.lcCap r.costSer + 300

/-- The walk term of an ATTN node placed on cores at a time, with the slots already placed (R186, R188, R247). -/
def walkCost (s : State) (tm : Terms) (p : Nat) (g : Graph) (n : Nat) (cores : List Nat) (t : Nat) (w : WalkIn) (placed : Nat → Option Slot) :
    Nat :=
  if !(getPod s p).walk then 1000 + 40 * (w.e * (1 + standIns s p))
  else
    let later := 8 + 4 * w.e
    let fin := t + durBase s tm p g n cores + later
    let gang := gangOf g.nodes n
    let ok (st : Nat) : Bool := w.e ≤ 256 && (List.range n).any (fun q =>
      (nodeRec g q).kind = 4 && !gang.contains q && (downstream g q).contains n
        && (match placed q with
          | some sl => (stacksOf sl.cores).contains st && noBoundary w sl.start fin
          | none => false))
    if (stacksOf cores).all ok then later else walkFirst w

/-- dur(n, K) of R246. -/
def durOf (s : State) (tm : Terms) (p : Nat) (g : Graph) (n : Nat) (cores : List Nat) (t : Nat) (w : Option WalkIn) (placed : Nat → Option Slot) :
    Nat :=
  durBase s tm p g n cores + (match w with
    | some w => if (nodeRec g n).kind = 4 then walkCost s tm p g n cores t w placed else 0
    | none => 0)

/-! ### The plan -/

/-- Instances of a pod that have not ended: the job count is their number (R264). -/
def podInsts (s : State) (p : Nat) : List Inst := s.insts.filter (fun i => i.pod = p)
def jobCount (s : State) (p : Nat) : Nat := (podInsts s p).length

/-- A node that can still hold its interval: running, or not started and not kept from starting by the loss of its hub (R384). -/
def live (n : NodeRun) : Bool := (n.st = .notStarted && n.cause = 0) || n.st = .running

/-- Intervals of the committed plan of a pod (R249): those not yet ended. -/
def planOf (s : State) (p : Nat) : List Slot :=
  ((podInsts s p).filter (fun i => i.promised)).flatMap (fun i =>
    (i.nodes.filter live).map (fun n => { cores := n.cores, start := n.start, fin := n.fin }))

/-- Cores that best-effort nodes of a pod hold (R256). -/
def heldCores (s : State) (p : Nat) : List Nat :=
  ((podInsts s p).filter (fun i => !i.promised)).flatMap (fun i => (i.nodes.filter (fun n => n.st = .running)).flatMap (fun n => n.cores))

/-- The cores of a kind in a pod, ascending (R250). -/
def kindCores (s : State) (p kind : Nat) : List Nat :=
  match kind with
  | 1 => (getPod s p).cores.filter (fun c => c < 32)
  | 3 => [96, 97, 98, 99]
  | _ => (getPod s p).cores.filter (fun c => 32 ≤ c)

/-- A core in service for a pod: not fenced, not marked for removal (R250, R265). -/
def coreUsable (s : State) (p c : Nat) : Bool :=
  if 96 ≤ c then !hubFenced s (getPod s p).hub
  else !coreFenced s c && !((getPod s p).marked.any (fun m => m.1 = c))

/-- avail of R250. -/
def avail (s : State) (p : Nat) (plan : List Slot) (held cores : List Nat) (t d : Nat) : Bool :=
  cores.all (fun c => coreUsable s p c && !held.contains c)
    && plan.all (fun sl => sl.fin ≤ t || t + d ≤ sl.start || !sl.cores.any (fun c => cores.contains c))

/-- Runs of n consecutive entries. -/
def runsOf (n : Nat) (l : List Nat) : List (List Nat) :=
  (List.range (l.length + 1 - n)).map (fun i => (l.drop i).take n)

/-- Cores of each member of a gang at time t, none when one has none (R250). -/
def placeMembers (s : State) (p : Nat) (g : Graph) (plan : List Slot) (held : List Nat) (t : Nat) (w : Option WalkIn)
    (placed : Nat → Option Slot) (ms : List Nat) (taken : List Nat) : Option (List (Nat × Slot)) :=
  match ms with
  | [] => some []
  | m :: rest =>
    let r := nodeRec g m
    let pick : Option (List Nat) :=
      if r.kind = 5 ∨ r.kind = 6 then some []
      else (runsOf (if r.kind = 3 then 1 else r.cores) (kindCores s p r.kind)).find? (fun run =>
        !run.any (fun c => taken.contains c) && avail s p plan held run t (durOf s (termsNow s p) p g m run t w placed))
    match pick with
    | none => none
    | some k =>
      match placeMembers s p g plan held t w placed rest (taken ++ k) with
      | none => none
      | some l => some ((m, { cores := k, start := t, fin := t + durOf s (termsNow s p) p g m k t w placed }) :: l)

/-- The loop over candidate times of R250, by fuel: one try per interval end. -/
def placeAt (fuel : Nat) (s : State) (p : Nat) (g : Graph) (plan : List Slot) (held : List Nat) (t : Nat) (w : Option WalkIn)
    (placed : Nat → Option Slot) (ms : List Nat) : Option (List (Nat × Slot)) :=
  match fuel with
  | 0 => none
  | f + 1 =>
    match placeMembers s p g plan held t w placed ms [] with
    | some l => some l
    | none =>
      match (plan.filter (fun sl => t < sl.fin)).map (fun sl => sl.fin) with
      | [] => none
      | x :: r => placeAt f s p g plan held (r.foldl min x) w placed ms

/-- Place the nodes from n on, in ascending ID (R250): the slots of all nodes, or none. -/
def placeAll (s : State) (p : Nat) (g : Graph) (base : List Slot) (held : List Nat) (t0 : Nat) (w : Option WalkIn)
    (ns : List Nat) (done : List (Nat × Slot)) : Option (List (Nat × Slot)) :=
  match ns with
  | [] => some done
  | n :: rest =>
    if (nodeRec g n).gang ≠ n then placeAll s p g base held t0 w rest done
    else
      let placed (q : Nat) : Option Slot := SMap.find done q
      let ms := gangOf g.nodes n
      let ready := (ms.flatMap (predsOf g)).foldl (fun t q => match placed q with | some sl => max t sl.fin | none => t) t0
      let plan := base ++ done.map (fun d => d.2)
      match placeAt (plan.length + 1) s p g plan held ready w placed ms with
      | none => none
      | some l => placeAll s p g base held t0 w rest (l.foldl (fun m x => SMap.put m x.1 x.2) done)

/-- The tentative plan of a graph from a time on (R250), none where no placement exists. -/
def tentative (s : State) (p : Nat) (g : Graph) (t0 : Nat) (w : Option WalkIn) : Option (List Slot) :=
  (placeAll s p g (planOf s p) (heldCores s p) t0 w (List.range g.nodes.length) []).map (fun l => l.map (fun x => x.2))

/-- C of R250. -/
def completionOf (l : List Slot) : Nat := maxNat (l.map (fun sl => sl.fin))

/-! ### Later changes to a plan (R425, R479) -/

/-- The slots an instance planned, for the walks. -/
def slotsOfInst (i : Inst) (q : Nat) : Option Slot := (i.nodes[q]?).map (fun n => { cores := n.cores, start := n.start, fin := n.fin })

/-- The period and slew limit of a pod's boundaries, in ns (R251, R398). -/
def podPeriod (s : State) (p : Nat) : Nat :=
  let v := getPod s p
  if v.follow then v.mult * s.clock.f else v.periodUs * 1000
def podSlew (s : State) (p : Nat) : Nat := if (getPod s p).follow then podPeriod s p / 100 else 0

/-- The walk inputs of an accepted step (R247). -/
def walkOf (s : State) (i : Inst) : Option WalkIn :=
  i.step.map (fun st => { e := st.walkE, rows := st.rows.length, tb := (getPod s i.pod).boundaryAt, period := podPeriod s i.pod,
                          slew := podSlew s i.pod })

/-- What an instance's decision fixed for the durations of its nodes. -/
def instTerms (s : State) (i : Inst) : Terms := { floors := i.floors, sources := i.sources, share := (getPod s i.pod).share }

/-- An instance's intervals extended to the durations that the route bounds, factor y, W and stand-ins now in force give (R479); the
floors are those the plan used, a held floor among them (R428). -/
def extendInst (s : State) (i : Inst) : Inst :=
  match i.promised, graphOf s i with
  | true, some g =>
    { i with nodes := (i.nodes.zipIdx).map (fun q =>
        if live q.1 then { q.1 with fin := max q.1.fin (q.1.start + durOf s (instTerms s i) i.pod g q.2 q.1.cores q.1.start (walkOf s i) (slotsOfInst i)) }
        else q.1) }
  | _, _ => i

/-- Every plan extended (R425 step 3, R479). -/
def extendPlans (s : State) : State := { s with insts := s.insts.map (extendInst s) }

/-- Record a cause of lateness against instances; the first one recorded stays (R255). -/
def recordLate (on : Inst → Bool) (cause detail : Nat) (s : State) : State :=
  { s with insts := s.insts.map (fun i => if on i && i.late = none then { i with late := some (cause, detail) } else i) }

/-- Detail of the cause COOLANT: the input and its reading (R416). -/
def coolantDetail (t : Thermal) : Nat := at_ 24 t.coolant + unsigned 16 (nth 0 t.therm t.coolant)

/-- Cores of a die index, with the DMA channels of a hub (R419). -/
def dieCores (n : Nat) : List Nat :=
  if n < 4 then (List.range 8).map (fun i => 8 * n + i)
  else if n < 6 then [96, 97, 98, 99]
  else (List.range 4).map (fun i => 32 + 4 * (n - 6) + i)

/-- An instance has a node running or planned on a die (R419). -/
def onDie (s : State) (n : Nat) (i : Inst) : Bool :=
  (n < 4 || 6 ≤ n || (getPod s i.pod).hub = n - 4)
    && i.nodes.any (fun q => (if i.promised then live q else q.st = .running) && q.cores.any (fun c => (dieCores n).contains c))

/-- The cause that stands against an instance as it is admitted: the coolant outside its envelope (R416), else the action of the first die
that it has a node on (R419). -/
def lateNow (s : State) (i : Inst) : Option (Nat × Nat) :=
  if s.thermal.envOut then some (0x01, coolantDetail s.thermal)
  else ((List.range 22).find? (fun n => (SMap.get {} s.thermal.dies n).action && onDie s n i)).map (fun n => (0x05, n))

/-- A table island holds a planned interval or a running node (R424, R428). -/
def islandBusy (s : State) (isl : Nat) : Bool :=
  s.insts.any (fun i => i.nodes.any (fun n => (if i.promised then live n else n.st = .running)
    && n.cores.any (fun c => islandOf s i.pod c = isl)))

end Sys2Proof.Machine
end

