-- ==== Sys2Proof/Machine/Transcendental.lean ====
section
/-! DEFINITION. EXP, RECIP, RSQRT and SILU in fixed point with 40 fractional bits (R58-R62). -/

namespace Sys2Proof.Machine

open Sys2Proof

/-- v / 2^k to nearest, ties away from zero (R58). -/
def rndAway (v : Int) (k : Nat) : Int :=
  let r : Int := (((v.natAbs + 2 ^ k / 2) / 2 ^ k : Nat) : Int)
  if v < 0 then -r else r

/-- The product of two 40-bit fixed-point values. -/
def mul40 (x y : Int) : Int := rndAway (x * y) 40

/-- 1.0 with 40 fractional bits. -/
def one40 : Int := 1099511627776

/-- log2(e), ln 2, (ln 2)^2 / 2 and (ln 2)^3 / 6 to the nearest multiple of 2^-40 (R58, R59). -/
def cLog2e : Int := 1586259972792
def cC1 : Int := 762123384786
def cC2 : Int := 264131837702
def cC3 : Int := 61027412866

/-- The largest number below 2^n (added to acc) whose 64th power is at most top: bitwise, from bit n-1 down. -/
def root64 (top : Nat) (n acc : Nat) : Nat :=
  match n with
  | 0 => acc
  | k + 1 => if (acc + 2 ^ k) ^ 64 ≤ top then root64 top k (acc + 2 ^ k) else root64 top k acc

/-- T[j]: 2^(j/64) to the nearest multiple of 2^-40 (R58, R59). -/
def expT (j : Nat) : Int :=
  let a := root64 (2 ^ (j + 2560)) 41 0
  if (2 * a + 1) ^ 64 ≤ 2 ^ (j + 2624) then ((a + 1 : Nat) : Int) else (a : Int)

/-- The square root, rounded down, of a number below 2^(2n). -/
def isqrt (top : Nat) (n acc : Nat) : Nat :=
  match n with
  | 0 => acc
  | k + 1 => if (acc + 2 ^ k) ^ 2 ≤ top then isqrt top k (acc + 2 ^ k) else isqrt top k acc

/-- D: 1/a to the nearest multiple of 2^-40, a given in units of 2^-40 (R60). -/
def recipD (a : Nat) : Int := (((2 * 2 ^ 80 + a) / (2 * a) : Nat) : Int)

/-- S: a^(-1/2) to the nearest multiple of 2^-40 (R60). -/
def rsqrtS (a : Nat) : Int :=
  let s := isqrt (2 ^ 120 / a) 41 0
  if (2 * s + 1) ^ 2 * a ≤ 4 * 2 ^ 120 then ((s + 1 : Nat) : Int) else (s : Int)

/-- fp32(v · 2^k) of a fixed-point value (R58). -/
def fix32 (v : Int) (k : Int) : BitVec 32 := fp32Round (.fin (v < 0) v.natAbs (k - 40))

/-- m·2^e · LOG2E to a multiple of 2^-30, ties away from zero (R59). -/
def expArg (neg : Bool) (m : Nat) (e : Int) : Int :=
  let v : Int := (m : Int) * cLog2e
  let v := if neg then -v else v
  let k := e - 10
  if 0 ≤ k then v * ((2 ^ k.toNat : Nat) : Int) else rndAway v (-k).toNat

/-- The steps of R59 on t in units of 2^-30. -/
def expFix (t : Int) : BitVec 32 :=
  let i := t / 2 ^ 30
  let tf := (t % 2 ^ 30).toNat
  let j := tf / 2 ^ 24
  let f : Int := ((tf % 2 ^ 24 : Nat) : Int)
  let p := rndAway (cC3 * f) 30
  let p := rndAway ((cC2 + p) * f) 30
  let p := rndAway ((cC1 + p) * f) 30
  let p := one40 + p
  fix32 (mul40 (expT j) p) i

/-- EXP (R59, R62). -/
def fpExp (x : BitVec 32) : BitVec 32 :=
  match fp32Val x with
  | .nan => 0x7FC00000#32
  | .inf neg => if neg then 0#32 else 0x7F800000#32
  | .fin neg m e =>
    if m = 0 then 0x3F800000#32
    else if !neg && 0x42B17218 ≤ x.toNat then 0x7F800000#32
    else if neg && 0xC2D00000 < x.toNat then 0#32
    else expFix (expArg neg m e)

/-- A nonzero significand brought to 1 ≤ M < 2 with 40 fractional bits, and its exponent. -/
def normal40 (m : Nat) (e : Int) : Nat × Int :=
  let l := Nat.log2 m
  ((m <<< 40) >>> l, e + (l : Int))

/-- u of R60 for a significand, a midpoint and 1/a. -/
def segU (mm a : Nat) : Int := mul40 ((mm : Int) - (a : Int)) (recipD a)

/-- The unsigned reciprocal of a nonzero magnitude (R60). -/
def recipMag (m : Nat) (e : Int) : Int × Int :=
  let (mm, ex) := normal40 m e
  let j := (mm - 2 ^ 40) / 2 ^ 33
  let a := 2 ^ 40 + (2 * j + 1) * 2 ^ 32
  let u := segU mm a
  let w2 := mul40 u u
  let w3 := mul40 w2 u
  (mul40 (recipD a) (one40 - u + w2 - w3), -ex)

/-- RECIP (R60, R62). -/
def fpRecip (x : BitVec 32) : BitVec 32 :=
  match fp32Val x with
  | .nan => 0x7FC00000#32
  | .inf neg => if neg then 0x80000000#32 else 0#32
  | .fin neg m e =>
    if m = 0 then (if neg then 0xFF800000#32 else 0x7F800000#32)
    else
      let (y, p) := recipMag m e
      fix32 (if neg then -y else y) p

/-- The reciprocal square root of a positive magnitude (R60). -/
def rsqrtMag (m : Nat) (e : Int) : Int × Int :=
  let (m1, e1) := normal40 m e
  let odd := decide (e1 % 2 ≠ 0)
  let mm := if odd then 2 * m1 else m1
  let ex := if odd then e1 - 1 else e1
  let a :=
    if mm < 2 ^ 41 then 2 ^ 40 + (2 * ((mm - 2 ^ 40) / 2 ^ 33) + 1) * 2 ^ 32
    else 2 ^ 41 + (2 * ((mm - 2 ^ 41) / 2 ^ 34) + 1) * 2 ^ 33
  let u := segU mm a
  let w2 := mul40 u u
  let w3 := mul40 w2 u
  let sr := one40 - rndAway u 1 + rndAway (w2 * 3) 3 - rndAway (w3 * 5) 4
  (mul40 (rsqrtS a) sr, -(ex / 2))

/-- RSQRT (R60, R62). -/
def fpRsqrt (x : BitVec 32) : BitVec 32 :=
  match fp32Val x with
  | .nan => 0x7FC00000#32
  | .inf neg => if neg then 0x7FC00000#32 else 0#32
  | .fin neg m e =>
    if m = 0 then (if neg then 0xFF800000#32 else 0x7F800000#32)
    else if neg then 0x7FC00000#32
    else
      let (y, p) := rsqrtMag m e
      fix32 y p

/-- SILU (R61, R62). -/
def fpSilu (x : BitVec 32) : BitVec 32 :=
  match fp32Val x with
  | .nan => 0x7FC00000#32
  | .inf neg => if neg then 0x80000000#32 else 0x7F800000#32
  | .fin neg m _ =>
    if m = 0 then (if neg then 0x80000000#32 else 0#32)
    else fp32Mul x (fpRecip (fp32Add 0x3F800000#32 (fpExp (fp32Neg x))))

end Sys2Proof.Machine
end

