-- ==== Sys2Proof/Machine/Tiles.lean ====
section
/-! DEFINITION. Running a tile program: filling a stationary register, a pass, the exit of an accumulate bank (R69-R78, R114), and
the cluster vector unit (R88-R91). -/

namespace Sys2Proof.Machine

open Sys2Proof

/-- The descriptors of the tile descriptor a run is in. -/
def runTile (r : TileRun) : TileDesc := blockTile r.block r.desc
def runS (r : TileRun) : TDesc := blockTd r.block (runTile r).sTd
def runM (r : TileRun) : TDesc := blockTd r.block (runTile r).mTd
def runO (r : TileRun) : TDesc := blockTd r.block (runTile r).oTd

/-- Scratchpad of the tile that runs it (R94). -/
def runBase (r : TileRun) : Nat := addrTile r.phys

/-- Put a run back in its place. -/
def putRun (r : TileRun) (s : State) : State :=
  { s with tileRuns := s.tileRuns.map (fun q => if q.ref = r.ref then r else q) }

/-- The NaN-block and bad-trit events of distinct records at byte addresses (R44, R46). -/
def recordEvents (s : State) (td : TDesc) (addrs : List Nat) : Nat × Nat :=
  if blockLen td.fmt td.scaled = 1 then (0, 0)
  else (dedup addrs).foldl (fun n a =>
    let l := (viewRecord s td a).1
    (n.1 + l.badTrit, n.2 + l.nanScale)) (0, 0)

/-! ### The stationary feeder -/

/-- The next pass whose set is not yet in a register, if a register is free: at most two sets, none of them retired (R77, R78). -/
def nextFill (r : TileRun) : Option Nat :=
  let live := r.stat.filter (fun f => r.pass ≤ f.1)
  if live.length ≥ 2 then none
  else ((List.range 2).map (fun i => r.pass + i)).find? (fun p => p < passCount (runTile r) && !live.any (fun f => f.1 = p))

/-- Fill a retired register with a pass's stationary set (R78). -/
def fillRegister (r : TileRun) (p : Nat) (s : State) : State :=
  let t := runTile r
  let td := runS r
  let cs := sCoords (genS t td) p
  let addrs := cs.map (fun c => runBase r + (elemAddr td c.2.2).1.toNat)
  let s := touch (addrs.flatMap (recAddrs td)) s
  let set := cs.map (fun c => (c.1, c.2.1, viewElem s (runBase r) td c.2.2))
  let ev := recordEvents s td addrs
  let sat := if fp32Pair td.fmt (runM r).fmt then countIf (fun e => (fp32Load e.2.2.1).2) set else 0
  let r' := { r with stat := r.stat.filter (fun f => r.pass ≤ f.1) ++ [(p, set.map (fun e => (e.1, e.2.1, e.2.2.1, e.2.2.2)))] }
  countMx (r.phys / 8) ev.1 ev.2 sat 0 (putRun r' s)

/-! ### Block-coordinate lists (R117-R120) -/

/-- A block-coordinate list entry in the run's scratchpad, with its poison (R117). DESIGN CHOICE (log entry 66): no rule refuses a list
that runs past the 64 MiB of the scratchpad; its entries are read on at the next device addresses. -/
def listEntry (s : State) (r : TileRun) (j : Nat) : ListEntry × Bool :=
  let b := viewBytes s (runBase r + (runTile r).listOff + 16 * j) 16
  (listParse (leNat b.1), b.2)

/-- The SLOT levels of the generator that has the list. -/
def listLevels (t : TileDesc) : List Loop := roleLevels (if t.listGen = 1 then t.m else t.d) 2

/-- The list entry that drives a slot, when a generator has the list (R118). -/
def slotEntry (s : State) (r : TileRun) (gen slot : Nat) : Option ListEntry :=
  if (runTile r).listGen = gen then some (listEntry s r (slot / innerSlots (listLevels (runTile r)))).1 else none

/-- An element is masked by the entry that drives it (R118). -/
def maskedAt (block : List Byte) (td : TDesc) (e : Option ListEntry) (off : Coord) : Bool :=
  match e with
  | some e => maskedBy block td e off
  | none => false

/-- An entry fails R120: reserved bits, or an unmasked element of its block, in any slot of its iteration, outside the tensor. -/
def entryBad (s : State) (r : TileRun) (p j : Nat) : Bool :=
  let t := runTile r
  let e := (listEntry s r j).1
  let k := innerSlots (listLevels t)
  !e.ok || (List.range k).any (fun i =>
    if t.listGen = 1 then
      let td := runM r
      (mRows (genM t td) p (k * j + i)).any (fun v =>
        let c := moveCoord t v.2.1
        !maskedBy r.block td e (subV c (moveCoord t v.2.2)) && !moveOk t td (placed (some e) c))
    else
      let td := runO r
      (dCols (genD t td) p (k * j + i)).any (fun v =>
        let c := outCoord t v.2.1
        !maskedBy r.block td e (subV c (outCoord t v.2.2)) && !inExtent td (permute t (placed (some e) c))))

/-- Entries in line k of a list of n. -/
def lineEntries (n k : Nat) : List Nat := (List.range (min 4 (n - 4 * k))).map (fun i => 4 * k + i)

/-- Where a walk of the list in pass or block p stops the node, if it does: the slot that first needs the line, and the cause, POISONED
or BAD_LIST (R119, R120, R366). -/
def listCut (s : State) (r : TileRun) (gen p : Nat) : Option (Nat × Nat) :=
  let t := runTile r
  if t.listGen ≠ gen then none
  else (List.range ((t.listLen + 3) / 4)).findSome? (fun k =>
    let js := lineEntries t.listLen k
    let at_ := 4 * k * innerSlots (listLevels t)
    if js.any (fun j => (listEntry s r j).2) then some (at_, 0x02)
    else if js.any (entryBad s r p) then some (at_, 0x07)
    else none)

/-- Fetch the lines of the list that the first n slots of a walk need, each once, in order (R119). -/
def fetchList (r : TileRun) (gen n : Nat) (s : State) : State :=
  let t := runTile r
  if t.listGen ≠ gen then s
  else (List.range ((t.listLen + 3) / 4)).foldl (fun s k =>
    if 4 * k * innerSlots (listLevels t) ≤ n then touch [runBase r + t.listOff + 64 * k] s else s) s

/-! ### A pass -/

/-- What a slot needs for one moving element: nothing where the list masks it, a pad element, or the element at a coordinate. -/
inductive Need where
  | masked
  | pad
  | elem (c : Coord)
deriving DecidableEq, Repr

/-- What each row element of a slot needs (R69, R101, R104, R105, R118). -/
def moveNeeds (s : State) (r : TileRun) (p slot : Nat) : List Need :=
  let t := runTile r
  let td := runM r
  let e := slotEntry s r 1 slot
  (mRows (genM t td) p slot).map (fun v =>
    let c := moveCoord t v.2.1
    if maskedAt r.block td e (subV c (moveCoord t v.2.2)) then .masked
    else if padded t td (placed e c) then .pad
    else .elem (placed e c))

/-- The moving elements of a slot by row element: value, poison, and masked (R69, R104-R106, R118). -/
def moveRow (s : State) (r : TileRun) (p slot : Nat) : List (FVal × Bool × Bool) :=
  let td := runM r
  (moveNeeds s r p slot).map (fun n =>
    match n with
    | .masked => (.fin false 0 0, false, true)
    | .pad => (nth .nan (loadRecord td.fmt td.scaled (leBytes 2 (runTile r).padValue)).vals 0, false, false)
    | .elem c => let x := viewElem s (runBase r) td c; (x.1, x.2, false))

/-- Cut into runs of n. -/
def cutRuns {α : Type} (fuel n : Nat) (l : List α) : List (List α) :=
  match fuel with
  | 0 => []
  | k + 1 =>
    match l with
    | [] => []
    | _ => l.take n :: cutRuns k n (l.drop n)

/-- What the rows of a slot read, a row's elements together (R67): the address and position of each element, none for a pad. -/
def rowReads (s : State) (r : TileRun) (p slot : Nat) : List (List (Option (Int × Nat))) :=
  let td := runM r
  let needs := moveNeeds s r p slot
  (cutRuns needs.length (if twoElem (runS r).fmt td.fmt then 2 else 1) needs).map (fun g =>
    g.filterMap (fun n =>
      match n with
      | .masked => none
      | .pad => some none
      | .elem c => some (some (elemAddr td c))))

/-- Byte addresses that a slot's moving elements read from the scratchpad. A row that needs what the row above it used DELTA slots
earlier, pads counting as equal, takes it from that row's delay line (R76, R107). -/
def slotReads (s : State) (r : TileRun) (p slot : Nat) : List Nat :=
  let t := runTile r
  let rows := rowReads s r p slot
  let before := if t.fwd && t.delta ≤ slot then rowReads s r p (slot - t.delta) else []
  (rows.zipIdx).flatMap (fun q =>
    if q.2 ≠ 0 && before[q.2 - 1]? = some q.1 then []
    else q.1.filterMap (fun a => a.map (fun a => runBase r + a.1.toNat)))

/-- The reads of the first n slots of a pass and the events they count. DESIGN CHOICE (log entry 66): one load of a moving block is its
read by one slot, whatever the rows that take an element of it, and one load of a stationary block is its read by one fill; NAN_SCALE and
BAD_TRIT count per load (R44, R46). SATURATE counts each moving element that a row converts to FP32 out of range (R57). -/
def moveLoads (r : TileRun) (p n : Nat) (s : State) : State :=
  (List.range n).foldl (fun s i =>
    let reads := slotReads s r p i
    let s := touch (reads.flatMap (recAddrs (runM r))) s
    let ev := recordEvents s (runM r) reads
    let sat := if fp32Pair (runS r).fmt (runM r).fmt then countIf (fun m => !m.2.2 && (fp32Load m.1).2) (moveRow s r p i) else 0
    countMx (r.phys / 8) ev.1 ev.2 sat 0 s) s

/-- The products a column makes of a slot, masked ones apart: stationary and moving values by row element. -/
def columnPairs (set : List (Nat × Nat × FVal × Bool)) (row : List (FVal × Bool × Bool)) (c : Nat) :
    List (FVal × FVal × Bool × Bool) :=
  (row.zipIdx).map (fun m =>
    match set.find? (fun e => e.1 = m.2 && e.2.1 = c) with
    | some e => (e.2.2.1, m.1.1, m.1.2.2, !m.1.2.2 && (e.2.2.2 || m.1.2.1))
    | none => (.fin false 0 0, m.1.1, true, false))

/-- Deliver a slot's column to its lane (R72, R73): the lane and the TRUNCATE events. -/
def deliver (anchor : Int) (fp32 : Bool) (run : Nat) (pairs : List (FVal × FVal × Bool × Bool)) (lane : Acc) : Acc × Nat :=
  let poison := lane.poison || pairs.any (fun q => q.2.2.2)
  if fp32 then
    let prods := pairs.map (fun q =>
      if q.2.2.1 then 0#32 else fp32Mul (fp32Load q.1).1 (fp32Load q.2.1).1)
    ({ lane with s := fp32Chunks (prods.length + 1) lane.s prods, poison := poison }, 0)
  else
    let cs := (cutRuns pairs.length run pairs).filterMap (fun g =>
      let live := g.filter (fun q => !q.2.2.1)
      if live.isEmpty then none else some (runSum (live.map (fun q => fvMul q.1 q.2.1))))
    let e := accEnterAll anchor cs lane
    ({ e.1 with poison := poison }, e.2)

/-- Key of a lane. -/
def laneKey (bank : Bool) (slot col : Nat) : Nat := (512 * b2n bank + slot) * 256 + col

/-- Columns used in a pass. -/
def colsUsed (r : TileRun) (p : Nat) : Nat := (keptOf (genS (runTile r) (runS r)) 1 (passOf (genS (runTile r) (runS r)) p)).length

/-- All lanes of one slot of a pass. -/
def slotLanes (s : State) (r : TileRun) (p slot : Nat) (lane : Nat → Acc) : List (Nat × Acc) × Nat :=
  let t := runTile r
  let fp := fp32Pair (runS r).fmt (runM r).fmt
  let n := runLen (blockLen (runS r).fmt (runS r).scaled) (blockLen (runM r).fmt (runM r).scaled)
  let set := match r.stat.find? (fun f => f.1 = p) with
    | some f => f.2
    | none => []
  let row := moveRow s r p slot
  let res := (List.range (colsUsed r p)).map (fun c => (c, deliver t.anchor fp n (columnPairs set row c) (lane c)))
  (res.map (fun q => (q.1, q.2.1)), (res.map (fun q => q.2.2)).foldl (· + ·) 0)

/-! ### Results -/

/-- What a lane leaves with: the exact accumulator, or the running sum on the FP32 path (R51, R73, R114). -/
def laneLeave (anchor : Int) (fp32 : Bool) (a : Acc) : Leave := if fp32 then .value (fp32Val a.s) else accLeave anchor a

/-- The results of one slot of a drain block as items to store (R113, R114, R118). -/
def slotItems (s : State) (r : TileRun) (b slot : Nat) (lane : Nat → Acc) : List Item :=
  let t := runTile r
  let td := runO r
  let e := slotEntry s r 2 slot
  let fp := fp32Pair (runS r).fmt (runM r).fmt
  (dCols (genD t td) b slot).filterMap (fun v =>
    let c := outCoord t v.2.1
    if maskedAt r.block td e (subV c (outCoord t v.2.2)) then none
    else some { coord := permute t (placed e c), val := laneLeave t.anchor fp (lane v.1), poison := (lane v.1).poison })

/-- Store the results of one exit group through the output descriptor, counting SATURATE (R109, R116). -/
def storeGroup (r : TileRun) (items : List Item) (s : State) : State :=
  let st := storeAll (runBase r) (runO r) items s
  countMx (r.phys / 8) 0 0 st.2 0 st.1

/-- Move on to the next descriptor, or end the program, once every pass has run and no bank waits (R111). -/
def advance (r : TileRun) : TileRun :=
  let t := runTile r
  if r.pass < passCount t ∨ !r.exits.isEmpty then r
  else if t.end_ then { r with ended := true, lanes := [], stat := [] }
  else { r with desc := t.link, pass := 0, stat := [], lanes := [], bank := false }

/-- The results of a STREAM pass's first n slots, slot by slot, and their TRUNCATE events (R74). -/
def streamItems (s : State) (r : TileRun) (n : Nat) : List (List Item) × Nat :=
  let res := (List.range n).map (fun i => (i, slotLanes s r r.pass i (fun _ => {})))
  (res.map (fun q => slotItems s r r.pass q.1 (fun c => (SMap.find q.2.1 c).getD {})), (res.map (fun q => q.2.2)).foldl (· + ·) 0)

/-- An ACCUMULATE pass (R70, R71, R74): every slot's result joins its lane, and the last pass of a block leaves its bank to exit. -/
def accumulate (r : TileRun) (s : State) : State :=
  let t := runTile r
  let p := r.pass
  let first := p % t.ppb = 0
  let step (acc : SMap Acc × Nat) (i : Nat) : SMap Acc × Nat :=
    let res := slotLanes s r p i (fun c => if first then {} else SMap.get {} acc.1 (laneKey r.bank i c))
    (res.1.foldl (fun m q => SMap.put m (laneKey r.bank i q.1) q.2) acc.1, acc.2 + res.2)
  let (lanes, trunc) := (List.range (slotsPerPass t)).foldl step (r.lanes, 0)
  let last := (p + 1) % t.ppb = 0
  let r' := { r with
    pass := p + 1
    tag := !r.tag
    lanes := lanes
    exits := if last then r.exits ++ [(r.bank, p / t.ppb)] else r.exits
    bank := if last then !r.bank else r.bank }
  countMx (r.phys / 8) 0 0 0 trunc (putRun r' s)

/-- A pass can start: its stationary set is in a register, and in ACCUMULATE the bank it uses is not waiting to exit (R74, R78). -/
def passReady (r : TileRun) : Bool :=
  !r.ended && r.pass < passCount (runTile r) && r.stat.any (fun f => f.1 = r.pass)
    && ((runTile r).stream || !r.exits.any (fun e => e.1 = r.bank))

/-- The run with its oldest waiting bank emptied. -/
def popBank (r : TileRun) (bank : Bool) : TileRun :=
  { r with exits := r.exits.drop 1, lanes := r.lanes.filter (fun q => decide (q.1 / (512 * 256) ≠ b2n bank)) }

/-- The results of the first n slots of a waiting bank as items, exit group by exit group (R74, R109): a group that those slots do not
hold whole is left out. -/
def bankItems (s : State) (r : TileRun) (bank : Bool) (b n : Nat) : List (List Item) :=
  let lane (i c : Nat) : Acc := SMap.get {} r.lanes (laneKey bank i c)
  ((slotGroups (runTile r) (slotsPerPass (runTile r))).filter (fun l => l.all (fun i => i < n))).map (fun l =>
    l.flatMap (fun i => slotItems s r b i (lane i)))

/-- The exit of a bank as FP32 lane rows to the vector unit (R74, R110). -/
def rowsExit (r : TileRun) (bank : Bool) (b : Nat) (s : State) : State :=
  let t := runTile r
  let fp := fp32Pair (runS r).fmt (runM r).fmt
  let rows := (List.range (slotsPerPass t)).map (fun i => (List.range (colsUsed r (b * t.ppb))).map (fun c =>
    let lane := SMap.get {} r.lanes (laneKey bank i c)
    (leaveCode 0 0 0 (laneLeave t.anchor fp lane), lane.poison)))
  let r1 := popBank r bank
  let r2 := advance { r1 with vrows := r1.vrows ++ rows.map (fun row => row.map (fun x => (BitVec.ofNat 32 x.1.1, x.2))) }
  countMx (r.phys / 8) 0 0 (countIf (fun x => x.1.2) rows.flatten) 0 (putRun r2 s)

/-! ### What is left to write -/

/-- Byte ranges that the blocks of one descriptor from block b on still write, as offsets in the scratchpad (R379); the sprout output of
its node is at `port` (R192). -/
def blockWrites (r : TileRun) (port : Option Nat) (off b : Nat) : List (Nat × Nat) :=
  let t := blockTile r.block off
  let td := blockTd r.block t.oTd
  if t.exit || toPort t port then []
  else if t.listGen = 2 then [((tdSpan td).1.toNat, ((tdSpan td).2 - (tdSpan td).1).toNat)]
  else (List.range (blockCount t - b)).flatMap (fun k => (List.range (slotsPerPass t)).flatMap (fun i =>
    (dCols (genD t td) (b + k) i).map (fun v => ((elemAddr td (permute t (outCoord t v.2.1))).1.toNat, tdUnit td))))

/-- All byte ranges a run has not yet written. -/
def pendingWrites (r : TileRun) (port : Option Nat) : List (Nat × Nat) :=
  if r.ended then []
  else
    let t := runTile r
    let b := match r.exits with
      | e :: _ => e.2
      | [] => r.pass / (max 1 t.ppb)
    let later := match tileChain 255 r.block r.desc [] with
      | some l => l.drop 1
      | none => []
    blockWrites r port r.desc b ++ later.flatMap (fun o => blockWrites r port o 0)

/-! ### The cluster vector unit (R88-R91) -/

/-- FMAX and FMIN (R88): the canonical NaN for a NaN input; −0 orders below +0. -/
def fp32Less (a b : BitVec 32) : Bool :=
  let x := fp32Val a
  let y := fp32Val b
  match fvCmp x y with
  | -1 => true
  | 0 => a.msb && !b.msb
  | _ => false

def fp32Max (a b : BitVec 32) : BitVec 32 :=
  if fvIsNan (fp32Val a) || fvIsNan (fp32Val b) then 0x7FC00000#32 else if fp32Less a b then b else a

def fp32Min (a b : BitVec 32) : BitVec 32 :=
  if fvIsNan (fp32Val a) || fvIsNan (fp32Val b) then 0x7FC00000#32 else if fp32Less a b then a else b

/-- Comparison "less" of FP32 values: false with a NaN. -/
def fp32Lt (a b : BitVec 32) : Bool :=
  !(fvIsNan (fp32Val a) || fvIsNan (fp32Val b)) && fvCmp (fp32Val a) (fp32Val b) = -1

/-- A lane value with its poison. -/
abbrev Lane := BitVec 32 × Bool

/-- Element-wise operation on up to three sources. DESIGN CHOICE (log entry 29): R88 names "compare" without saying what it tests or
writes; here it tests "less than", false with a NaN, and writes 1.0 where it holds and +0 where it does not. -/
def vecElem (op : VecOp) (a b c : Lane) : Lane :=
  let two (f : BitVec 32 → BitVec 32 → BitVec 32) : Lane := (f a.1 b.1, a.2 || b.2)
  match op with
  | .fadd => two fp32Add
  | .fsub => two fp32Sub
  | .fmul => two fp32Mul
  | .fma => (fp32Fma a.1 b.1 c.1, a.2 || b.2 || c.2)
  | .fmax => two fp32Max
  | .fmin => two fp32Min
  | .cmpLt => (if fp32Lt a.1 b.1 then 0x3F800000#32 else 0#32, a.2 || b.2)
  | .convert => a
  | .exp => (fpExp a.1, a.2)
  | .recip => (fpRecip a.1, a.2)
  | .rsqrt => (fpRsqrt a.1, a.2)
  | .silu => (fpSilu a.1, a.2)
  | _ => a

/-- Sum of a row by steps 2-4 of R52, and exact maximum and minimum (R89). -/
def vecReduce (op : VecOp) (row : List Lane) : Lane :=
  let vs := row.map (fun l => l.1)
  let po := row.any (fun l => l.2)
  match op with
  | .sumReduce => (fp32Chunks (vs.length + 1) 0#32 vs, po)
  | .maxReduce => (match vs with | v :: r => r.foldl fp32Max v | [] => 0xFF800000#32, po)
  | _ => (match vs with | v :: r => r.foldl fp32Min v | [] => 0x7F800000#32, po)

/-- The operation reduces dimension 0 to one element. -/
def vecReduces (op : VecOp) : Bool :=
  match op with
  | .sumReduce => true
  | .maxReduce => true
  | .minReduce => true
  | _ => false

/-- Coordinates of a tensor, dimension 0 fastest. -/
def allCoords (ext : List Nat) : List Coord :=
  match ext with
  | [] => [[]]
  | n :: r => (allCoords r).flatMap (fun t => (List.range n).map (fun (i : Nat) => Int.ofNat i :: t))

/-- A source element as an FP32 lane (R57, R88). -/
def sourceLane (s : State) (base : Nat) (td : TDesc) (c : Coord) : Lane × Bool :=
  let e := viewElem s base td c
  let f := fp32Load e.1
  ((f.1, e.2), f.2)

end Sys2Proof.Machine
end

