-- ==== Sys2Proof/Machine/Nodes.lean ====
section
/-! DEFINITION. Nodes and instances at run time: the journal (R376-R379), ends, faults and cancellation of nodes (R258-R260, R372), and
the end of an instance (R244, R245, R255). -/

namespace Sys2Proof.Machine

open Sys2Proof

/-! ### Causes (R355) -/

def csNONE : Nat := 0x00
def csFENCED : Nat := 0x01
def csPOISONED : Nat := 0x02
def csBAD_CODE : Nat := 0x03
def csBAD_OPERAND : Nat := 0x04
def csBAD_ADDRESS : Nat := 0x05
def csNOT_PERMITTED : Nat := 0x06
def csBAD_LIST : Nat := 0x07
def csKV_QUEUE : Nat := 0x08
def csKV_RANGE : Nat := 0x09
def csKV_REWRITE : Nat := 0x0A
def csACQUIRE_FULL : Nat := 0x0B
def csPARTNER_GONE : Nat := 0x0C
def csCANCELLED : Nat := 0x0D
def csPREDECESSOR : Nat := 0x0E
def csHUB_LOST : Nat := 0x0F

/-! ### Readers -/

def findInst (s : State) (p num : Nat) : Option Inst := s.insts.find? (fun i => i.pod = p && i.num = num)
def modInst (p num : Nat) (f : Inst → Inst) (s : State) : State :=
  { s with insts := s.insts.map (fun i => if i.pod = p && i.num = num then f i else i) }
def getNode (s : State) (r : NodeRef) : Option NodeRun := (findInst s r.pod r.inst).bind (fun i => i.nodes[r.node]?)
/-- Change one element of a list. -/
def modNth {α : Type} (l : List α) (k : Nat) (f : α → α) : List α :=
  match l[k]? with
  | some x => l.set k (f x)
  | none => l
def modNode (r : NodeRef) (f : NodeRun → NodeRun) (s : State) : State :=
  modInst r.pod r.inst (fun i => { i with nodes := modNth i.nodes r.node f }) s
/-- State of node n of an instance. -/
def nodeState (i : Inst) (n : Nat) : Option NState := (i.nodes[n]?).map (fun x => x.st)

/-- Bytes read for a node from an address, with the images of adapter slots replaced since its step's release put back (R224). -/
def oldView (s : State) (r : NodeRef) (a : Nat) (bs : List (Byte × Bool)) : List (Byte × Bool) :=
  match (findInst s r.pod r.inst).bind (fun i => i.step) with
  | some st =>
    if st.oldSlots.isEmpty then bs
    else (bs.zipIdx).map (fun q =>
      match st.oldSlots.find? (fun o => o.1 ≤ a + q.2 && a + q.2 < o.1 + 4096) with
      | some o => nth q.1 o.2 (a + q.2 - o.1)
      | none => q.1)
  | none => bs

/-- The node runs now and no fault has stopped it. -/
def isRunning (s : State) (r : NodeRef) : Bool :=
  match getNode s r with
  | some n => n.st = .running && n.stop.isNone
  | none => false

/-- The cause of the fault that has stopped a node, while its issued writes are on their way (R171, R294). -/
def stoppedBy (s : State) (r : NodeRef) : Option Nat :=
  match getNode s r with
  | some n => if n.st = .running then n.stop else none
  | none => none

/-- The instance of a node is cancelled: no further pass or copy begins (R258). -/
def nodeCancelled (s : State) (ref : NodeRef) : Bool :=
  match findInst s ref.pod ref.inst with
  | some i => i.cancelled
  | none => true

/-- Every issued write of a node but a held FINAL has landed or been acknowledged (R294). -/
def issuedLanded (s : State) (ref : NodeRef) : Bool :=
  !s.flights.any (fun f => f.node = ref) && !s.portq.any (fun w => w.node = ref)
    && (match getNode s ref with
      | some n => n.unacked.isEmpty
      | none => true)

/-- The record of a node reference. -/
def recOf (s : State) (r : NodeRef) : Option NodeRec :=
  (findInst s r.pod r.inst).bind (fun i => (graphOf s i).bind (fun g => g.nodes[r.node]?))

/-- Where the descriptor of a node's sprout output lies in its blocks (R192). -/
def portOf (s : State) (r : NodeRef) : Option Nat := (recOf s r).bind sproutPort

/-- A running node of one kind: its instance, graph and record. -/
def runningKind (s : State) (r : NodeRef) (kind : Nat) : Option (Inst × Graph × NodeRec) :=
  match findInst s r.pod r.inst with
  | none => none
  | some i =>
    match graphOf s i with
    | none => none
    | some g =>
      match g.nodes[r.node]? with
      | none => none
      | some n => if n.kind = kind ∧ isRunning s r then some (i, g, n) else none

/-- The part uses Unordered I/O with a window's partner (R299). -/
def windowUio (s : State) (w : Nat) : Bool :=
  let p := getPartner s (getWindow s w).partner
  p.uio && (getPort s p.port).uio

/-- The window of an address. -/
def windowOfAddr (a : Nat) : Nat :=
  match placeOf a with
  | .window w _ => w
  | _ => 64

/-- A write that leaves through a window (R299): by Unordered I/O where the part uses it there, else with Relaxed Ordering 1, a FINAL
write with 0. -/
def sendPeer (a : Nat) (bs : List Byte) (final poisoned : Bool) (s : State) : State :=
  let uio := windowUio s (windowOfAddr a)
  emit (.peerWrite a bs final uio (!uio && !final) poisoned) s

/-- A node's write into a window, not yet acknowledged. -/
def sendPeerOf (node : NodeRef) (a : Nat) (bs : List Byte) (final poisoned : Bool) (s : State) : State :=
  modNode node (fun n => { n with unacked := n.unacked ++ [(windowOfAddr a, a + (bs.length - 1))] }) (sendPeer a bs final poisoned s)

/-- The flush read of the last address a sender-stream wrote in a window: the four bytes that hold it (R299). -/
def flushAt (a : Nat) (s : State) : State := emit (.flushRead (a / 4 * 4)) s

/-- A node wrote a poisoned granule (R366). -/
def notePoison (r : NodeRef) (s : State) : State := modNode r (fun n => { n with poison := true }) s

/-! ### The journal (R376-R378) -/

/-- The next position whose record does not read RUNNING, by fuel. -/
def skipPos (fuel : Nat) (v : Pod) (pos : Nat) : Nat :=
  match fuel with
  | 0 => pos
  | f + 1 =>
    match SMap.get none v.journal (pos % 65536) with
    | some r => if r.st = .running then skipPos f v ((pos + 1) % 2 ^ 32) else pos
    | none => pos

/-- Take the next journal position of a pod. -/
def takePos (p : Nat) (s : State) : Nat × State :=
  let v := getPod s p
  let pos := skipPos 65536 v v.jhead
  (pos, setPod p { v with jhead := (pos + 1) % 2 ^ 32 } s)

/-- Write a record at a position. -/
def writeRec (p pos : Nat) (r : JRec) (s : State) : State :=
  modPod p (fun v => { v with journal := SMap.set none v.journal (pos % 65536) (some r) }) s

/-! ### High-water marks (R379) -/

/-- Output k of a node is its sprout output: its buffer descriptor is that of SPROUT_TD (log entry 24). -/
def isSproutOut (g : Graph) (r : NodeRec) (k : Nat) : Bool :=
  r.kind = 1 && r.sprout && (g.bufs[nth 0xFFFF r.outs k]?) = some (blockTd (matrixBlock g.image r 0) r.sproutTd)

/-- Rounded down to a wave of 64 granules. -/
def waveFloor (n : Nat) : Nat := n / 64 * 64

/-- The offsets of a node's tile programs, whatever descriptor they have come to (R111). -/
def programOf (r : NodeRec) (block : List Byte) : List Nat := (tileChain 255 block r.progOff []).getD []

/-- The mark of a MATRIX output that is not complete: the waves below the lowest granule that the drains' walks have still to write, in the
space of the output's descriptor; 0 where a scatter writes it (R121). DESIGN CHOICE (log entry 24): 0 also where no drain of the node's
running programs writes it, since the walks then say nothing of what was written. -/
def matrixMark (s : State) (ref : NodeRef) (n : NodeRec) (t : TDesc) : Nat :=
  let sp := tdGranules t
  let port := sproutPort n
  let runs := s.tileRuns.filter (fun r => r.ref.node = ref)
  let place (r : TileRun) (w : Nat × Nat) : Nat × Nat := (if t.space = 1 then w.1 else runBase r + w.1, w.2)
  let hits (w : Nat × Nat) : Bool := decide (w.1 < 64 * (sp.1 + sp.2)) && decide (64 * sp.1 < w.1 + w.2)
  let all (r : TileRun) (o : Nat) : Bool := (blockWrites r port o 0).any (fun w => hits (place r w))
  let scatter := runs.any (fun r => (programOf n r.block).any (fun o => (blockTile r.block o).listGen = 2 && all r o))
  let drained := runs.any (fun r => (programOf n r.block).any (all r))
  if scatter || !drained then 0
  else
    let left := (runs.flatMap (fun r => (pendingWrites r port).map (place r))).filter hits
    waveFloor (left.foldl (fun m w => min m (w.1 / 64 - sp.1)) sp.2)

/-! ### The walk of a COPY node (R239, R258) -/

/-- Device address that a copy body's BASE is relative to: a peer address or 0. -/
def copyOrigin (i : Inst) (b : CopyBody) (peer : Bool) : Nat := if peer then nth 0 i.peers b.peerIdx else 0

/-- Coordinates of a tensor's elements in walk order, or of its records' first elements. -/
def walkCoords (t : TDesc) : List Coord :=
  if tdBlocked t then
    let n := blockLen t.fmt t.scaled
    (allCoords ((t.ext.set 0 (tdExt t 0 / n)))).map (fun c => c.set 0 (nth 0 c 0 * (n : Int)))
  else allCoords t.ext

/-- Address of the element or record at a coordinate. -/
def coordAddr (origin : Nat) (t : TDesc) (c : Coord) : Nat := ((origin : Int) + (elemAddr t c).1).toNat

/-- The granules of a tensor in walk order, each once. -/
def tensorGranules (origin : Nat) (t : TDesc) : List Nat :=
  dedup ((walkCoords t).flatMap (fun c => (recAddrs t (coordAddr origin t c)).map (fun a => a / 64)))

/-- Granules of a 4 KiB unit of a copy's walk. -/
def unitLen : Nat := 64

/-- Where a COPY output's walk has still to write or a write of it has not landed: the granules not copied, a held FINAL one, and the
unacknowledged writes into windows. -/
def copyLeft (n : NodeRun) (origin : Nat) (t : TDesc) : List Nat :=
  (match n.hold with
    | some l => l.map (fun c => c.1 / 64)
    | none => [])
  ++ (if n.work then [] else (tensorGranules origin t).drop (unitLen * n.units)) ++ n.unacked.map (fun x => x.2 / 64)

/-- The mark of a COPY output that is not complete: the waves below the lowest granule still to be written or landed. -/
def copyMark (n : NodeRun) (origin : Nat) (t : TDesc) : Nat :=
  let sp := tdGranules t
  waveFloor ((copyLeft n origin t).foldl (fun m g => min m ((64 * g - origin) / 64 - sp.1)) sp.2)

/-- The four marks of a node in a state (R379). -/
def marksOf (s : State) (ref : NodeRef) (g : Graph) (r : NodeRec) (n : NodeRun) (st : NState) : List Nat :=
  let partial_ (t : TDesc) : Nat :=
    if r.kind = 1 then matrixMark s ref r t
    else if r.kind = 3 then
      match findInst s ref.pod ref.inst with
      | some i => copyMark n (copyOrigin i (copyOf g r) (copyOf g r).peerDst) t
      | none => 0
    else 0
  (List.range 4).map (fun k =>
    match g.bufs[nth 0xFFFF r.outs k]? with
    | none => 0
    | some t =>
      if nth 0xFFFF r.outs k = 0xFFFF then 0
      else if isSproutOut g r k then 0xFFFFFFFF
      else match st with
        | .done => (tdGranules t).2
        | .poisoned => (tdGranules t).2
        | .part => partial_ t
        | .faulted => partial_ t
        | _ => 0)

/-- An output of a node that lies in this part's memory (not its sprout output, not at a peer offset). -/
def outTd (g : Graph) (r : NodeRec) (k : Nat) : Option TDesc :=
  let o := nth 0xFFFF r.outs k
  if o = 0xFFFF ∨ isSproutOut g r k then none
  else if r.kind = 3 ∧ (copyOf g r).peerDst then none
  else g.bufs[o]?

/-- Device addresses of offset 0 of an output's space: itself, or the scratchpads of the tiles that run the node (R94). -/
def outOrigins (s : State) (ref : NodeRef) (t : TDesc) : List Nat :=
  if t.space = 0 then [0] else dedup ((s.tileRuns.filter (fun r => r.ref.node = ref)).map runBase)

/-- The granules that hold elements of a tensor from granule `mark` of its span on, its gaps left out. -/
def elemGranules (t : TDesc) (origin mark : Nat) : List Nat :=
  let first := (tdGranules t).1 + mark
  (((allCoords t.ext).flatMap (fun c => recAddrs t (elemAddr t c).1.toNat)).filter (fun a => first ≤ a / 64)).map
    (fun a => (origin + a) / 64)

/-- Bit k: output k holds a poisoned granule below its mark (R377). -/
def poisonMask (s : State) (ref : NodeRef) (g : Graph) (r : NodeRec) (marks : List Nat) : Nat :=
  maskOf ((List.range 4).filter (fun k =>
    match outTd g r k with
    | some t => (outOrigins s ref t).any (fun o =>
        let lo := o / 64 + (tdGranules t).1
        s.poison.any (fun q => decide (lo ≤ q.1) && decide (q.1 < lo + nth 0 marks k)))
    | none => false))

/-- Granules where a pod reaches hold undefined values: they read as bytes nothing has written (R12, R16, R219). -/
def undefineGranules (p : Nat) (gs : List Nat) (s : State) : State :=
  (gs.filter (fun q => podAccess s p (64 * q) true ≠ some .badAddress)).foldl (fun s q => clearBytes (64 * q) (64 * q + 64) s) s

/-- R12, R16: the granules of a node's output elements at or above the outputs' marks are undefined values. -/
def undefineOutputs (ref : NodeRef) (g : Graph) (r : NodeRec) (marks : List Nat) (s : State) : State :=
  let gs := (List.range 4).flatMap (fun k =>
    match outTd g r k with
    | some t => (outOrigins s ref t).flatMap (fun o => elemGranules t o (nth 0 marks k))
    | none => [])
  undefineGranules ref.pod gs s

/-! ### The end of a node -/

/-- A running node ends in a state with a cause (R249, R377-R379): its marks, its record, its trimmed interval; its tiles and engines
are free. -/
def finishNode (ref : NodeRef) (st : NState) (cause : Nat) (s : State) : State :=
  match findInst s ref.pod ref.inst with
  | none => s
  | some i =>
    match graphOf s i, i.nodes[ref.node]? with
    | some g, some n =>
      let r := nodeRec g ref.node
      let marks := marksOf s ref g r n st
      let pm := poisonMask s ref g r marks
      let s := match st with
        | .part => undefineOutputs ref g r marks s
        | .faulted => undefineOutputs ref g r marks s
        | _ => s
      let s := match n.jpos with
        | some pos => writeRec ref.pod pos { inst := i.num, node := ref.node, st := st, pmask := pm, cause := cause, hwm := marks, time := now s } s
        | none => s
      let s := { s with tileRuns := s.tileRuns.filter (fun t => t.ref.node ≠ ref),
                        engines := s.engines.filter (fun e => match e.2 with | some run => run.node ≠ ref | none => true) }
      let s := modPod ref.pod (fun v => { v with ahead := v.ahead.filter (fun a => a.node ≠ ref) }) s
      modNode ref (fun n => { n with st := st, cause := cause, hwm := marks, pmask := pm, fin := now s, hold := none, stop := none }) s
    | _, _ => s

/-- Nodes that can never start once some nodes have failed: successors, and gang members of such (R242, R260). -/
def closureOf (g : Graph) (bad : List Nat) : List Nat :=
  (List.range g.nodes.length).foldl (fun l m =>
    if (nodeRec g m).gang = m then
      let ms := gangOf g.nodes m
      if ms.any (fun q => (predsOf g q).any (fun x => bad.contains x || l.contains x)) then l ++ ms else l
    else l) []

/-- Nodes not yet started end CANCELLED with a cause (R258-R260): their intervals go, their records follow at the instance's end. -/
def cancelNodes (p num : Nat) (ids : List Nat) (cause : Nat) (s : State) : State :=
  modInst p num (fun i => { i with nodes := (i.nodes.zipIdx).map (fun q =>
    if q.1.st = .notStarted && ids.contains q.2 then { q.1 with st := .cancelled, cause := cause } else q.1) }) s

/-! ### The end of an instance -/

/-- Records of the nodes that never started, in ascending ID (R378). -/
def closeRecords (p num : Nat) (s : State) : State :=
  match findInst s p num with
  | none => s
  | some i =>
    (i.nodes.zipIdx).foldl (fun s q =>
      if q.1.jpos.isNone then
        let (pos, s1) := takePos p s
        let g := (graphOf s i)
        let marks := match g with | some g => marksOf s ⟨p, num, q.2⟩ g (nodeRec g q.2) q.1 q.1.st | none => [0, 0, 0, 0]
        writeRec p pos { inst := num, node := q.2, st := q.1.st, pmask := 0, cause := q.1.cause, hwm := marks, time := now s } s1
      else s) s

/-- The final status of an instance (R245). -/
def statusOf (i : Inst) (nowT : Nat) : Status :=
  if i.cancelled then stCANCELLED
  else if i.nodes.any (fun n => n.cause = csFENCED && (n.st = .faulted || n.st = .cancelled)) then stFENCED
  else if i.nodes.any (fun n => n.st = .poisoned) then stPOISONED
  else if i.nodes.any (fun n => n.st ≠ .done) then stPARTIAL
  else if i.promised && i.deadline < nowT then stLATE
  else stOK

/-- LATENESS of an instance at its end (R244, R257). -/
def latenessOf (i : Inst) (nowT : Nat) : Nat := if i.promised then min 0xFFFFFFFF (nowT - i.deadline) else 0

/-- Largest DCLASS of a step's rows (R326). -/
def dclassOf (s : State) (i : Inst) : Nat :=
  match i.step with
  | some st => maxNat (st.rows.map (fun r => (getStream s r.stream).dclass))
  | none => 0

/-- The LATE event of an instance (R255, R326). -/
def postLate (i : Inst) (lateness : Nat) (s : State) : State :=
  let c := i.late.getD (0, 0)
  postPod i.pod 0x04 (i.num + at_ 32 c.1 + at_ 40 (dclassOf s i)) (lateness + at_ 32 c.2) s

/-- A held floor ends with the last instance planned on it before the re-plan; the island's rail then takes the new plan's voltage (R428). -/
def dropHeld (s : State) : State :=
  let ended := s.power.held.filter (fun h => !s.insts.any (fun i => i.floors.contains h))
  ended.foldl (fun s h => setVolt (islandRail h.1) s) { s with power := { s.power with held := s.power.held.filter (fun h => !ended.contains h) } }

/-- An instance goes: its acquire entries, windows and plan with it (R249, R303, R191). Its nodes have ended, so that no write of theirs is
still on its way. -/
def dropInst (p num : Nat) (s : State) : State :=
  let s := modPod p (fun v => { v with acquires := v.acquires.filter (fun a => a.inst ≠ num) }) s
  dropHeld { s with insts := s.insts.filter (fun i => !(i.pod = p && i.num = num)),
                    sprout := s.sprout.filter (fun w => !(w.pod = p && w.inst = num)) }

/-- An instance ends with a status (R244, R245, R255): records, LATE event, final completion. -/
def endWith (p num : Nat) (st : Status) (s : State) : State :=
  match findInst s p num with
  | none => s
  | some i =>
    let s := closeRecords p num s
    let late := latenessOf i (now s)
    let s := if st = stLATE then postLate i late s else s
    postFinal i.tok st num late (dropInst p num s)

/-- Every node of an instance has ended or can never start. -/
def allEnded (i : Inst) : Bool := i.nodes.all (fun n => !live n)

/-- A graph instance whose last node has ended ends at once; a step ends at its own row (STEP_END). -/
def checkEnd (p num : Nat) (s : State) : State :=
  match findInst s p num with
  | none => s
  | some i => if allEnded i && i.step.isNone then endWith p num (statusOf i (now s)) s else s

/-! ### Faults and cancellation -/

/-- The running members of a node's gang. -/
def runningGang (s : State) (ref : NodeRef) : List Nat :=
  match findInst s ref.pod ref.inst with
  | none => []
  | some i =>
    match graphOf s i with
    | none => []
    | some g => (gangOf g.nodes ref.node).filter (fun m => isRunning s { ref with node := m })

/-- A running node stops for a fault (R171): it ends FAULTED at once, or when the writes it has issued have landed (R294). -/
def stopFaulted (ref : NodeRef) (cause : Nat) (s : State) : State :=
  if issuedLanded s ref then finishNode ref .faulted cause s
  else modNode ref (fun n => { n with stop := some cause, hold := none }) s

/-- A running node stops FAULTED, with every running member of its gang; nodes that depend on them never start (R171, R260, R372). -/
def faultNode (ref : NodeRef) (cause : Nat) (s : State) : State :=
  if !isRunning s ref then s
  else
    match findInst s ref.pod ref.inst with
    | none => s
    | some i =>
      match graphOf s i with
      | none => s
      | some g =>
        let ms := runningGang s ref
        let s := ms.foldl (fun s m => stopFaulted { ref with node := m } cause s) s
        checkEnd ref.pod ref.inst (cancelNodes ref.pod ref.inst (closureOf g ms) csPREDECESSOR s)

/-- Every write of a node has landed or been acknowledged (R294). -/
def writesLanded (s : State) (ref : NodeRef) : Bool :=
  issuedLanded s ref && (match getNode s ref with
    | some n => n.hold.isNone
    | none => true)

/-- The work of a node is done: every tile program or thread group has ended, or its row has done it (R152). -/
def workDone (s : State) (ref : NodeRef) : Bool :=
  match recOf s ref, getNode s ref with
  | some r, some n =>
    match r.kind with
    | 1 => (s.tileRuns.filter (fun t => t.ref.node = ref)).all (fun t => t.ended)
    | 2 => !s.engines.any (fun e => match e.2 with | some run => run.node = ref && !run.groups.isEmpty | none => false)
    | 4 => !s.engines.any (fun e => match e.2 with | some run => run.node = ref && !run.groups.isEmpty | none => false)
    | _ => n.work
  | _, _ => false

/-- The node wrote poison (R366). -/
def wrotePoison (s : State) (ref : NodeRef) : Bool :=
  (s.tileRuns.any (fun t => t.ref.node = ref && t.poisoned)) || (match getNode s ref with | some n => n.poison | none => false)

/-- A running node whose work is done and whose writes have landed ends DONE or POISONED (R294, R366); one that a fault has stopped ends
FAULTED once the writes it had issued have landed (R171). -/
def completeNode (ref : NodeRef) (s : State) : State :=
  match stoppedBy s ref with
  | some c => if issuedLanded s ref then checkEnd ref.pod ref.inst (finishNode ref .faulted c s) else s
  | none =>
    if isRunning s ref && workDone s ref && writesLanded s ref then
      checkEnd ref.pod ref.inst (finishNode ref (if wrotePoison s ref then .poisoned else .done) csNONE s)
    else s

/-- Cancel an instance (R258): no node of it starts; running SYNC and HOST_EVENT nodes stop at once. -/
def cancelInst (p num : Nat) (s : State) : State :=
  match findInst s p num with
  | none => s
  | some i =>
    let s := modInst p num (fun i => { i with cancelled := true }) s
    let s := cancelNodes p num (List.range i.nodes.length) csCANCELLED s
    let atOnce := (List.range i.nodes.length).filter (fun n =>
      match recOf s ⟨p, num, n⟩ with
      | some r => (r.kind = 5 || r.kind = 6) && isRunning s ⟨p, num, n⟩
      | none => false)
    checkEnd p num (atOnce.foldl (fun s n => finishNode ⟨p, num, n⟩ .part csCANCELLED s) s)

/-- Every instance and step of a pod ends FENCED (R263): running nodes end FAULTED, the others never start. -/
def fenceInst (p num : Nat) (s : State) : State :=
  match findInst s p num with
  | none => s
  | some i =>
    let ids := List.range i.nodes.length
    let s := ids.foldl (fun s n => if isRunning s ⟨p, num, n⟩ then stopFaulted ⟨p, num, n⟩ csFENCED s else s) s
    cancelNodes p num ids csFENCED s

end Sys2Proof.Machine
end

