-- ==== Sys2Proof/Machine/Admission.lean ====
section
/-! DEFINITION. Graphs and their instances: GRAPH_LOAD and its UNLOAD flag (R234), GRAPH_RUN (R243, R244, R250, R256, R264),
GRAPH_CANCEL (R258), JOURNAL_READ (R320, R380). -/

namespace Sys2Proof.Machine

open Sys2Proof

/-! ### GRAPH_LOAD (R234) -/

def spLoad : Spec :=
  { op := 0x30, src := .pod, podRule := .must, flag := true, reads := false, fields := [(111, 64), (143, 112), (191, 160)] }

/-- The image is read and checked; the load is accepted or refused (R234). -/
def graphTake (sub : Submission) (tok : CmdTok) (p addr len : Nat) (s : State) : State :=
  if len ≠ 0 && !podReaches s p addr len false then only sub tok stNOT_PERMITTED 0 0 s
  else
    let (bs, s) := fetchBytes addr len s
    if bs.any (fun b => b.2) then only sub tok stPOISONED 0 0 s
    else
      let img := bs.map (fun b => b.1)
      match graphParse s p img, storeFit s p len with
      | none, _ => only sub tok stBAD_ARG 0 0 s
      | some _, none => only sub tok stNO_PAGES 0 0 s
      | some g, some a =>
        if 256 ≤ (podGraphs s p).length then only sub tok stNO_PAGES 0 0 s
        else
          let id := s.nextGraph
          let c : PendingCmd := { tok := tok, work := .graphLoad p id }
          let g : Graph := { g with id := id, storeAt := a }
          postFirst tok 0 { s with nextGraph := (id + 1) % 2 ^ 32, graphs := s.graphs ++ [g], cmds := s.cmds ++ [c] }

def graphLoad (sub : Submission) (tok : CmdTok) (s : State) : State :=
  let e := sub.entry
  guarded spLoad false sub tok (ent e 191 160 = 0) true s (fun s =>
    graphTake sub tok ((cmdPod sub).getD 0) (ent e 111 64) (ent e 143 112) s)

/-- GRAPH_LOAD with UNLOAD 0. -/
def execGraphLoad (sub : Submission) (s : State) : Host.Outcome State Fault Refusal :=
  .next (runCmd spLoad (fun e => !entFlag e) sub s (graphLoad sub))

/-- A graph has an instance or step that has not ended. -/
def graphBusy (s : State) (p id : Nat) : Bool := s.insts.any (fun i => i.pod = p && i.graph = id)

def graphUnload (sub : Submission) (tok : CmdTok) (s : State) : State :=
  let e := sub.entry
  let p := (cmdPod sub).getD 0
  let id := ent e 191 160
  guarded spLoad false sub tok (ent e 111 64 = 0 && ent e 143 112 = 0) (getGraph s p id).isSome s (fun s =>
    if graphBusy s p id then only sub tok stNOT_PERMITTED 0 0 s
    else
      let c : PendingCmd := { tok := tok, work := .graphUnload p id }
      postFirst tok 0 { s with graphs := s.graphs.map (fun g => if g.pod = p && g.id = id then { g with loaded := false } else g),
                               cmds := s.cmds ++ [c] })

/-- GRAPH_LOAD with UNLOAD 1. -/
def execGraphUnload (sub : Submission) (s : State) : Host.Outcome State Fault Refusal :=
  .next (runCmd spLoad entFlag sub s (graphUnload sub))

/-- Take the first pending command of some work out of the list. -/
def takeCmd (w : Work) (s : State) : Option (PendingCmd × State) :=
  match s.cmds.find? (fun c => c.work = w) with
  | some c => some (c, { s with cmds := s.cmds.erase c })
  | none => none

/-- GRAPH_LOAD_COMPLETE: the load or the unload of a graph ends. -/
def graphLoadComplete (p id : Nat) (s : State) : State :=
  match takeCmd (.graphLoad p id) s with
  | some (c, s) =>
    match s.graphs.find? (fun g => g.pod = p && g.id = id) with
    | some g =>
      postFinal c.tok stOK (id + at_ 32 (b2n g.step)) 0
        { s with graphs := s.graphs.map (fun g => if g.pod = p && g.id = id then { g with loaded := true } else g) }
    | none => s
  | none =>
    match takeCmd (.graphUnload p id) s with
    | some (c, s) => postFinal c.tok stOK 0 0 { s with graphs := s.graphs.filter (fun g => !(g.pod = p && g.id = id)) }
    | none => s

def execGraphLoadComplete (pod graph : Nat) (s : State) : Host.Outcome State Fault Refusal := .next (graphLoadComplete pod graph s)

/-! ### GRAPH_RUN (R243, R244) -/

def spRun : Spec :=
  { op := 0x31, src := .pod, podRule := .must, flag := false, reads := false,
    fields := [(95, 64), (159, 96), (223, 160), (224, 224), (303, 256), (351, 320)] }

/-- A node not yet started, with its planned place. -/
def freshNode (cores : List Nat) (start fin : Nat) : NodeRun :=
  { st := .notStarted, cause := 0, cores := cores, start := start, fin := fin, jpos := none, startedAt := 0, hwm := [0, 0, 0, 0],
    pmask := 0, work := false, units := 0, poison := false, hold := none, unacked := [], stop := none, waiting := false }

/-- The floors a plan uses: each table island of its cores with its floor in force (R246, R428). -/
def planFloors (s : State) (p : Nat) (slots : List Slot) : List (Nat × Nat) :=
  (dedup (slots.flatMap (fun sl => sl.cores.map (islandOf s p)))).map (fun i => (i, floorNow s i))

/-- Admit an instance or step: it takes the pod's next instance number and the cause of lateness that stands already (R416, R419), and
FIRST is posted (R244). -/
def admitInst (i : Inst) (s : State) : State :=
  let v := getPod s i.pod
  postFirst i.tok v.nextInst
    { setPod i.pod { v with nextInst := (v.nextInst + 1) % 2 ^ 32 } s with insts := s.insts ++ [{ i with num := v.nextInst, late := lateNow s i }] }

/-- EARLIEST of a refusal (R250, R476). -/
def earliest (slots : Option (List Slot)) : Nat :=
  match slots with
  | none => 2 ^ 64 - 1
  | some l => if infinite ≤ completionOf l then 2 ^ 64 - 1 else completionOf l

/-- The 16 peer addresses of PEER_TAB. -/
def peerTable (a : Nat) (s : State) : List (Byte × Bool) × State := if a = 0 then ([], s) else fetchBytes a 128 s

/-- The decision on a GRAPH_RUN (R250, R256, R264). -/
def decideRun (sub : Submission) (tok : CmdTok) (p : Nat) (g : Graph) (release deadline : Nat) (promised : Bool) (peers : List Nat)
    (s : State) : State :=
  let base : Inst :=
    { pod := p, num := 0, graph := g.id, tok := tok, promised := promised, release := max release (now s), deadline := deadline,
      nodes := [], step := none, peers := peers, cancelled := false, late := none, floors := [], sources := podSources s p }
  if (getPod s p).quota ≤ jobCount s p then only sub tok stREFUSED_QUOTA 0 0 s
  else if !promised then admitInst { base with nodes := g.nodes.map (fun _ => freshNode [] 0 0) } s
  else
    match tentative s p g (max release (now s)) none with
    | none => only sub tok stREFUSED_DEADLINE (earliest none) 0 s
    | some slots =>
      if completionOf slots ≤ deadline then
        admitInst { base with nodes := slots.map (fun sl => freshNode sl.cores sl.start sl.fin), floors := planFloors s p slots } s
      else only sub tok stREFUSED_DEADLINE (earliest (some slots)) 0 s

def graphRun (sub : Submission) (tok : CmdTok) (s : State) : State :=
  let e := sub.entry
  let p := (cmdPod sub).getD 0
  let promised := !bit e.toNat 224
  let release := ent e 159 96
  let deadline := ent e 223 160
  let tab := ent e 303 256
  guarded spRun false sub tok ((!promised || release ≤ deadline) && tab % 64 = 0) (getGraph s p (ent e 95 64)).isSome s (fun s =>
    match getGraph s p (ent e 95 64) with
    | none => s
    | some g =>
      if g.step || (promised && g.peer) || (tab ≠ 0 && !podReaches s p tab 128 false) then only sub tok stNOT_PERMITTED 0 0 s
      else
        let (bs, s) := peerTable tab s
        if bs.any (fun b => b.2) then only sub tok stPOISONED 0 0 s
        else
          let peers := (List.range 16).map (fun k => leNat (((bs.drop (8 * k)).take 8).map (fun b => b.1)))
          decideRun sub tok p g release deadline promised peers s)

/-- GRAPH_RUN. -/
def execGraphRun (sub : Submission) (s : State) : Host.Outcome State Fault Refusal :=
  .next (runCmd spRun (fun _ => true) sub s (graphRun sub))

/-! ### GRAPH_CANCEL (R258) -/

def spCancel : Spec := { op := 0x32, src := .pod, podRule := .must, flag := false, reads := false, fields := [(95, 64)] }

def graphCancel (sub : Submission) (tok : CmdTok) (s : State) : State :=
  let p := (cmdPod sub).getD 0
  let num := ent sub.entry 95 64
  guarded spCancel false sub tok true (findInst s p num).isSome s (fun s => only sub tok stOK 0 0 (cancelInst p num s))

def execGraphCancel (sub : Submission) (s : State) : Host.Outcome State Fault Refusal :=
  .next (runCmd spCancel (fun _ => true) sub s (graphCancel sub))

/-! ### JOURNAL_READ (R320, R380) -/

def spJournal : Spec :=
  { op := 0x33, src := .podOrMgmt, podRule := .must, flag := false, reads := true, fields := [(127, 64), (159, 128), (172, 160)] }

/-- The bytes of a range of journal positions; 32 zero bytes at or past JRNL_HEAD (R380). -/
def journalRange (s : State) (p first n : Nat) : List Byte :=
  (List.range n).flatMap (fun k =>
    if first + k < (getPod s p).jhead then leBytes 32 (journalAt s p (first + k)) else List.replicate 32 0)

/-- Write a result buffer (R320). -/
def emitResult (sub : Submission) (dest : Nat) (bs : List Byte) (s : State) : State :=
  emit (.result sub.mbx dest bs (mbxPasid (getMbx s sub.mbx))) s

def journalRead (sub : Submission) (tok : CmdTok) (s : State) : State :=
  let e := sub.entry
  let p := (cmdPod sub).getD 0
  let first := ent e 159 128
  let n := ent e 172 160
  guarded spJournal false sub tok (ent e 127 64 % 64 = 0 && 1 ≤ n && n ≤ 4096) ((getPod s p).jhead ≤ first + 65536) s (fun s =>
    only sub tok stOK n (getPod s p).jhead (emitResult sub (ent e 127 64) (journalRange s p first n) s))

def execJournalRead (sub : Submission) (s : State) : Host.Outcome State Fault Refusal :=
  .next (runCmd spJournal (fun _ => true) sub s (journalRead sub))

end Sys2Proof.Machine
end

