-- ==== Sys2Proof/Machine/FabricCmds.lean ====
section
/-! DEFINITION. Commands of the package fabric (R24-R34, R289): flits, retrains, the LC slot cap and the landing of a write. -/

namespace Sys2Proof.Machine

open Sys2Proof

/-- The unit behind an endpoint is fenced: its local port is isolated (R34). -/
def endFenced (s : State) (e : Endpoint) : Bool :=
  match e with
  | .stack st => stackFenced s st
  | .matrix d => mxFenced s d
  | .hub h => hubFenced s h
  | .cluster c => clusterFenced s c
  | .tile t => tileFenced s t
  | .group g => groupFenced s g
  | .engine e => engineFenced s e
  | .slice k => sliceFenced s k

/-- An endpoint of the package. -/
def endExists (e : Endpoint) : Bool :=
  match e with
  | .stack st => st < 16
  | .matrix d => d < 4
  | .hub h => h < 2
  | .cluster c => c < 32
  | .tile t => t < 256
  | .group g => g < 64
  | .engine e => e < 1024
  | .slice k => k < 64

/-- An endpoint as the header of a flit names it: its kind and number. -/
def endCode (e : Endpoint) : Nat :=
  match e with
  | .stack n => 8 * n
  | .matrix n => 8 * n + 1
  | .hub n => 8 * n + 2
  | .cluster n => 8 * n + 3
  | .tile n => 8 * n + 4
  | .group n => 8 * n + 5
  | .engine n => 8 * n + 6
  | .slice n => 8 * n + 7

/-- The CRC over a flit's header, mask and payload (R29). -/
def flitCrc (d : FlitDesc) : BitVec 32 :=
  Config.flitCrc [endCode d.src, endCode d.dst, classKey (trafficClass d.what), d.pod, d.core] d.mask d.payload

/-- A flit of a best-effort node yields to those of promised work (R256, R257). -/
def flitYields (s : State) (d : FlitDesc) : Bool :=
  match d.node with
  | some r => (findInst s r.pod r.inst).any (fun i => !i.promised)
  | none => false

/-- The error response that a flit gets instead of being delivered: the node that issued it ends FAULTED with FENCED (R34, R476). -/
def flitError (f : Flit) (s : State) : State :=
  let s := { s with fabric := { s.fabric with arrived := s.fabric.arrived ++ [(f, false)] } }
  match f.desc.node with
  | some r => faultNode r csFENCED s
  | none => s

/-- A flit leaves the fabric: delivered, or answered with an error where its destination is fenced (R34). -/
def arriveFlit (f : Flit) (s : State) : State :=
  let f := { f with route := [] }
  if endFenced s f.desc.dst then flitError f s
  else { s with fabric := { s.fabric with arrived := s.fabric.arrived ++ [(f, true)] } }

/-- The flit that a source forms (R19, R29), numbered and without a route yet. -/
def newFlit (s : State) (d : FlitDesc) : Flit :=
  let d := { d with pod := d.pod % 16, core := d.core % 128 }
  { id := s.fabric.nextFlit, desc := d, crc := flitCrc d, yields := flitYields s d, route := [], fails := 0 }

/-- FLIT_INJECT: on its fixed route, or an error response at once (R24, R34, R476). -/
def flitInject (d : FlitDesc) (s : State) : State :=
  if !endExists d.src || !endExists d.dst then s
  else
    let f := newFlit s d
    let s := { s with fabric := { s.fabric with nextFlit := s.fabric.nextFlit + 1 } }
    if endFenced s d.src || endFenced s d.dst then flitError f s
    else match route s (epNode d.src) (epNode d.dst) with
      | none => flitError f s
      | some (_, []) => arriveFlit f s
      | some (_, r) => { s with fabric := { s.fabric with flits := s.fabric.flits ++ [{ f with route := r }] } }

def execFlitInject (src dst : Endpoint) (what : Traffic) (owner : FlitOwner) (load : FlitLoad) (s : State) : Host.Outcome State Fault Refusal :=
  .next (flitInject ⟨src, dst, what, owner.pod, owner.core, owner.node, load.mask, load.payload⟩ s)

/-- Flits that wait for either direction of a link. -/
def linkFlits (s : State) (n : Nat) : List Flit := waiting s n true ++ waiting s n false

/-- A flit that waits for the link has failed its CRC twice there (R30). -/
def mustRetrain (s : State) (n : Nat) : Bool := (linkFlits s n).any (fun f => 2 ≤ f.fails)

/-- The link carries flits now: not retraining, failed or out of use (R21, R30, R31). -/
def linkUp (s : State) (n : Nat) : Bool := linkLive s n && (getLink s n).state ≠ 1 && !mustRetrain s n

/-- The flit as the receiver sees it, with the bits that the link has flipped. -/
def noisy (f : Flit) (noise : BitVec 608) : Flit :=
  { f with crc := f.crc ^^^ noise.extractLsb' 0 32,
           desc := { f.desc with mask := f.desc.mask ^^^ noise.extractLsb' 32 64, payload := f.desc.payload ^^^ noise.extractLsb' 96 512 } }

/-- The receiver's check: the CRC over header, mask and payload is the one that the flit carries (R29). -/
def crcHolds (f : Flit) : Bool := flitCrc f.desc = f.crc

/-- The receiver acknowledges a flit: it leaves the sender's replay buffer (R29). -/
def ackFlit (link : Nat) (up : Bool) (id : Nat) (s : State) : State :=
  let a := getArb s link up
  setArb link up { a with replay := a.replay.filter (fun k => k ≠ id) } s

/-- A flit that passed its CRC moves on (R29). -/
def passFlit (f : Flit) (s : State) : State :=
  match f.route with
  | [] => s
  | _ :: [] => arriveFlit f { s with fabric := { s.fabric with flits := replaceFlit f.id none s.fabric.flits } }
  | _ :: r => { s with fabric := { s.fabric with flits := replaceFlit f.id (some { f with route := r, fails := 0 }) s.fabric.flits } }

/-- A flit that failed its CRC is discarded and waits for its replay (R29, R33). -/
def failFlit (link : Nat) (f : Flit) (s : State) : State :=
  let l := getLink s link
  setLink link { l with crcErr := satAdd 0xFFFF l.crcErr 1 }
    { s with fabric := { s.fabric with flits := replaceFlit f.id (some { f with fails := f.fails + 1 }) s.fabric.flits } }

/-- Every pod's job count is zero (R28, R264). -/
def noJobs (s : State) : Bool := s.insts.isEmpty

/-- NEXT comes into force on a link (R28). -/
def applyCap (n : Nat) (s : State) : State := setLink n { getLink s n with capActive := (getLink s n).capNext } s

/-- A slot has carried a flit, and at the window's end a requested cap comes into force where no job is outstanding (R27, R28). -/
def slotUsed (link : Nat) (up : Bool) (a : Arb) (s : State) : State :=
  let s := setArb link up a s
  if a.slot = 0 && noJobs s then applyCap link s else s

/-- FLIT_RECEIVE: the flit that the arbitration of the link direction sends next is checked, and delivered or discarded for a replay;
either way it has used its slot (R27, R29, R248). -/
def flitReceive (link : Nat) (up : Bool) (noise : BitVec 608) (s : State) : State :=
  if 37 ≤ link || !linkUp s link then s
  else match arbitrate s link up with
    | none => s
    | some (f, a) =>
      let s := slotUsed link up a s
      if crcHolds (noisy f noise) then passFlit (noisy f noise) (ackFlit link up f.id s) else failFlit link f s

def execFlitReceive (link : Nat) (up : Bool) (noise : BitVec 608) (s : State) : Host.Outcome State Fault Refusal :=
  .next (flitReceive link up noise s)

/-- LINK_RETRAIN: a flit's second CRC failure starts a retrain (R30, R33). -/
def linkRetrain (n : Nat) (s : State) : State :=
  if n < 37 && linkLive s n && (getLink s n).state ≠ 1 && mustRetrain s n then
    let l := getLink s n
    setLink n { l with state := 1, retrain := satAdd 0xFF l.retrain 1 } s
  else s

def execLinkRetrain (link : Nat) (s : State) : Host.Outcome State Fault Refusal := .next (linkRetrain link s)

/-- The failure counts of the flits at a link start over. -/
def clearFails (n : Nat) (s : State) : State :=
  { s with fabric := { s.fabric with flits := s.fabric.flits.map (fun f =>
      match f.route with
      | h :: _ => if h.1 = n then { f with fails := 0 } else f
      | [] => f) } }

/-- An instance has a node running or still to run under a plan. -/
def hasWork (i : Inst) : Bool := i.nodes.any live

/-- The set of failures has changed: routes are chosen again, plans extended, running instances may come late for it, and the nodes
whose flits have no live route any more end FAULTED (R31, R32, R255, R476, R479). -/
def routesChanged (cause detail : Nat) (s : State) : State :=
  let lost := (stranded s).filterMap (fun f => f.desc.node)
  lost.foldl (fun s r => faultNode r csFENCED s) (extendPlans (recordLate hasWork cause detail (reroute s)))

/-- RETRAIN_DONE: up again, or one more unsuccessful attempt; the third makes the link FAILED (R30). -/
def retrainDone (n : Nat) (ok : Bool) (s : State) : State :=
  let l := getLink s n
  if 37 ≤ n || l.state ≠ 1 then s
  else if ok then clearFails n (setLink n { l with state := if n < 33 then 0 else 3, badTries := 0 } s)
  else if l.badTries = 2 then routesChanged 0x03 n (setLink n { l with state := 2, badTries := 3 } s)
  else setLink n { l with badTries := l.badTries + 1, retrain := satAdd 0xFF l.retrain 1 } s

def execRetrainDone (link : Nat) (ok : Bool) (s : State) : Host.Outcome State Fault Refusal := .next (retrainDone link ok s)

/-! ### The LC slot cap (R28) -/

/-- The requester is the owner PF's aperture. -/
def isOwner (s : State) (req : Requester) : Bool :=
  match req with
  | .fn f => isPF f && s.owner = some f && !portFenced s (fnPort f)
  | .control => false

/-- LC_CAP_WRITE: NEXT is written through the owner PF's aperture alone; 49-63 is ignored. -/
def lcCapWrite (req : Requester) (n : Nat) (value : BitVec 32) (s : State) : State :=
  let v := bits value.toNat 13 8
  if n < 37 && isOwner s req && v ≤ 48 then setLink n { getLink s n with capNext := v } s else s

/-- The window of a link direction stands at its boundary, or nothing waits there, so that its slots pass idle to the boundary. -/
def atBoundary (s : State) (n : Nat) (up : Bool) : Bool := (getArb s n up).slot = 0 || (waiting s n up).isEmpty

/-- A window at its boundary. -/
def restartWindow (n : Nat) (up : Bool) (s : State) : State :=
  if atBoundary s n up then setArb n up { getArb s n up with slot := 0, lcUsed := 0 } s else s

/-- LC_CAP_APPLY: a window boundary that a direction reaches through idle slots, with every pod's job count zero, brings NEXT into
force (R28); a boundary that a flit's slot reaches does so itself (`slotUsed`). DESIGN CHOICE (log entry 18): the cap is one for both
directions of a link, whose windows are two, and the boundary of either counts. -/
def lcCapApply (n : Nat) (s : State) : State :=
  if n < 37 && noJobs s && (atBoundary s n true || atBoundary s n false) then
    restartWindow n true (restartWindow n false (applyCap n s))
  else s

def execLcCapApply (n : Nat) (s : State) : Host.Outcome State Fault Refusal := .next (lcCapApply n s)

/-! ### Landing (R289) -/

/-- A granule of the device address space is memory of a unit in service (R35, R37; R38: group-shared memory has no device address). -/
def isMemory (s : State) (g : Nat) : Bool :=
  let pl := placeOf (64 * g)
  !placeFenced s pl && (match pl with
    | .csr _ => false
    | .window _ _ => false
    | .group _ _ => false
    | .reserved => false
    | _ => true)

/-- WRITE_LAND: the controller accepts a write to a granule (R289, R292). -/
def writeLand (g : Nat) (mask : BitVec 64) (data : BitVec 512) (s : State) : State :=
  if isMemory s g then landGranule g mask (leBytes 64 data.toNat) s else s

def execWriteLand (granule : Nat) (mask : BitVec 64) (data : BitVec 512) (s : State) : Host.Outcome State Fault Refusal :=
  .next (writeLand granule mask data s)

end Sys2Proof.Machine
end

