-- ==== Sys2Proof/Machine/Mailboxes.lean ====
section
/-! DEFINITION. Mailbox and event-ring registers: enable and disable (R312), doorbells (R313), acknowledgement (R313, R323 row 1), the
event ring (R317, R318), MSI-X messages (R318) and the clearing reads of BAR0 (R311, R317). -/

namespace Sys2Proof.Machine

open Sys2Proof

/-- A mailbox that exists on a function in service. -/
def mbxAlive (s : State) (m : Mbx) : Bool := mbxExists m && fnAlive s m.fn

/-- A running mailbox enters ERROR with a code: discarding starts, vector 2 announces it (R312, R318). -/
def mbxError (m : Mbx) (code : Nat) (s : State) : State :=
  let b := getMbx s m
  pendVec m.fn 2 (setMbx m { b with state := 2, err := code, epoch := b.epoch + 1, bells := [] } s)

/-- The parameters of R311 hold. -/
def mbxParamsOk (b : Mailbox) : Bool :=
  4 ≤ b.sqLog && b.sqLog ≤ 12 && 4 ≤ b.cqLog && b.cqLog ≤ 12 && b.sqBase.toNat % 4096 = 0 && b.cqBase.toNat % 4096 = 0

/-- Pages whose translation a function comes to use through ATS (R349). -/
def atsUse (fn : Nat) (pages : List Nat) (s : State) : State :=
  let f := getFunc s fn
  setFunc fn { f with ats := pages.foldl (fun l p => if l.contains p then l else l ++ [p]) f.ats } s

/-- The pages of a buffer of bytes at a bus address. -/
def busPages (a len : Nat) : List Nat := (List.range ((a + len - 1) / 4096 + 1 - a / 4096)).map (fun i => a / 4096 + i)

/-- Writing ENABLE = 1 (R312). -/
def mbxEnable (m : Mbx) (s : State) : State :=
  let b := getMbx s m
  if !mbxAlive s m || b.state = 1 then s
  else
    let fresh : Mailbox := { b with enable := true, err := 0, sqHead := 0, sqTail := 0, cqHead := 0, cqTail := 0, phase := true, reserved := 0, bells := [] }
    if mbxParamsOk b then
      atsUse m.fn (busPages b.sqBase.toNat (64 * 2 ^ b.sqLog) ++ busPages b.cqBase.toNat (32 * 2 ^ b.cqLog)) (setMbx m { fresh with state := 1 } s)
    else mbxError m 4 (setMbx m fresh s)

/-- MBX_ENABLE. -/
def execMbxEnable (mbx : Mbx) (s : State) : Host.Outcome State Fault Refusal := .next (mbxEnable mbx s)

/-- A mailbox stops: DISABLED, with discarding from now on (R312). -/
def stopMbx (m : Mbx) (s : State) : State :=
  let b := getMbx s m
  setMbx m { b with enable := false, state := 0, epoch := if b.state = 1 then b.epoch + 1 else b.epoch, bells := [] } s

/-- The mailboxes of a function stop. -/
def stopFn (fn : Nat) (s : State) : State :=
  (List.range 4).foldl (fun s m => if mbxExists ⟨fn, m⟩ then stopMbx ⟨fn, m⟩ s else s) s

/-- MBX_DISABLE. -/
def execMbxDisable (mbx : Mbx) (s : State) : Host.Outcome State Fault Refusal :=
  .next (if mbxAlive s mbx then stopMbx mbx s else s)

/-- The hub notes a doorbell write that covers new entries: the SQ_TAIL written and its place in the hub's order (R261). -/
def ringBell (m : Mbx) (tail : Nat) (s : State) : State :=
  let b := getMbx s m
  let h := getHub s (fnHub m.fn)
  if b.sqTail = tail then s
  else setHub (fnHub m.fn) { h with bells := h.bells + 1 } (setMbx m { b with sqTail := tail, bells := b.bells ++ [(tail, h.bells + 1)] } s)

/-- SQ_DOORBELL: ignored unless the mailbox runs and READY is 1 (R312, R334). -/
def sqDoorbell (m : Mbx) (tail : Nat) (s : State) : State :=
  let b := getMbx s m
  if !mbxAlive s m || b.state ≠ 1 || !ready s (fnHub m.fn) then s
  else if 2 ^ b.sqLog ≤ tail then mbxError m 1 s
  else ringBell m tail s

def execSqDoorbell (mbx : Mbx) (tail : BitVec 16) (s : State) : Host.Outcome State Fault Refusal :=
  .next (sqDoorbell mbx tail.toNat s)

/-- CQ_HEAD_WRITE: releases the slots before it (R313). -/
def cqHeadWrite (m : Mbx) (head : Nat) (s : State) : State :=
  let b := getMbx s m
  if !mbxAlive s m then s
  else if b.state = 1 && 2 ^ b.cqLog ≤ head then mbxError m 2 s
  else setMbx m { b with cqHead := head } s

def execCqHeadWrite (mbx : Mbx) (head : BitVec 16) (s : State) : Host.Outcome State Fault Refusal :=
  .next (cqHeadWrite mbx head.toNat s)

/-! ### Acknowledgement -/

/-- The opcodes of R319. -/
def opcodes : List Nat :=
  [0x01, 0x02, 0x03, 0x04, 0x10, 0x11, 0x12, 0x13, 0x14, 0x20, 0x21, 0x22, 0x30, 0x31, 0x32, 0x33, 0x40, 0x41, 0x42, 0x43, 0x44, 0x45,
   0x48, 0x4C, 0x4D, 0x50, 0x51, 0x52, 0x60, 0x61, 0x62, 0x63, 0x64, 0x70, 0x71, 0x72, 0x80, 0x81, 0x91, 0x92]

/-- Free completion slots not yet reserved (R313). -/
def freeSlots (b : Mailbox) : Nat := 2 ^ b.cqLog - 1 - ringUsed b.cqLog b.cqTail b.cqHead - b.reserved

/-- An entry waits in a running mailbox. -/
def entryWaits (s : State) (m : Mbx) : Bool :=
  let b := getMbx s m
  mbxAlive s m && b.state = 1 && ready s (fnHub m.fn) && b.sqHead ≠ b.sqTail

/-- The pages of a command's result buffer (R320, R349). -/
def resultPages (e : BitVec 512) : List Nat :=
  if entOpcode e = 0x33 then busPages (ent e 127 64) (32 * max 1 (ent e 172 160))
  else if [0x01, 0x02, 0x60, 0x61].contains (entOpcode e) then busPages (ent e 127 64) 4096
  else []

/-- The doorbell writes of a mailbox that still cover an entry once its ring's head has moved to `head`. -/
def bellsLeft (b : Mailbox) (head : Nat) : List (Nat × Nat) :=
  if head = b.sqTail then []
  else match b.bells with
    | x :: r => if x.1 = head then r else x :: r
    | [] => []

/-- SUBMISSION_ACK: copy the next entry once its completion slots are free (R313); an unknown opcode fails at once (R323 row 1).
With `busOk` false a ring access of the running mailbox has failed on the bus: the read of that entry, or a completion's write (R312). -/
def submissionAck (m : Mbx) (entry : BitVec 512) (busOk : Bool) (s : State) : State :=
  let b := getMbx s m
  if !busOk then (if mbxAlive s m && b.state = 1 then mbxError m 3 s else s)
  else if !entryWaits s m then s
  else if freeSlots b < slotsOf entry then s
  else
    let sub : Submission := { mbx := m, entry := entry, pod := boundPod s m.fn, bell := (b.bells.head?.map (fun x => x.2)).getD 0 }
    let s := atsUse m.fn (resultPages entry) s
    let head := ringNext b.sqLog b.sqHead
    let s := setMbx m { b with sqHead := head, bells := bellsLeft b head, outstanding := b.outstanding + 1, reserved := b.reserved + slotsOf entry } s
    if opcodes.contains (entOpcode entry) then { s with acked := s.acked ++ [(sub, b.epoch)] }
    else only sub (tokOf sub b.epoch 0) stBAD_OPCODE 0 0 s

def execSubmissionAck (mbx : Mbx) (entry : BitVec 512) (busOk : Bool) (s : State) : Host.Outcome State Fault Refusal :=
  .next (submissionAck mbx entry busOk s)

/-! ### The event ring and MSI-X -/

/-- EVENT_RING_ENABLE (R317). -/
def eventRingEnable (fn : Nat) (s : State) : State :=
  let f := getFunc s fn
  if !fnAlive s fn || f.evEnable || f.evLog < 4 || 12 < f.evLog then s
  else atsUse fn (busPages f.evBase.toNat (32 * 2 ^ f.evLog)) (setFunc fn { f with evEnable := true, evHead := 0, evTail := 0, phase := true } s)

def execEventRingEnable (fn : Nat) (s : State) : Host.Outcome State Fault Refusal := .next (eventRingEnable fn s)

/-- LOST_FLAG_CLEAR (R317). -/
def execLostFlagClear (fn : Nat) (s : State) : Host.Outcome State Fault Refusal :=
  .next (if fnAlive s fn then setFunc fn { getFunc s fn with lostFlag := false } s else s)

/-- EV_HEAD_WRITE (R317, R318). -/
def execEvHeadWrite (fn : Nat) (head : BitVec 16) (s : State) : Host.Outcome State Fault Refusal :=
  .next (if fnAlive s fn then setFunc fn { getFunc s fn with evHead := head.toNat } s else s)

/-- MSIX_MESSAGE: a vector with something to announce sends its message unless it is masked; the function must have MSI-X enabled
and not masked as a whole, and be a bus master (R318; log entry 64). -/
def msixMessage (fn vec : Nat) (s : State) : State :=
  let f := getFunc s fn
  if !fnAlive s fn || !f.bme || !f.msixOn || f.msixMask || !nth false f.msixPend vec then s
  else match f.msix[vec]? with
    | some (a, d, false) => emit (.msix fn vec a d) (setFunc fn { f with msixPend := f.msixPend.set vec false } s)
    | _ => s

def execMsixMessage (fn : Nat) (vec : Nat) (s : State) : Host.Outcome State Fault Refusal := .next (msixMessage fn vec s)

/-- A host read of BAR0 that is not taken: Completer Abort, uncounted, on a fenced port (R478); Unsupported Request where the
function is not there (PCIe, PRESUMED: log entry 12). -/
def bar0Abort (fn : Nat) (s : State) : State :=
  if fnThere s fn then emit (.read (.fn fn) [] false true) s else if fn < 20 then emit (.unsupported fn) s else s

/-- MBX_DROPPED_READ: DROPPED is returned and cleared (R311). -/
def execMbxDroppedRead (mbx : Mbx) (s : State) : Host.Outcome State Fault Refusal :=
  .next (if !mbxExists mbx then s
  else if fnAlive s mbx.fn then
    let b := getMbx s mbx
    emit (.read (.fn mbx.fn) (leBytes 4 b.dropped) false false) (setMbx mbx { b with dropped := 0 } s)
  else bar0Abort mbx.fn s)

/-- EVENT_LOST_READ: LOST is returned and cleared (R317). -/
def execEventLostRead (fn : Nat) (s : State) : Host.Outcome State Fault Refusal :=
  .next (if fnAlive s fn then
    let f := getFunc s fn
    emit (.read (.fn fn) (leBytes 4 f.lost) false false) (setFunc fn { f with lost := 0 } s)
  else bar0Abort fn s)

end Sys2Proof.Machine
end

