-- ==== Sys2Proof/Machine/Streams.lean ====
section
/-! DEFINITION. What stream commands, boundaries and fences share: reference counts (R195, R196), freeing and closing streams (R206,
R207, R216), page sets made LOST (R200), growth and private copies (R195, R209), windows (R191), and the end of a step (R208, R214). -/

namespace Sys2Proof.Machine

open Sys2Proof

/-! ### Reference counts and the chaff list -/

/-- The count of a SHARED page set goes down by one; at 0 its frames go on the chaff list (R195, R196). -/
def rcDown (p pool : Nat) (e : Pte) (s : State) : State :=
  let v := getPod s p
  let c := SMap.get 0 v.rc e.rc
  let s := setPod p { v with rc := SMap.set 0 v.rc e.rc (c - 1) } s
  if c = 1 then chaffSet p pool e s else s

/-- One more name for a SHARED page set. -/
def rcUp (p rc : Nat) (s : State) : State := modPod p (fun v => { v with rc := SMap.mod 0 v.rc rc (fun c => c + 1) }) s

/-- The lowest unused reference-count index from 1 to 16,777,215 whose 4 bytes are free in the KV control area and lie in a slice in
service, if any (R182, R195). -/
def freeRc (s : State) (v : Pod) : Option Nat :=
  ((List.range (v.rc.length + 1)).map (fun i => i + 1)).find? (fun i =>
    let o := rcOffset v i
    SMap.get 0 v.rc i = 0 && i < 0x1000000 && 4 * (i + 1) + 384 * v.nodes ≤ kvcLen v
      && v.kvcUsed.all (fun q => o + 4 ≤ q.1 || q.1 + q.2 ≤ o) && !sliceFenced s (nth 64 v.kvcSlices (o / 0x8000000)))

/-- An entry leaves a table (R183): RESIDENT frames to the chaff list, a SHARED count down. -/
def dropEntry (p pool : Nat) (e : Pte) (s : State) : State :=
  match e.st with
  | .resident => chaffSet p pool e s
  | .shared => rcDown p pool e s
  | _ => s

/-- The reserved range of a page table goes on the chaff list. -/
def chaffTable (p addr : Nat) (s : State) : State :=
  let v := getPod s p
  match v.kvcUsed.find? (fun q => kvcAddr v q.1 = addr) with
  | some q => setPod p { v with chaffTables := v.chaffTables ++ [q] } s
  | none => s

/-- A stream becomes FREE at a boundary (R206, R216): its table goes, and its other fields keep their values until STREAM_OPEN writes the
entry again, since only POD_DESTROY resets it. -/
def freeStream (i : Nat) (s : State) : State :=
  let e := getStream s i
  let s := e.pt.foldl (fun s t => dropEntry e.pod e.pool t s) s
  setStream i { e with state := .free, pt := [], work := .idle, inReady := false } (chaffTable e.pod e.ptAddr s)

/-- The last n entries of a table go (R216). -/
def dropEntries (i n : Nat) (s : State) : State :=
  let e := getStream s i
  let k := e.pt.length - n
  let s := (e.pt.drop k).foldl (fun s t => dropEntry e.pod e.pool t s) s
  modStream i (fun e => { e with pt := e.pt.take k, tail := tailIndex (e.pt.take k) e.wp }) s

/-! ### Closing -/

/-- A pending command acts on a stream. -/
def onStream (i : Nat) (w : Work) : Bool :=
  match w with
  | .openInbound k => k = i
  | .park k _ _ _ => k = i
  | .unpark k _ => k = i
  | .ship k _ _ _ => k = i
  | _ => false

/-- PARKED entries of a table with the frames an unpark has allocated for them. -/
def unparkSets (pt : List Pte) (frames : List Nat) : List (Pte × Nat) := (pt.filter (fun t => t.st = .parked)).zip frames

/-- Frames an interrupted unpark had allocated go on the chaff list (R199). -/
def dropUnpark (i : Nat) (w : Work) (s : State) : State :=
  match w with
  | .unpark _ (some frames) =>
    let e := getStream s i
    (unparkSets e.pt frames).foldl (fun s q => chaffSet e.pod e.pool { q.1 with frame := q.2 } s) s
  | _ => s

/-- The command in progress on a stream stops and completes with a status (R207). -/
def stopStreamWork (i : Nat) (st : Status) (s : State) : State :=
  let mine := s.cmds.filter (fun c => onStream i c.work)
  let s := { s with cmds := s.cmds.filter (fun c => !onStream i c.work) }
  let s := mine.foldl (fun s c => postFinal c.tok st 0 0 (dropUnpark i c.work s)) s
  modStream i (fun e => { e with work := .idle }) s

/-- A stream becomes CLOSING with a cause (R206); work in progress on it has stopped. -/
def closeStream (i : Nat) (cause : Status) (s : State) : State :=
  let e := getStream s i
  if e.state = .free || e.state = .closing then s
  else { setStream i { e with state := .closing, cause := cause, closeSeq := s.closeSeq, work := .idle } s with closeSeq := s.closeSeq + 1 }

/-- Stop a stream's work with a status and close it. -/
def stopStream (i : Nat) (st cause : Status) (s : State) : State := closeStream i cause (stopStreamWork i st s)

/-! ### Page sets lost (R200) -/

/-- A page set holds a piece in a stack. -/
def pieceIn (r : Region) (st : Nat) (e : Pte) : Bool := !(heldBy r e.first e.sizeExp st).isEmpty

/-- An entry becomes LOST: frames of a RESIDENT entry to the chaff list, a SHARED count down (R183). -/
def loseEntry (p pool : Nat) (e : Pte) (s : State) : Pte × State :=
  ({ e with st := .lost, frame := 0, rc := 0 }, dropEntry p pool e s)

/-- Every entry of a stream's table that a test names becomes LOST; true when there was one. -/
def loseEntries (i : Nat) (test : Pte → Bool) (s : State) : Bool × State :=
  let e := getStream s i
  if e.pt.any test then
    let (pt, s) := e.pt.foldl (fun acc t =>
      if test t then
        let (t, s) := loseEntry e.pod e.pool t acc.2
        (acc.1 ++ [t], s)
      else (acc.1 ++ [t], acc.2)) (([] : List Pte), s)
    (true, modStream i (fun e => { e with pt := pt }) s)
  else (false, s)

/-- Streams whose entries a test names lose them and close; the streams closed (R200, R206). -/
def loseStreams (who : Nat → Stream → Pte → Bool) (st cause : Status) (s : State) : List Nat × State :=
  (s.streams.filter (fun q => q.2.state ≠ .free)).foldl (fun acc q =>
    let s := acc.2
    if q.2.pt.any (who q.1 q.2) then
      let s := (loseEntries q.1 (who q.1 q.2) (stopStreamWork q.1 st s)).2
      (if q.2.state = .closing then acc.1 else acc.1 ++ [q.1], closeStream q.1 cause s)
    else (acc.1, s)) (([] : List Nat), s)

/-! ### Growth (R209) and private copies (R195) -/

/-- What a step may still allocate (R210). -/
structure Budget where
  ps : Nat
  fr : Nat
  cp : Nat
deriving DecidableEq, Repr

/-- No limit: an unpark or an inbound open is under no step's budget. -/
def freeBudget : Budget := { ps := 2 ^ 32, fr := 2 ^ 32, cp := 2 ^ 32 }

/-- Append page sets to a stream's table (R180, R209): whether all were found, what is left of the budget, and the state so far. -/
def growSets (i : Nat) (l : List (Nat × Nat)) (b : Budget) (s : State) : Bool × Budget × State :=
  match l with
  | [] => (true, b, s)
  | q :: r =>
    let e := getStream s i
    let n := frameCount q.2
    if e.ptCap ≤ e.pt.length || b.ps = 0 || b.fr < n then (false, b, s)
    else match allocSet e.pod e.pool q.1 q.2 s with
      | none => (false, b, s)
      | some (t, s) => growSets i r { b with ps := b.ps - 1, fr := b.fr - n } (modStream i (fun e => { e with pt := e.pt ++ [t] }) s)

/-- Growth of a table to cover positions below an end. -/
def growTo (i stop : Nat) (b : Budget) (s : State) : Bool × Budget × State :=
  let e := getStream s i
  growSets i (growPlan 8193 e.pageExp (tableEnd e.pt) stop) b s

/-- The ranges (source, destination, bytes) that a private copy of positions below an end moves, stack by stack (R195). -/
def copyRanges (r : Region) (old new : Pte) (stop : Nat) : List (Nat × Nat × Nat) :=
  (List.range (pageP old.sizeExp / 16)).flatMap (fun u =>
    let pos := old.first + 16 * u
    if stop ≤ pos then []
    else (List.range r.layers).flatMap (fun l => (List.range r.heads).flatMap (fun h => [false, true].map (fun k =>
      (kvAddr r old.first old.sizeExp old.frame pos l h k 0, kvAddr r new.first new.sizeExp new.frame pos l h k 0,
        min 16 (stop - pos) * regV r)))))

/-- Copy bytes with their poison. -/
def moveBytes (q : Nat × Nat × Nat) (s : State) : State :=
  let (bs, s) := fetchBytes q.1 q.2.2 s
  landPoisonable q.2.1 bs s

/-- A private copy of one SHARED entry for a window that starts at a position (R195). -/
def copyEntry (i : Nat) (t : Pte) (wp : Nat) (b : Budget) (s : State) : Bool × Budget × State :=
  let e := getStream s i
  let n := frameCount t.sizeExp
  if b.ps = 0 || b.cp = 0 || b.fr < n then (false, b, s)
  else match poolOf s e.pod e.pool, allocSet e.pod e.pool t.first t.sizeExp s with
    | some (_, r), some (t', s) =>
      let s := (copyRanges r t t' wp).foldl (fun s q => moveBytes q s) s
      let s := modStream i (fun e => { e with pt := e.pt.map (fun x => if x.first = t.first then t' else x), copies := satAdd 0xFFFF e.copies 1 }) s
      (true, { ps := b.ps - 1, fr := b.fr - n, cp := b.cp - 1 }, rcDown e.pod e.pool t s)
    | _, _ => (false, b, s)

/-- Private copies of every SHARED entry that meets a window (R195). -/
def copyShared (i first n : Nat) (b : Budget) (s : State) : Bool × Budget × State :=
  ((getStream s i).pt.filter (fun t => t.st = .shared && t.first < first + n && first < t.first + pageP t.sizeExp)).foldl
    (fun acc t => if acc.1 then copyEntry i t first acc.2.1 acc.2.2 else acc) (true, b, s)

/-- Pages for a window of a stream: growth, then private copies; false where MAXPOS, PT_CAP, a budget or the pool stops it (R217). -/
def windowPages (i first n : Nat) (b : Budget) (s : State) : Bool × Budget × State :=
  if (getStream s i).maxpos < first + n - 1 then (false, b, s)
  else
    match growTo i (first + n) b s with
    | (true, b, s) => copyShared i first n b s
    | r => r

/-! ### Steps -/

/-- Change a step's rows. -/
def modStep (p num : Nat) (f : StepInfo → StepInfo) (s : State) : State :=
  modInst p num (fun i => { i with step := i.step.map f }) s

/-- A row that holds its stream: continuing or join. -/
def rowLive (r : StepRow) : Bool := r.kind < 2

/-- Staged steps of a pod that name a stream in a live row, in order. -/
def stepsOn (s : State) (p stream : Nat) : List (Inst × StepRow) :=
  (podInsts s p).filterMap (fun i => match i.step with
    | some st => if st.staged then (st.rows.find? (fun r => r.stream = stream && rowLive r)).map (fun r => (i, r)) else none
    | none => none)

/-- BUSY reads 1 while a released step that names the stream has not ended (R213). -/
def setBusy (p stream : Nat) (s : State) : State := modStream stream (fun e => { e with busy := !(stepsOn s p stream).isEmpty }) s

/-- Bytes the part writes into the pod's own memory, where the unit is in service. -/
def landOwn (a : Nat) (bs : List Byte) (s : State) : State := if placeFenced s (placeOf a) then s else landBytes a bs s

/-- The 16-byte record of a row (R220). -/
def rowWord (r : StepRow) : Nat :=
  r.stream + at_ 16 r.kind + at_ 32 (r.wp % 2 ^ 24) + at_ 64 (if r.kind = 3 then 0 else r.n) + at_ 76 (b2n r.adapterV)
    + at_ 80 (if r.adapterV then r.adapterAddr / 4096 else 0)

/-- Row k's record and result are written (R220). -/
def writeRow (st : StepInfo) (k : Nat) (r : StepRow) (s : State) : State :=
  landOwn (st.results + 2 * k) (leBytes 2 r.result) (landOwn (st.rowtab + 16 * k) (leBytes 16 (rowWord r)) s)

/-- A chained row of a step for boundary b whose first position lies past the stream's WP once the last step it is chained to has ended
(R214; DEDUCED, log entry 68: while an earlier one still runs, its end may bring WP there). -/
def cutRow (s : State) (p b : Nat) (r : StepRow) : Bool :=
  r.chained && r.kind = 0 && (getStream s r.stream).wp < r.wp
    && !(stepsOn s p r.stream).any (fun q => match q.1.step with | some st => st.boundary < b | none => false)

/-- A cut row becomes a sink: its record, its result and its window change (R214, R219). -/
def sinkRow (p num : Nat) (st : StepInfo) (k : Nat) (r : StepRow) (s : State) : State :=
  let r' : StepRow := { r with kind := 2, result := stCANCELLED }
  let s := modStep p num (fun st => { st with rows := st.rows.set k r' }) s
  let s := { s with sprout := s.sprout.map (fun w => if w.pod = p && w.inst = num && w.stream = r.stream then { w with sink := true } else w) }
  setBusy p r.stream (writeRow st k r' s)

/-- The cut rows of one step become sinks. -/
def sinkStep (p : Nat) (i : Inst) (s : State) : State :=
  match i.step with
  | some st => if st.staged then (st.rows.zipIdx).foldl (fun s q => if cutRow s p st.boundary q.1 then sinkRow p i.num st q.2 q.1 s else s) s else s
  | none => s

/-- Every chained row of a pod's staged steps that is now cut becomes a sink, in the order of their boundaries (R214). -/
def sinkChained (p : Nat) (s : State) : State :=
  let l := podInsts s p
  let at_ (i : Inst) : List Nat := match i.step with | some st => [st.boundary] | none => []
  (sortNat (dedup (l.flatMap at_))).foldl (fun s b => (l.filter (fun i => (at_ i).contains b)).foldl (fun s i => sinkStep p i s) s) s

/-- The write high-water mark that a step's end leaves for the stream of one live row (R194, R208): the whole window after a normal end,
what the counts show after any other, and no change where the row's first position was never reached (a chained row). -/
def endMark (p num : Nat) (st : Status) (r : StepRow) (s : State) : Nat :=
  let e := getStream s r.stream
  if st = stOK || st = stLATE then r.wp + r.n
  else match windowOf s p num r.stream with
    | some w => if e.wp < w.first then e.wp else windowMark s w
    | none => e.wp

/-- What the end of a step with a status does to the stream of one live row (R208). -/
def endRow (p num : Nat) (st : Status) (r : StepRow) (s : State) : State :=
  let e := getStream s r.stream
  let wp := endMark p num st r s
  setStream r.stream
    { e with wp := wp, tail := tailIndex e.pt wp, tokens := satAdd (2 ^ 64 - 1) e.tokens (wp - e.wp), steps := satAdd 0xFFFFFFFF e.steps 1,
             late := if st = stLATE then satAdd 0xFFFFFFFF e.late 1 else e.late } s

/-- The live rows of an ended step are settled with their marks; BUSY and later chained rows follow (R208, R214). -/
def settleRows (p num : Nat) (st : Status) (rows : List StepRow) (s : State) : State :=
  rows.foldl (fun s r => endRow p num st r s) s

/-- A step ends with a status: rows settled, records, completion, then the rows chained to it (R208, R214, R245). -/
def endStep (p num : Nat) (st : Status) (s : State) : State :=
  match findInst s p num with
  | none => s
  | some i =>
    let rows := match i.step with
      | some x => if x.staged then x.rows.filter rowLive else []
      | none => []
    let s := settleRows p num st rows s
    let s := endWith p num st s
    sinkChained p (rows.foldl (fun s r => setBusy p r.stream s) s)

/-- An instance or step every node of which has ended, ends (R244). -/
def endAny (p num : Nat) (s : State) : State :=
  match findInst s p num with
  | none => s
  | some i => if allEnded i then (if i.step.isSome then endStep p num (statusOf i (now s)) s else endWith p num (statusOf i (now s)) s) else s

end Sys2Proof.Machine
end

