-- ==== Sys2Proof/Machine/StreamCmds.lean ====
section
/-! DEFINITION. Stream commands: opening (R205, R206, R230, R231), cancelling (R207), adapters (R222-R224), the prefix index
(R226-R229), landing writes (R233). -/

namespace Sys2Proof.Machine

open Sys2Proof

/-! ### Names and space -/

/-- The pod a stream command acts on. -/
def podOf (sub : Submission) : Nat := (cmdPod sub).getD 0

/-- A stream exists for a pod under a generation (R205, R320). -/
def streamKnown (s : State) (p i gen : Nat) : Bool :=
  let e := getStream s i
  e.state ≠ .free && e.pod = p && e.gen = gen

/-- The lowest FREE stream ID of the next n from i on. -/
def freeStreamFrom (s : State) (n i : Nat) : Option Nat :=
  match n with
  | 0 => none
  | m + 1 => if (getStream s i).state = .free then some i else freeStreamFrom s m (i + 1)

/-- The lowest FREE stream ID (R205). -/
def freeStreamId (s : State) : Option Nat := freeStreamFrom s 65536 0

/-- Room for n bytes in a pod's KV control area: the lowest place beside the prefix index, other tables and the reference counts, whole in
one slice (R205; log entry 20). -/
def kvcFit (s : State) (v : Pod) (n : Nat) : Option Nat :=
  let starts := sortNat (roundUp 64 (384 * v.nodes) :: (List.range v.kvcSlices.length).map (fun i => 0x8000000 * i)
    ++ v.kvcUsed.map (fun q => q.1 + q.2))
  starts.find? (fun a => 384 * v.nodes ≤ a && a % 0x8000000 + n ≤ 0x8000000 && a + n + 4 * rcTop v ≤ kvcLen v
    && !sliceFenced s (nth 64 v.kvcSlices (a / 0x8000000)) && v.kvcUsed.all (fun q => a + n ≤ q.1 || q.1 + q.2 ≤ a))

/-- Bytes reserved for a page table (R205). -/
def tableBytes (cap : Nat) : Nat := 16 * cap

/-! ### STREAM_OPEN -/

def spOpen : Spec :=
  { op := 0x40, src := .pod, podRule := .must, flag := true, reads := false,
    fields := [(65, 64), (69, 66), (73, 70), (74, 74), (95, 80), (109, 96), (135, 112), (191, 160), (216, 192)] }

/-- The field rules of R204, R222 and R320 that do not depend on INBOUND. -/
def openFields (s : State) (p : Nat) (e : BitVec 512) : Bool :=
  let v := getPod s p
  4 ≤ ent e 69 66 && ent e 69 66 ≤ 11 && 1 ≤ ent e 109 96 && ent e 109 96 ≤ 8192
    && (!bit e.toNat 74 || (v.slotFirst ≤ ent e 95 80 && ent e 95 80 < v.slotFirst + v.slots))

/-- The stream entry a STREAM_OPEN writes. -/
def openEntry (s : State) (p : Nat) (e : BitVec 512) (gen addr : Nat) : Stream :=
  { pod := p, state := .open_, pool := ent e 65 64, pageExp := ent e 69 66, dclass := ent e 73 70,
    adapter := if bit e.toNat 74 then some (ent e 95 80) else none, gen := (gen + 1) % 2 ^ 16, ptAddr := addr, ptCap := ent e 109 96,
    pfx := ent e 191 160, maxpos := ent e 135 112, opened := now s }

/-- A prefix node by its index; the root is node 0. -/
def getPfx (v : Pod) (n : Nat) : PrefixNode := SMap.get {} v.pfx n

/-- The path from the root down to a node, the root apart, by fuel. -/
def pfxPath (fuel : Nat) (v : Pod) (n : Nat) (below : List Nat) : List Nat :=
  match fuel with
  | 0 => below
  | f + 1 => if n = 0 then below else pfxPath f v (getPfx v n).parent (n :: below)

/-- The table that a prefix node's path names: one SHARED entry per page set, in position order (R230). A page set is the one that its
reference count counts; two of the same FIRST, which streams that inserted different blocks leave, both get an entry. -/
def pfxTable (v : Pod) (path : List Nat) : List Pte :=
  path.foldl (fun l n =>
    let d := getPfx v n
    if l.any (fun t => t.rc = d.rc) then l
    else l ++ [{ first := d.first, sizeExp := d.sizeExp, st := .shared, frame := d.frame, rc := d.rc, park := 0 }]) []

/-- Reserve a table and write the entry of a new stream: its ID and the state, or none for want of room. -/
def openStream (p : Nat) (e : BitVec 512) (s : State) : Option (Nat × State) :=
  let v := getPod s p
  match freeStreamId s, kvcFit s v (tableBytes (ent e 109 96)) with
  | some i, some o =>
    let s' := setPod p { v with kvcUsed := v.kvcUsed ++ [(o, tableBytes (ent e 109 96))] } s
    some (i, setStream i (openEntry s p e (getStream s i).gen (kvcAddr v o)) s')
  | _, _ => none

/-- VALUE0 of an open: ID, GEN and landing key (R322). -/
def openValue (s : State) (i : Nat) : Nat := i + at_ 16 (getStream s i).gen + at_ 32 (getStream s i).inKey.toNat

/-- A prefix node that can be named: it is not FREE. -/
def pfxKnown (v : Pod) (n : Nat) : Bool := n < v.nodes && (getPfx v n).state ≠ 0

def streamOpen (sub : Submission) (tok : CmdTok) (s : State) : State :=
  let e := sub.entry
  let p := podOf sub
  let n := ent e 191 160
  guarded spOpen false sub tok (openFields s p e && ent e 216 192 = 0)
    ((poolOf s p (ent e 65 64)).isSome && (n = 0 || pfxKnown (getPod s p) n)) s (fun s =>
    let v := getPod s p
    let path := pfxPath (v.pfx.length + 1) v n []
    let pt := pfxTable v path
    if path.any (fun k => (getPfx v k).state = 2) then only sub tok stPOISONED 0 0 s
    else if path.any (fun k => (getPfx v k).pool ≠ ent e 65 64) then only sub tok stBAD_ARG 0 0 s
    else if ent e 109 96 < pt.length then only sub tok stNO_PAGES 0 0 s
    else match openStream p e s with
      | none => only sub tok stNO_PAGES 0 0 s
      | some (i, s) =>
        let s := pt.foldl (fun s t => rcUp p t.rc s) s
        let wp := 64 * (getPfx v n).depth
        let s := modStream i (fun x => { x with pt := pt, wp := wp, tail := tailIndex pt wp }) s
        only sub tok stOK (openValue s i) 0 s)

/-- STREAM_OPEN with INBOUND 0 (R205, R230). -/
def execStreamOpen (sub : Submission) (s : State) : Host.Outcome State Fault Refusal :=
  .next (runCmd spOpen (fun e => !entFlag e) sub s (streamOpen sub))

def streamOpenInbound (sub : Submission) (tok : CmdTok) (s : State) : State :=
  let e := sub.entry
  let p := podOf sub
  let len := ent e 216 192
  guarded spOpen false sub tok (openFields s p e && 1 ≤ len && len ≤ 16777216 && len ≤ ent e 135 112 + 1 && ent e 191 160 = 0)
    (poolOf s p (ent e 65 64)).isSome s (fun s =>
    match openStream p e s with
    | none => only sub tok stNO_PAGES 0 0 s
    | some (i, s) =>
      let key := BitVec.ofNat 32 (Config.freeId s.freeIdx)
      let c : PendingCmd := { tok := tok, work := .openInbound i }
      let s := modStream i (fun x => { x with inbound := true, inLen := len, inKey := key }) s
      postFirst tok 0 { s with freeIdx := s.freeIdx + 1, cmds := s.cmds ++ [c] })

/-- STREAM_OPEN with INBOUND 1 (R231). -/
def execStreamOpenInbound (sub : Submission) (s : State) : Host.Outcome State Fault Refusal :=
  .next (runCmd spOpen entFlag sub s (streamOpenInbound sub))

/-! ### STREAM_CANCEL (R206, R207) -/

def spStrCancel : Spec := { op := 0x41, src := .pod, podRule := .must, flag := false, reads := false, fields := [(79, 64), (95, 80)] }

def streamCancel (sub : Submission) (tok : CmdTok) (s : State) : State :=
  let i := ent sub.entry 79 64
  guarded spStrCancel false sub tok true (streamKnown s (podOf sub) i (ent sub.entry 95 80)) s (fun s =>
    if (getStream s i).state = .closing then only sub tok stNOT_PERMITTED 0 0 s
    else only sub tok stOK 0 0 (stopStream i stCANCELLED stOK s))

def execStreamCancel (sub : Submission) (s : State) : Host.Outcome State Fault Refusal :=
  .next (runCmd spStrCancel (fun _ => true) sub s (streamCancel sub))

/-! ### ADAPTER_LOAD (R222-R224) -/

def spAdapter : Spec := { op := 0x48, src := .pod, podRule := .must, flag := false, reads := false, fields := [(79, 64), (86, 80), (143, 96)] }

def adapterLoad (sub : Submission) (tok : CmdTok) (s : State) : State :=
  let e := sub.entry
  let p := podOf sub
  let v := getPod s p
  let slot := ent e 79 64
  let layers := ent e 86 80
  let src := ent e 143 96
  guarded spAdapter false sub tok (1 ≤ layers && layers ≤ 120 && v.slotFirst ≤ slot && slot < v.slotFirst + v.slots) true s (fun s =>
    if !podReaches s p src 4096 false then only sub tok stNOT_PERMITTED 0 0 s
    else
      let (bs, s) := fetchBytes src 4096 s
      let img := bs.map (fun b => b.1)
      if bs.any (fun b => b.2) then only sub tok stPOISONED 0 0 s
      else if (img.drop (34 * layers)).any (fun b => b ≠ 0) then only sub tok stBAD_ARG 0 0 s
      else only sub tok stOK 0 0 (modPod p (fun v => { v with staged := v.staged.filter (fun q => q.1 ≠ slot) ++ [(slot, img)] }) s))

def execAdapterLoad (sub : Submission) (s : State) : Host.Outcome State Fault Refusal :=
  .next (runCmd spAdapter (fun _ => true) sub s (adapterLoad sub))

/-! ### The prefix index (R226-R229) -/

/-- The fingerprint of a block under its parent's (R227). -/
def fingerprint (parent : BitVec 64) (tokens : List Nat) : BitVec 64 :=
  tokens.foldl (fun h t =>
    let m : BitVec 64 := (h ^^^ BitVec.ofNat 64 t) * 0x9E3779B97F4A7C15#64
    m ^^^ (m >>> 29)) parent

/-- The children of a node in sibling order, by fuel. -/
def siblings (fuel : Nat) (v : Pod) (n : Nat) : List Nat :=
  match fuel with
  | 0 => []
  | f + 1 => if n = 0 then [] else n :: siblings f v (getPfx v n).sibling

def childrenOf (v : Pod) (n : Nat) : List Nat := siblings (v.pfx.length + 1) v (getPfx v n).child

/-- The VALID child of a node that holds a block (R228). -/
def findChild (v : Pod) (n : Nat) (tokens : List Nat) : Option Nat :=
  let fp := fingerprint (getPfx v n).fp tokens
  if (getPfx v n).state = 2 then none
  else (childrenOf v n).find? (fun c => (getPfx v c).state = 1 && (getPfx v c).fp = fp && (getPfx v c).tokens = tokens)

/-- A lookup: the last node reached and the blocks not found. -/
def lookup (v : Pod) (n : Nat) (blocks : List (List Nat)) : Nat × List (List Nat) :=
  match blocks with
  | [] => (n, [])
  | b :: r =>
    match findChild v n b with
    | some c => lookup v c r
    | none => (n, b :: r)

/-- The 64-token blocks of a byte list. -/
def blocksOf (k : Nat) (bs : List Byte) : List (List Nat) :=
  (List.range k).map (fun b => (List.range 64).map (fun i => leNat ((bs.drop (256 * b + 4 * i)).take 4)))

def setPfx (v : Pod) (n : Nat) (d : PrefixNode) : Pod := { v with pfx := SMap.set {} v.pfx n d }

/-- Link a list of children under a node, in order. -/
def linkChildren (v : Pod) (n : Nat) (l : List Nat) : Pod :=
  let v := setPfx v n { getPfx v n with child := nth 0 l 0 }
  (l.zipIdx).foldl (fun v q => setPfx v q.1 { getPfx v q.1 with sibling := nth 0 l (q.2 + 1) }) v

/-- A node's place among its siblings: ascending FP, then node index (R226). -/
def insertChild (v : Pod) (c : Nat) (l : List Nat) : List Nat :=
  let before (x : Nat) : Bool := (getPfx v x).fp < (getPfx v c).fp || ((getPfx v x).fp = (getPfx v c).fp && x < c)
  l.filter before ++ [c] ++ l.filter (fun x => !before x)

/-- A prefix node's record or tokens lie in a fenced slice. -/
def pfxFenced (s : State) (v : Pod) (n : Nat) : Bool := [256 * v.nodes + 128 * n, 256 * n].any (fun o =>
  sliceFenced s (nth 64 v.kvcSlices (o / 0x8000000)))

/-- The first FREE node index. -/
def freeNode (s : State) (p : Nat) : Option Nat :=
  let v := getPod s p
  ((List.range v.nodes).drop 1).find? (fun n => (getPfx v n).state = 0 && !pfxFenced s v n)

/-- The entry of a stream's table that holds a position becomes SHARED if it is not: it then counts the stream itself (R229). -/
def shareEntry (p i pos : Nat) (s : State) : Option (Pte × State) :=
  match entryAt (getStream s i).pt pos with
  | none => none
  | some t =>
    if t.st = .shared then some (t, s)
    else (freeRc s (getPod s p)).map (fun rc =>
      let t' : Pte := { t with st := .shared, rc := rc }
      (t', rcUp p rc (modStream i (fun e => { e with pt := e.pt.map (fun x => if x.first = t.first then t' else x) }) s)))

/-- Create nodes for blocks under a node: the last node, how many, whether all were created, and the state (R229). -/
def insertBlocks (p i : Nat) (blocks : List (List Nat)) (n made : Nat) (s : State) : Nat × Nat × Bool × State :=
  match blocks with
  | [] => (n, made, true, s)
  | b :: r =>
    let v := getPod s p
    match freeNode s p, shareEntry p i (64 * (getPfx v n).depth) s with
    | some c, some (t, s) =>
      let v := getPod s p
      let d : PrefixNode :=
        { fp := fingerprint (getPfx v n).fp b, parent := n, depth := (getPfx v n).depth + 1, state := 1, pool := (getStream s i).pool, tokens := b,
          first := t.first, sizeExp := t.sizeExp, frame := t.frame, rc := t.rc }
      let v := setPfx v c d
      let s := setPod p (linkChildren v n (insertChild v c (childrenOf v n))) s
      insertBlocks p i r c (made + 1) (rcUp p t.rc s)
    | _, _ => (n, made, false, s)

def spInsert : Spec :=
  { op := 0x4C, src := .pod, podRule := .must, flag := true, reads := false,
    fields := [(79, 64), (95, 80), (114, 96), (191, 144), (223, 192)] }

/-- A position range is covered by page sets of 64 positions or more that are RESIDENT or SHARED (R229). -/
def insertable (pt : List Pte) (n : Nat) : Bool :=
  (List.range n).all (fun b => match entryAt pt (64 * b) with
    | some t => 6 ≤ t.sizeExp && (t.st = .resident || t.st = .shared)
    | none => false)

def prefixInsert (sub : Submission) (tok : CmdTok) (s : State) : State :=
  let e := sub.entry
  let p := podOf sub
  let i := ent e 79 64
  let k := ent e 114 96
  let a := ent e 191 144
  guarded spInsert false sub tok (1 ≤ k && k ≤ 262144 && ent e 223 192 = 0) (streamKnown s p i (ent e 95 80)) s (fun s =>
    let x := getStream s i
    if !podReaches s p a (256 * k) false || x.wp < 64 * k || !insertable x.pt k then only sub tok stNOT_PERMITTED 0 0 s
    else
      let (bs, s) := fetchBytes a (256 * k) s
      if bs.any (fun b => b.2) then only sub tok stPOISONED 0 0 s
      else
        let (n, rest) := lookup (getPod s p) 0 (blocksOf k (bs.map (fun b => b.1)))
        let (n, made, all, s) := insertBlocks p i rest n 0 s
        only sub tok (if all then stOK else stNO_PAGES) n made s)

/-- PREFIX_INSERT with REMOVE 0. -/
def execPrefixInsert (sub : Submission) (s : State) : Host.Outcome State Fault Refusal :=
  .next (runCmd spInsert (fun e => !entFlag e) sub s (prefixInsert sub))

/-- One childless node goes, with its name for the page set (R229). -/
def removeNode (p n : Nat) (s : State) : State :=
  let v := getPod s p
  let d := getPfx v n
  let v := linkChildren v d.parent ((childrenOf v d.parent).filter (fun c => c ≠ n))
  let s := setPod p (setPfx v n {}) s
  if d.state = 1 then rcDown p d.pool { first := d.first, sizeExp := d.sizeExp, st := .shared, frame := d.frame, rc := d.rc, park := 0 } s else s

def prefixRemove (sub : Submission) (tok : CmdTok) (s : State) : State :=
  let e := sub.entry
  let p := podOf sub
  let n := ent e 223 192
  guarded spInsert false sub tok (ent e 114 96 = 0 && ent e 191 144 = 0)
    (streamKnown s p (ent e 79 64) (ent e 95 80) && n ≠ 0 && pfxKnown (getPod s p) n) s (fun s =>
    if (getPfx (getPod s p) n).child ≠ 0 then only sub tok stNOT_PERMITTED 0 0 s
    else only sub tok stOK 0 0 (removeNode p n s))

/-- PREFIX_INSERT with REMOVE 1; STREAM and GEN are checked as without (R320). -/
def execPrefixRemove (sub : Submission) (s : State) : Host.Outcome State Fault Refusal :=
  .next (runCmd spInsert entFlag sub s (prefixRemove sub))

def spLookup : Spec := { op := 0x4D, src := .pod, podRule := .must, flag := true, reads := false, fields := [(82, 64), (143, 96)] }

def prefixLookup (sub : Submission) (tok : CmdTok) (s : State) : State :=
  let e := sub.entry
  let p := podOf sub
  let k := ent e 82 64
  let a := ent e 143 96
  guarded spLookup false sub tok (1 ≤ k && k ≤ 262144) true s (fun s =>
    if !podReaches s p a (256 * k) false then only sub tok stNOT_PERMITTED 0 0 s
    else
      let (bs, s) := fetchBytes a (256 * k) s
      if bs.any (fun b => b.2) then only sub tok stPOISONED 0 0 s
      else
        let v := getPod s p
        let n := (lookup v 0 (blocksOf k (bs.map (fun b => b.1)))).1
        only sub tok stOK (n + at_ 32 (getPfx v n).depth) 0 s)

/-- PREFIX_LOOKUP; WALKER chooses who walks, with the same result (R228). -/
def execPrefixLookup (sub : Submission) (s : State) : Host.Outcome State Fault Refusal :=
  .next (runCmd spLookup (fun _ => true) sub s (prefixLookup sub))

/-! ### Landing writes (R233) -/

/-- A requester is a VF bound to a pod. -/
def isPodFn (s : State) (req : Requester) (p : Nat) : Bool :=
  match req with
  | .fn f => fnAlive s f && boundPod s f = some p
  | .control => false

/-- A landing write to HUB_KV_LAND[p]. -/
def kvLand (p : Nat) (value : BitVec 512) (s : State) : State :=
  let w := value.toNat
  let i := bits w 15 0
  let e := getStream s i
  if e.state = .open_ && e.inbound && e.inReady && e.pod = p && e.inLen = bits w 56 32 && e.inKey.toNat = bits w 95 64 then
    setStream i { e with state := .resident, inbound := false, wp := e.inLen, tail := tailIndex e.pt e.inLen } s
  else { s with kvDropped := SMap.mod 0 s.kvDropped p (fun n => satAdd 0xFFFF n 1) }

/-- A requester that may read the CSR range (R346). -/
def csrReader (s : State) (req : Requester) : Bool :=
  match req with
  | .fn f => fnAlive s f && (isPF f || (boundPod s f).isSome)
  | .control => true

end Sys2Proof.Machine
end

