-- ==== Sys2Proof/Machine/Parks.lean ====
section
/-! DEFINITION. Parking a stream (R197, R198, R448), restoring it (R199), shipping it (R232) and acknowledged window writes (R298,
R299). -/

namespace Sys2Proof.Machine

open Sys2Proof

/-! ### Images (R198, R448) -/

/-- Bytes of a page set's image, padded to 4 KiB. -/
def imageLen (r : Region) (t : Pte) : Nat := roundUp 4096 (r.layers * (pageP t.sizeExp / 16) * regU r)

/-- Bytes of its tag area. -/
def tagLen (r : Region) (t : Pte) : Nat := roundUp 4096 (imageLen r t / 4096 * 16)

/-- Unit-layers of a page set in image order: layer, then position; address and bytes. -/
def unitLayers (r : Region) (t : Pte) (frame stop : Nat) : List (Nat × Nat) :=
  (List.range r.layers).flatMap (fun l => (List.range (pageP t.sizeExp / 16)).filterMap (fun u =>
    let pos := t.first + 16 * u
    if stop ≤ pos then none else some (kvAddr r t.first t.sizeExp frame pos l 0 false 0, regU r)))

/-- Read byte ranges in order. -/
def readParts (l : List (Nat × Nat)) (s : State) : List (Byte × Bool) × State :=
  l.foldl (fun acc q =>
    let (bs, s) := fetchBytes q.1 q.2 acc.2
    (acc.1 ++ bs, s)) ([], s)

/-- Cut a list into parts of n. -/
def partsOf {α : Type} (fuel n : Nat) (l : List α) : List (List α) :=
  match fuel with
  | 0 => []
  | f + 1 => if l.isEmpty then [] else l.take n :: partsOf f n (l.drop n)

/-- Nonce of a unit at a window address (R448). -/
def gcmNonce (p a : Nat) : BitVec 96 := BitVec.ofNat 96 (a / 4096 % 2 ^ 36 + at_ 36 p)

/-- Additional data of unit j of an entry (R448). -/
def gcmData (p i gen : Nat) (t : Pte) (j : Nat) : BitVec 128 :=
  BitVec.ofNat 128 (i + at_ 16 gen + at_ 32 t.first + at_ 56 t.sizeExp + at_ 60 p + at_ 64 (j % 2 ^ 32))

/-- AES-256-GCM in counter mode: the same for both directions. -/
def gcmApply (key : BitVec 256) (p a : Nat) (bs : List Byte) : List Byte :=
  (bs.zipIdx).map (fun q => q.1 ^^^ Config.gcmStream key (gcmNonce p a) q.2)

/-- The key of a pod. -/
def podKey (s : State) (p : Nat) : BitVec 256 := (getPod s p).key.getD 0

/-- A write into a window: address, bytes, poison. -/
abbrev WinWrite := Nat × List Byte × Bool

/-- The writes of one entry's image and tag area from a window address on (R198). -/
def imageWrites (p i gen : Nat) (key : BitVec 256) (t : Pte) (a tags : Nat) (plain : List (Byte × Bool)) : List WinWrite :=
  let units := (partsOf (plain.length / 4096 + 1) 4096 plain).zipIdx
  let enc := units.map (fun q => (a + 4096 * q.2, gcmApply key p (a + 4096 * q.2) (q.1.map (fun b => b.1)), q.1.any (fun b => b.2)))
  let tagBytes := (enc.zipIdx).flatMap (fun q => leBytes 16 (Config.gcmTag key (gcmNonce p q.1.1) (gcmData p i gen t q.2) q.1.2.1).toNat)
  let area := tagBytes ++ List.replicate (tags - tagBytes.length) 0
  let base := a + 4096 * units.length
  enc ++ ((partsOf (tags / 4096 + 1) 4096 area).zipIdx).map (fun q => (base + 4096 * q.2, q.1, false))

/-- Pad with zero bytes to a length. -/
def padTo (n : Nat) (l : List (Byte × Bool)) : List (Byte × Bool) := l ++ List.replicate (n - l.length) (0, false)

/-! ### Sender-streams of commands (R297, R298) -/

/-- Send window writes. -/
def sendWrites (l : List WinWrite) (s : State) : State := l.foldl (fun s w => sendPeer w.1 w.2.1 false w.2.2 s) s

/-- Split off the last granule of the last write: the FINAL write (R297). -/
def splitLast (l : List WinWrite) : List WinWrite × Option WinWrite :=
  match l.getLast? with
  | none => ([], none)
  | some w =>
    let n := w.2.1.length - 64
    (l.dropLast ++ (if n = 0 then [] else [(w.1, w.2.1.take n, w.2.2)]), some (w.1 + n, w.2.1.drop n, w.2.2))

/-- Address of the last byte of a list of window writes. -/
def lastByte (l : List WinWrite) : Nat :=
  match l.getLast? with
  | some w => w.1 + (w.2.1.length - 1)
  | none => 0

/-- Send a held FINAL write. -/
def sendLast (w : WinWrite) (s : State) : State := sendPeer w.1 w.2.1 true w.2.2 s

/-- The status of a command whose window is not open to it (R300, R320): none when every byte of a range can be written. -/
def windowStatus (s : State) (p a n : Nat) : Option Status :=
  if n = 0 || podReaches s p a n true then none
  else match podAccess s p a true with
    | some .fenced => some (if fenceReason s (.window (windowOfAddr a)) = some 6 then stPARTNER_GONE else stFENCED)
    | _ => some stNOT_PERMITTED

/-! ### STREAM_PARK (R197) -/

def spPark : Spec := { op := 0x42, src := .pod, podRule := .must, flag := false, reads := false, fields := [(79, 64), (95, 80), (143, 96)] }

/-- RESIDENT entries with the window address of each image (R197). -/
def parkPlan (r : Region) (a : Nat) (pt : List Pte) : List (Pte × Nat) × Nat :=
  pt.foldl (fun acc t =>
    if t.st = .resident then (acc.1 ++ [(t, acc.2)], acc.2 + imageLen r t + tagLen r t) else acc) ([], a)

/-- An accepted step that has not ended names a stream. -/
def stepNames (s : State) (p i : Nat) : Bool :=
  (podInsts s p).any (fun x => match x.step with
    | some st => st.rows.any (fun r => r.stream = i)
    | none => false)

/-- Read, encrypt and collect the writes of every image. -/
def parkWrites (p i gen : Nat) (r : Region) (plan : List (Pte × Nat)) (s : State) : List WinWrite × State :=
  plan.foldl (fun acc q =>
    let (bs, s) := readParts (unitLayers r q.1 q.1.frame (2 ^ 32)) acc.2
    (acc.1 ++ imageWrites p i gen (podKey s p) q.1 q.2 (tagLen r q.1) (padTo (imageLen r q.1) bs), s)) ([], s)

/-- The stream's RESIDENT entries become PARKED; their frames go on the chaff list. -/
def parkEntries (i : Nat) (plan : List (Pte × Nat)) (s : State) : State :=
  let e := getStream s i
  let s := plan.foldl (fun s q => chaffSet e.pod e.pool q.1 s) s
  modStream i (fun e => { e with pt := e.pt.map (fun t => match plan.find? (fun q => q.1.first = t.first) with
    | some q => { t with st := .parked, frame := 0, park := q.2 / 4096 }
    | none => t) }) s

/-- Complete STREAM_PARK: the stream is PARKED (R206). -/
def parkDone (i : Nat) (tok : CmdTok) (s : State) : State :=
  postFinal tok stOK 0 0 (modStream i (fun e => { e with state := .parked, work := .idle }) s)

/-- Complete STREAM_SHIP. -/
def shipDone (i : Nat) (tok : CmdTok) (s : State) : State :=
  postFinal tok stOK 0 0 (modStream i (fun e => { e with work := .idle }) s)

def streamPark (sub : Submission) (tok : CmdTok) (s : State) : State :=
  let e := sub.entry
  let p := podOf sub
  let i := ent e 79 64
  let a := ent e 143 96
  guarded spPark false sub tok (a % 4096 = 0) (streamKnown s p i (ent e 95 80)) s (fun s =>
    let x := getStream s i
    match poolOf s p x.pool with
    | none => only sub tok stNOT_PERMITTED 0 0 s
    | some (_, r) =>
      let (plan, stop) := parkPlan r a x.pt
      let w := windowOfAddr a
      let v := getPod s p
      if lifecycle s = 2 || x.state ≠ .resident || x.work ≠ .idle || stepNames s p i then only sub tok stNOT_PERMITTED 0 0 s
      else if w = 64 || (stop - 1) / 2 ^ 40 ≠ a / 2 ^ 40 && stop ≠ a || a % 2 ^ 40 < SMap.get 0 v.parkTop w then
        only sub tok stNOT_PERMITTED 0 0 s
      else match windowStatus s p a (stop - a) with
        | some st => only sub tok st 0 0 s
        | none =>
          let (ws, s) := parkWrites p i x.gen r plan s
          let (first, last) := splitLast ws
          let s := if stop = a then s else modPod p (fun v => { v with parkTop := SMap.set 0 v.parkTop w (stop - a / 2 ^ 40 * 2 ^ 40) }) s
          let s := postFirst tok 0 (modStream i (fun e => { e with work := .parking }) (parkEntries i plan s))
          match last with
          | none => parkDone i tok s
          | some f =>
            let c : PendingCmd := { tok := tok, work := .park i w (max 1 first.length, lastByte (if first.isEmpty then ws else first)) (if first.isEmpty then none else some f) }
            let s := sendWrites first { s with cmds := s.cmds ++ [c] }
            if first.isEmpty then sendLast f s else s)

def execStreamPark (sub : Submission) (s : State) : Host.Outcome State Fault Refusal :=
  .next (runCmd spPark (fun _ => true) sub s (streamPark sub))

/-! ### STREAM_UNPARK and the restore (R199) -/

def spUnpark : Spec := { op := 0x43, src := .pod, podRule := .must, flag := false, reads := false, fields := [(79, 64), (95, 80)] }

def streamUnpark (sub : Submission) (tok : CmdTok) (s : State) : State :=
  let e := sub.entry
  let i := ent e 79 64
  guarded spUnpark false sub tok true (streamKnown s (podOf sub) i (ent e 95 80)) s (fun s =>
    let x := getStream s i
    if lifecycle s = 2 || x.state ≠ .parked || x.work ≠ .idle then only sub tok stNOT_PERMITTED 0 0 s
    else
      let c : PendingCmd := { tok := tok, work := .unpark i none }
      postFirst tok 0 (modStream i (fun e => { e with work := .unparking }) { s with cmds := s.cmds ++ [c] }))

def execStreamUnpark (sub : Submission) (s : State) : Host.Outcome State Fault Refusal :=
  .next (runCmd spUnpark (fun _ => true) sub s (streamUnpark sub))

/-- Every unit of an image passes its tag (R448). -/
def tagsOk (p i gen : Nat) (key : BitVec 256) (t : Pte) (units : List (List Byte)) (tags : List (BitVec 128)) : Bool :=
  units.length = tags.length && ((units.zip tags).zipIdx).all (fun q =>
    let a := 4096 * (t.park + q.2)
    q.1.2 = Config.gcmTag key (gcmNonce p a) (gcmData p i gen t q.2) q.1.1)

/-- The bytes of an image, decrypted. -/
def imagePlain (p : Nat) (key : BitVec 256) (t : Pte) (units : List (List Byte)) : List Byte :=
  (units.zipIdx).flatMap (fun q => gcmApply key p (4096 * (t.park + q.2)) q.1)

/-- Write an image's bytes into a page set's pieces. -/
def landImage (r : Region) (t : Pte) (frame : Nat) (bs : List Byte) (s : State) : State :=
  ((unitLayers r t frame (2 ^ 32)).zipIdx).foldl (fun s q => landBytes q.1.1 ((bs.drop (q.1.2 * q.2)).take q.1.2) s) s

/-- Restore one PARKED entry from its image: the entry, the status of a failure, and the state (R199). -/
def restoreEntry (i : Nat) (r : Region) (t : Pte) (frame : Nat) (img : Option (List Byte × List (BitVec 128))) (s : State) :
    Pte × Option Status × State :=
  let e := getStream s i
  let s := emit (.peerRead (4096 * t.park) (imageLen r t + tagLen r t)) s
  let lost (st : Status) : Pte × Option Status × State := ({ t with st := .lost }, some st, chaffSet e.pod e.pool { t with frame := frame } s)
  match img with
  | none => lost stPARTNER_GONE
  | some (bs, tags) =>
    let units := partsOf (bs.length / 4096 + 1) 4096 bs
    if bs.length = imageLen r t && tagsOk e.pod i e.gen (podKey s e.pod) t units tags then
      ({ t with st := .resident, frame := frame, park := 0 }, none,
        landImage r t frame (imagePlain e.pod (podKey s e.pod) t units) s)
    else lost stPOISONED

/-- Restore every PARKED entry in table order. -/
def restoreAll (i : Nat) (r : Region) (pt : List Pte) (frames : List Nat) (images : List (Option (List Byte × List (BitVec 128)))) (s : State) :
    List Pte × Option Status × State :=
  match pt with
  | [] => ([], none, s)
  | t :: rest =>
    if t.st = .parked then
      let (t', st, s) := restoreEntry i r t (nth 0 frames 0) (nth none images 0) s
      let (l, st', s) := restoreAll i r rest (frames.drop 1) (images.drop 1) s
      (t' :: l, if st.isSome then st else st', s)
    else
      let (l, st, s) := restoreAll i r rest frames images s
      (t :: l, st, s)

/-- A pending unpark of a stream that a boundary has given its frames. -/
def unparkOf (i : Nat) (c : PendingCmd) : Bool :=
  match c.work with
  | .unpark k (some _) => k = i
  | _ => false

/-- UNPARK_RESTORE: the images of a stream whose frames a boundary has allocated are read back (R199). -/
def unparkRestore (i : Nat) (images : List (Option (List Byte × List (BitVec 128)))) (s : State) : State :=
  match s.cmds.find? (unparkOf i) with
  | none => s
  | some c =>
    let e := getStream s i
    let frames := match c.work with | .unpark _ (some l) => l | _ => []
    match poolOf s e.pod e.pool with
    | none => s
    | some (_, r) =>
      let (pt, st, s) := restoreAll i r e.pt frames images { s with cmds := s.cmds.erase c }
      let s := modStream i (fun e => { e with pt := pt, work := .idle, state := if st.isNone then .resident else e.state }) s
      match st with
      | none => postFinal c.tok stOK 0 0 s
      | some x => closeStream i x (postFinal c.tok x 0 0 s)

def execUnparkRestore (stream : Nat) (images : List (Option (List Byte × List (BitVec 128)))) (s : State) : Host.Outcome State Fault Refusal :=
  .next (unparkRestore stream images s)

/-! ### STREAM_SHIP (R232) -/

def spShip : Spec :=
  { op := 0x45, src := .pod, podRule := .must, flag := false, reads := false,
    fields := [(79, 64), (95, 80), (143, 96), (168, 144), (184, 169), (223, 192), (247, 224), (319, 256), (367, 320)] }

/-- A page-table entry from its 16 bytes (R182): FIRST, SIZE_EXP and FRAME. -/
def pteParse (w : Nat) : Pte :=
  { first := bits w 23 0, sizeExp := bits w 27 24, st := .resident, frame := bits w 63 32, rc := 0, park := 0 }

/-- Read a receiving table from memory up to the position it must reach: its entries, or the status that refuses it. -/
def shipTable (fuel p a stop pos : Nat) (s : State) : Except Status (List Pte) × State :=
  match fuel with
  | 0 => (.error stBAD_ARG, s)
  | f + 1 =>
    if stop ≤ pos then (.ok [], s)
    else if !podReaches s p a 16 false then (.error stNOT_PERMITTED, s)
    else
      let (bs, s) := fetchBytes a 16 s
      let w := leNat (bs.map (fun b => b.1))
      let t := pteParse w
      if bs.any (fun b => b.2) then (.error stPOISONED, s)
      else if t.first ≠ pos || t.sizeExp < 4 || 11 < t.sizeExp || bits w 29 28 ≠ 0 then (.error stBAD_ARG, s)
      else match shipTable f p (a + 16) stop (pos + pageP t.sizeExp) s with
        | (.ok l, s) => (.ok (t :: l), s)
        | r => r

/-- Every unit-layer of positions below a length: source and destination address (R232). -/
def shipPlan (r r' : Region) (pt pt' : List Pte) (base len : Nat) : List (Nat × Nat) :=
  (List.range (ceilDiv len 16)).flatMap (fun u => match entryAt pt (16 * u), entryAt pt' (16 * u) with
    | some t, some t' => (List.range r.layers).map (fun l =>
        (kvAddr r t.first t.sizeExp t.frame (16 * u) l 0 false 0, base + kvAddr r' t'.first t'.sizeExp t'.frame (16 * u) l 0 false 0))
    | _, _ => [])

/-- The landing write's 64 bytes (R233). -/
def landWord (stream len key : Nat) : List Byte := leBytes 64 (stream + at_ 32 len + at_ 64 key)

/-- Read the source unit-layers and form the window writes. -/
def shipWrites (r : Region) (plan : List (Nat × Nat)) (s : State) : List WinWrite × State :=
  plan.foldl (fun acc q =>
    let (bs, s) := fetchBytes q.1 (regU r) acc.2
    (acc.1 ++ [(q.2, bs.map (fun b => b.1), bs.any (fun b => b.2))], s)) ([], s)

/-- The first address of a list that a pod may not write, as a status. -/
def shipReach (s : State) (p n : Nat) (l : List Nat) : Option Status := l.findSome? (fun a => windowStatus s p a n)

/-- The receiving pod's number, which no field names: free (R233; log entry 5). -/
def shipPod (s : State) : Nat := Config.freeId s.freeIdx % 16

def streamShip (sub : Submission) (tok : CmdTok) (s : State) : State :=
  let e := sub.entry
  let p := podOf sub
  let i := ent e 79 64
  let len := ent e 168 144
  let base := ent e 367 320
  guarded spShip false sub tok (1 ≤ len && len ≤ 16777216) (streamKnown s p i (ent e 95 80)) s (fun s =>
    let x := getStream s i
    match poolOf s p x.pool with
    | none => only sub tok stNOT_PERMITTED 0 0 s
    | some (_, r) =>
      if lifecycle s = 2 || x.state ≠ .resident || x.busy || x.work ≠ .idle || x.wp < len then only sub tok stNOT_PERMITTED 0 0 s
      else match shipTable 8193 p (ent e 143 96) len 0 s with
        | (.error st, s) => only sub tok st 0 0 s
        | (.ok pt', s) =>
          let r' : Region := { r with off := 4096 * ent e 247 224, holder := (List.range 16).map (fun k => bits (ent e 319 256) (4 * k + 3) (4 * k)) }
          let plan := shipPlan r r' x.pt pt' base len
          let flag := base + addrCsr + 0x300000 + 64 * shipPod s
          match shipReach s p (regU r) (plan.map (fun q => q.2)), windowStatus s p flag 64 with
          | some st, _ => only sub tok st 0 0 s
          | none, some st => only sub tok st 0 0 s
          | none, none =>
            let (ws, s) := shipWrites r plan s
            let c : PendingCmd :=
              { tok := tok, work := .ship i (windowOfAddr base) (ws.length, lastByte ws) (some (flag, landWord (ent e 184 169) len (ent e 223 192), false)) }
            let s := postFirst tok 0 (modStream i (fun e => { e with work := .shipping }) { s with freeIdx := s.freeIdx + 1, cmds := s.cmds ++ [c] })
            sendWrites ws s)

def execStreamShip (sub : Submission) (s : State) : Host.Outcome State Fault Refusal :=
  .next (runCmd spShip (fun _ => true) sub s (streamShip sub))

/-! ### Acknowledged writes (R299) -/

/-- A node issues no further write of its own into windows: its work is done, a fault has stopped it, or its instance is cancelled. -/
def sentAll (s : State) (ref : NodeRef) : Bool := workDone s ref || (stoppedBy s ref).isSome || nodeCancelled s ref

/-- Acknowledgement of a node's writes into a window (R299): the oldest by a UIO completion; all of them by the completion of a flush
read of the last address written, which goes after the last write. -/
def ackNode (w : Nat) (ref : NodeRef) (s : State) : State :=
  match getNode s ref with
  | none => s
  | some n =>
    match n.unacked.filter (fun x => x.1 = w) with
    | [] => s
    | x :: rest =>
      if windowUio s w then modNode ref (fun n => { n with unacked := n.unacked.erase x }) s
      else if sentAll s ref then
        modNode ref (fun n => { n with unacked := n.unacked.filter (fun y => y.1 ≠ w) }) (flushAt ((rest.getLast?.getD x).2) s)
      else s

/-- A pending park or ship of a stream over a window, with what it waits for. -/
def senderOf (c : PendingCmd) : Option (Nat × Nat × (Nat × Nat) × Option WinWrite) :=
  match c.work with
  | .park i w n last => some (i, w, n, last)
  | .ship i w n last => some (i, w, n, last)
  | _ => none

/-- It is a pending park or ship of a stream over a window. -/
def sendsInto (w i : Nat) (c : PendingCmd) : Bool :=
  match senderOf c with
  | some (k, x, _, _) => k = i && x = w
  | none => false

/-- The same work with another wait. -/
def reSender (c : PendingCmd) (n : Nat × Nat) (last : Option WinWrite) : PendingCmd :=
  match c.work with
  | .park i w _ _ => { c with work := .park i w n last }
  | .ship i w _ _ => { c with work := .ship i w n last }
  | _ => c

/-- The command of a stream ends with its last acknowledgement. -/
def senderDone (i : Nat) (c : PendingCmd) (s : State) : State :=
  match c.work with
  | .park _ _ _ _ => parkDone i c.tok { s with cmds := s.cmds.erase c }
  | .ship _ _ _ _ => shipDone i c.tok { s with cmds := s.cmds.erase c }
  | _ => s

/-- Acknowledgement of a stream's writes into a window: the held FINAL write goes once nothing else waits; its own acknowledgement
completes the command (R197, R232, R298). -/
def ackStream (w i : Nat) (s : State) : State :=
  match s.cmds.find? (sendsInto w i) with
  | none => s
  | some c =>
    match senderOf c with
    | none => s
    | some (_, _, n, last) =>
      let left := if windowUio s w then n.1 - 1 else 0
      let s := if windowUio s w then s else flushAt n.2 s
      let put (d : PendingCmd) (s : State) : State := { s with cmds := s.cmds.map (fun x => if x = c then d else x) }
      if left ≠ 0 then put (reSender c (left, n.2) last) s
      else match last with
        | some f => sendLast f (put (reSender c (1, lastByte [f]) none) s)
        | none => senderDone i c s

/-- The oldest unacknowledged request of a node into the windows that `test` names is answered without success, or never: it is
outstanding no longer. By Unordered I/O that is one write, else the flush read of a window's writes (R299). -/
def failWrite (test : Nat → Bool) (ref : NodeRef) (s : State) : State :=
  match (getNode s ref).bind (fun n => n.unacked.find? (fun x => test x.1)) with
  | some x => modNode ref (fun n => { n with unacked := if windowUio s x.1 then n.unacked.erase x else n.unacked.filter (fun y => y.1 ≠ x.1) }) s
  | none => s

/-- A node that has writes of window `w` outstanding ends with PARTNER_GONE: the partner answered one with an error (R300). -/
def failAck (w : Nat) (ref : NodeRef) (s : State) : State :=
  match getNode s ref with
  | some n => if n.unacked.any (fun x => x.1 = w) then faultNode ref csPARTNER_GONE (failWrite (· = w) ref s) else s
  | none => s

/-- A park or ship of a stream over window `w` ends with PARTNER_GONE, for the same reason. -/
def failSender (w i : Nat) (s : State) : State :=
  if s.cmds.any (sendsInto w i) then stopStreamWork i stPARTNER_GONE s else s

/-- WRITE_ACKNOWLEDGED: a completion from a window's partner acknowledges writes of a node or of a stream (R299), or fails them (R300). -/
def writeAcknowledged (w : Nat) (sender : WriteSender) (ok : Bool) (s : State) : State :=
  match sender with
  | .node ref => if ok then ackNode w ref s else failAck w ref s
  | .stream i => if ok then ackStream w i s else failSender w i s

def execWriteAcknowledged (window : Nat) (sender : WriteSender) (ok : Bool) (s : State) : Host.Outcome State Fault Refusal :=
  .next (writeAcknowledged window sender ok s)

end Sys2Proof.Machine
end

