-- ==== Sys2Proof/Machine/FenceOps.lean ====
section
/-! DEFINITION. What a fence does (R371-R373): nodes, plans, regions, page sets, slices, windows and partners (R353), rails (R385), the
loss of a hub (R384), and the FENCE event. -/

namespace Sys2Proof.Machine

open Sys2Proof

/-! ### What lies under a unit (R371) -/

/-- The unit that a rail feeds (R332). -/
def railUnit (i : Nat) : UnitRef := if i < 8 then .matrixDie (i / 2) else if i < 40 then .stack ((i - 8) / 2) else .hub ((i - 40) / 3)

/-- The rails of the die that a rail feeds. -/
def railSiblings (i : Nat) : List Nat :=
  match railUnit i with
  | .matrixDie d => railsMx d
  | .stack st => railsMs st
  | .hub h => railsHb h
  | _ => []

/-- A rail stands for its die. -/
def unitBelow (u : UnitRef) : UnitRef :=
  match u with
  | .rail i => railUnit i
  | _ => u

/-- Cores on which a unit lies or that lie under it. -/
def coresUnder (u : UnitRef) : List Nat :=
  match unitBelow u with
  | .tile n => [n / 8]
  | .cluster c => [c]
  | .matrixDie d => (List.range 8).map (fun i => 8 * d + i)
  | .engine n => [32 + n / 16]
  | .group g => [32 + g]
  | .stack st => (List.range 4).map (fun i => 32 + 4 * st + i)
  | _ => []

def slicesUnder (u : UnitRef) : List Nat :=
  match unitBelow u with
  | .slice k => [k]
  | .hub h => (List.range 32).map (fun i => 32 * h + i)
  | _ => []

def portsUnder (u : UnitRef) : List Nat :=
  match unitBelow u with
  | .port p => [p]
  | .hub h => [2 * h, 2 * h + 1]
  | _ => []

/-- A pod holds the unit, or a core, region, slice, window or binding under it (R373). -/
def podUnder (s : State) (u : UnitRef) (p : Nat) : Bool :=
  let v := getPod s p
  v.state ≠ .free
    && ((coresUnder u).any (fun c => v.cores.contains c) || (slicesUnder u).any (fun k => v.slices.contains k)
      || (portsUnder u).any (fun q => v.vf.any (fun f => f / 4 = q))
      || (match unitBelow u with
        | .stack st => (mapped s).any (fun r => r.2.pod = p && r.2.stks.contains st)
        | .window w => (getWindow s w).access ≠ 0 && (getWindow s w).pod = p
        | .pod q => q = p
        | .hub h => v.hub = h
        | _ => false))

/-- The affected pods of a fence, ascending (R373). -/
def affectedPods (s : State) (u : UnitRef) : List Nat := (List.range 16).filter (podUnder s u)

/-! ### The FENCE event (R373) -/

/-- DETAIL1 of FENCE. -/
def fenceDetail (pods : List Nat) (streams regions reason : Nat) : Nat :=
  maskOf pods + at_ 16 (min 0xFFFF streams) + at_ 32 (min 0xFF regions) + at_ 40 reason

/-- What a fence took: the pod of each stream made CLOSING and of each region made LOST. -/
structure Loss where
  streams : List Nat := []
  regions : List Nat := []
deriving DecidableEq, Repr

def Loss.add (a b : Loss) : Loss := { streams := a.streams ++ b.streams, regions := a.regions ++ b.regions }

/-- FENCE to every PF and to each affected pod, with that pod's own counts. -/
def postFence (u : UnitRef) (reason : Nat) (pods : List Nat) (l : Loss) (s : State) : State :=
  let s := postDevice 0x03 (unitCode u) (fenceDetail pods l.streams.length l.regions.length reason) s
  pods.foldl (fun s p => postPod p 0x03 (unitCode u)
    (fenceDetail [p] (countIf (fun q => q = p) l.streams) (countIf (fun q => q = p) l.regions) reason) s) s

/-- List a unit as fenced. -/
def addFence (u : UnitRef) (reason : Nat) (s : State) : State := if listed s u then s else { s with fences := s.fences ++ [(u, reason)] }

/-! ### Nodes and plans (R11, R259, R372) -/

/-- Running nodes on some cores. -/
def nodesOn (s : State) (cores : List Nat) : List NodeRef :=
  s.insts.flatMap (fun i => (i.nodes.zipIdx).filterMap (fun q =>
    if q.1.st = .running && q.1.cores.any (fun c => cores.contains c) then some ⟨i.pod, i.num, q.2⟩ else none))

/-- Every node running on some cores ends FAULTED with cause FENCED, with its gang. -/
def faultOn (cores : List Nat) (s : State) : State := (nodesOn s cores).foldl (fun s r => faultNode r csFENCED s) s

/-- Planned nodes of an instance on cores that have become unusable, with their gangs, end CANCELLED without starting (R259). -/
def cancelPlanned (cores : List Nat) (p num : Nat) (s : State) : State :=
  match findInst s p num with
  | none => s
  | some i =>
    match graphOf s i with
    | none => s
    | some g =>
      let hit := ((i.nodes.zipIdx).filter (fun q => q.1.st = .notStarted && q.1.cores.any (fun c => cores.contains c))).map (fun q => q.2)
      let ids := dedup (hit.flatMap (gangOf g.nodes))
      if ids.isEmpty then s
      else checkEnd p num (cancelNodes p num (closureOf g ids) csPREDECESSOR (cancelNodes p num ids csFENCED s))

/-- Cores leave service: running nodes fault and planned nodes never start. -/
def dropCores (cores : List Nat) (s : State) : State :=
  let s := faultOn cores s
  s.insts.foldl (fun s i => if i.promised then cancelPlanned cores i.pod i.num s else s) s

/-- A core's W falls (R87, R143, R479): running nodes fault; instances that still hold the core record the cause DEGRADE, and plans
are extended. -/
def lowerW (core : Nat) (u : UnitRef) (s : State) : State :=
  let s := faultOn [core] s
  extendPlans (recordLate (fun i => i.nodes.any (fun n => live n && n.cores.contains core)) 0x02 (unitCode u) s)

/-! ### A stack's data (R178, R200, R272) -/

/-- Regions of the striped and local modes with a range in a stack become LOST; the pods of those that do. -/
def loseRegions (st : Nat) (s : State) : List Nat × State :=
  let hit (r : Region) : Bool := r.mode ≠ 3 && !r.lost && r.stks.contains st
  (((mapped s).filter (fun q => hit q.2)).map (fun q => q.2.pod),
   { s with regions := s.regions.map (fun q => (q.1, q.2.map (fun r => if hit r then { r with lost := true } else r))) })

/-- Mirrors whose source no longer lies in a region of their pod that holds its data are removed (R281). -/
def dropMirrors (s : State) : State :=
  let gone (m : Mirror) : Bool := match placeOf m.src with
    | .stack st off => (mapped s).any (fun q => q.2.pod = m.pod && q.2.lost && q.2.stks.contains st && q.2.off ≤ off && off < q.2.off + q.2.span)
    | _ => false
  { s with mirrors := s.mirrors.map (fun q => (q.1, q.2.map (fun m => if gone m then { m with removed := true } else m))) }

/-- A table entry of a stream has a piece in a stack: RESIDENT or SHARED, or PARKED with frames an unpark has allocated. -/
def entryIn (s : State) (st i : Nat) (e : Stream) (t : Pte) : Bool :=
  match poolOf s e.pod e.pool with
  | some (_, r) =>
    pieceIn r st t && (t.st = .resident || t.st = .shared
      || (t.st = .parked && s.cmds.any (fun c => match c.work with
        | .unpark k (some _) => k = i
        | _ => false)))
  | none => false

/-- A prefix node becomes LOST: its name for the page set goes (R183, R200). -/
def loseNode (p n : Nat) (s : State) : State :=
  let d := SMap.get {} (getPod s p).pfx n
  let s := modPod p (fun v => { v with pfx := SMap.set {} v.pfx n { d with state := 2, frame := 0, rc := 0 } }) s
  if n = 0 || d.state ≠ 1 then s
  else rcDown p d.pool { first := d.first, sizeExp := d.sizeExp, st := .shared, frame := d.frame, rc := d.rc, park := 0 } s

/-- The VALID prefix nodes of a pod that a test names become LOST. -/
def loseNodes (p : Nat) (test : Nat → PrefixNode → Bool) (s : State) : State :=
  ((getPod s p).pfx.filter (fun q => q.2.state ≠ 2 && test q.1 q.2)).foldl (fun s q => loseNode p q.1 s) s

/-- A prefix node's page set has a piece in a stack. -/
def nodeIn (s : State) (st p n : Nat) (d : PrefixNode) : Bool :=
  n ≠ 0 && d.state = 1 && (match poolOf s p d.pool with
    | some (_, r) => pieceIn r st { first := d.first, sizeExp := d.sizeExp, st := .shared, frame := d.frame, rc := d.rc, park := 0 }
    | none => false)

/-- A stand-in takes over in a pool: the next unfenced stack of the pool in ascending order with wrap-around (R178). -/
def standIn (s : State) (st : Nat) (r : Region) : Region :=
  match ((List.range 15).map (fun i => (st + 1 + i) % 16)).find? (fun x => r.stks.contains x && !stackFenced s x) with
  | some x => { r with holder := r.holder.map (fun h => if h = st then x else h) }
  | none => r

/-- The data of a stack is lost: page sets, prefix nodes, regions and mirrors; stand-ins take over in the KV pools. -/
def loseStack (st : Nat) (s : State) : Loss × State :=
  let (ids, s) := loseStreams (fun i e t => entryIn s st i e t) stFENCED stFENCED s
  let streams := ids.map (fun i => (getStream s i).pod)
  let s := (List.range 16).foldl (fun s p => loseNodes p (nodeIn s st p) s) s
  let (pods, s) := loseRegions st s
  let s := dropMirrors s
  ({ streams := streams, regions := pods },
   { s with regions := s.regions.map (fun q => (q.1, q.2.map (fun r => if r.mode = 3 then standIn s st r else r))) })

/-! ### A slice's data (R371) -/

/-- A pending load of a graph into a lost slice ends FENCED; a graph stored there is unloaded. -/
def loseGraphs (k : Nat) (s : State) : State :=
  let hit (s : State) (g : Graph) : Bool := (graphSlicesOf s g).contains k
  let gone := s.cmds.filter (fun c => match c.work with
    | .graphLoad p id => s.graphs.any (fun g => g.pod = p && g.id = id && hit s g)
    | _ => false)
  let s1 := gone.foldl (fun s c => postFinal c.tok stFENCED 0 0 s) { s with cmds := s.cmds.filter (fun c => !gone.contains c) }
  let s2 := { s1 with graphs := s1.graphs.map (fun g => if hit s g then { g with loaded := false } else g) }
  { s2 with graphs := s2.graphs.filter (fun g => !(hit s g && graphLost s2 g && !s2.insts.any (fun i => i.pod = g.pod && i.graph = g.id))) }

/-- A stream whose page table lay in a lost slice loses the table and closes. -/
def loseTable (i : Nat) (s : State) : State :=
  let s := stopStreamWork i stFENCED s
  let e := getStream s i
  let s := e.pt.foldl (fun s t => dropEntry e.pod e.pool t s) s
  closeStream i stFENCED (modStream i (fun e => { e with pt := [], tail := 0 }) s)

/-- The data of a slice is lost: its mirror, graphs, page tables and prefix nodes. -/
def loseSlice (k : Nat) (s : State) : Loss × State :=
  let s := { s with mirrors := s.mirrors.map (fun q => (q.1, q.2.map (fun m => if m.slice = k then { m with removed := true } else m))) }
  let s := loseGraphs k s
  let inK (a : Nat) : Bool := match placeOf a with
    | .slice x _ => x = k
    | _ => false
  let hit := s.streams.filter (fun q => q.2.state ≠ .free && q.2.ptCap ≠ 0 && inK q.2.ptAddr)
  let closed := (hit.filter (fun q => q.2.state ≠ .closing)).map (fun q => q.2.pod)
  let s := hit.foldl (fun s q => loseTable q.1 s) s
  ({ streams := closed },
   (List.range 16).foldl (fun s p => loseNodes p (fun n _ => inK (pfxNodeAddr s p n) || inK (pfxTokenAddr s p n)) s) s)

/-- Several slices. -/
def loseSlices (l : List Nat) (s : State) : Loss × State :=
  l.foldl (fun acc k => let (a, s) := loseSlice k acc.2; (acc.1.add a, s)) (({} : Loss), s)

/-! ### Windows and partners (R300, R353) -/

/-- Running nodes with requests outstanding to a window. -/
def windowNodes (s : State) (w : Nat) : List NodeRef :=
  s.insts.flatMap (fun i => (i.nodes.zipIdx).filterMap (fun q =>
    if q.1.st = .running && (q.1.unacked.any (fun x => x.1 = w) || (match q.1.hold with
      | some l => l.any (fun c => windowOfAddr c.1 = w)
      | none => false))
    then some ⟨i.pod, i.num, q.2⟩ else none))

/-- A node's requests to a window have failed: nothing of them is waited for any more (R300). -/
def dropRequests (w : Nat) (r : NodeRef) (s : State) : State :=
  modNode r (fun n => { n with unacked := n.unacked.filter (fun x => x.1 ≠ w) }) s

/-- A window is fenced: requests in it fail with PARTNER_GONE, entries parked in it are LOST and their streams close (R353). -/
def fenceWindow (w reason : Nat) (s : State) : State :=
  let pods := affectedPods s (.window w)
  let s := addFence (.window w) reason s
  let s := (windowNodes s w).foldl (fun s r => faultNode r csPARTNER_GONE (dropRequests w r s)) s
  let (ids, s) := loseStreams (fun _ _ t => t.st = .parked && windowOfAddr (4096 * t.park) = w) stPARTNER_GONE stPARTNER_GONE s
  let senders := s.cmds.filterMap (fun c => match senderOf c with
    | some (i, x, _, _) => if x = w then some i else none
    | none => none)
  let s := senders.foldl (fun s i => stopStreamWork i stPARTNER_GONE s) s
  postFence (.window w) reason pods { streams := ids.map (fun i => (getStream s i).pod) } s

/-- The windows mapped to a partner. -/
def partnerWindows (s : State) (id : Nat) : List Nat :=
  (List.range 64).filter (fun w => (getWindow s w).access ≠ 0 && (getWindow s w).partner = id)

/-- A partner becomes LOST (R353). -/
def losePartner (id : Nat) (s : State) : State :=
  let ws := partnerWindows s id
  let pods := dedup (ws.map (fun w => (getWindow s w).pod))
  let s := setPartner id { getPartner s id with state := .lost } s
  let s := (ws.filter (fun w => !windowFenced s w)).foldl (fun s w => fenceWindow w 0x06 s) s
  let s := postDevice 0x09 id (maskOf ws) s
  (sortNat pods).foldl (fun s p => postPod p 0x09 id (maskOf ws) s) s

/-- ACTIVE and CONFIRMING partners of a port that leaves service become LOST (R352). -/
def losePort (p : Nat) (s : State) : State :=
  ((List.range 96).filter (fun id => (getPartner s id).port = p
    && ((getPartner s id).state = .active || (getPartner s id).state = .confirming))).foldl (fun s id => losePartner id s) s

/-! ### Ports (R371, R478) -/

/-- The functions of a port: its PF and four VFs (R339). -/
def portFns (p : Nat) : List Nat := p :: (List.range 4).map (fun i => 4 + 4 * p + i)

/-- Mailboxes and event rings of a port's functions stop. -/
def stopPort (p : Nat) (s : State) : State :=
  (portFns p).foldl (fun s fn =>
    let s := stopFn fn s
    setFunc fn { getFunc s fn with evEnable := false, msixPend := [false, false, false] } s) s

/-! ### Routers (R31, R34) -/

/-- The lowest link of a router: the link index that a LATE event names when the router leaves (R32). -/
def routerLink (n : Nat) : Nat := ((List.range 37).find? (fun l => (linkEnds l).1 = n || (linkEnds l).2 = n)).getD 0

/-- A router leaves the fabric. -/
def loseRouter (n : Nat) (s : State) : State :=
  if s.fabric.routersLost.contains n then s
  else routesChanged 0x03 (routerLink n) { s with fabric := { s.fabric with routersLost := s.fabric.routersLost ++ [n] } }

/-! ### Losing a hub (R382, R384) -/

/-- Every node of an instance ends when its scheduler's hub is lost: running ones FAULTED, the others NOT_STARTED. -/
def dropScheduled (p num : Nat) (s : State) : State :=
  match findInst s p num with
  | none => s
  | some i =>
    let s := (List.range i.nodes.length).foldl (fun s n =>
      if isRunning s ⟨p, num, n⟩ then stopFaulted ⟨p, num, n⟩ csHUB_LOST s else s) s
    let s := modInst p num (fun i => { i with nodes := i.nodes.map (fun n => if n.st = .notStarted then { n with cause := csHUB_LOST } else n) }) s
    endAny p num s

/-- The scheduler of a pod restarts with an empty plan. -/
def dropPodWork (p : Nat) (s : State) : State := (podInsts s p).foldl (fun s i => dropScheduled p i.num s) s

/-- A hub goes OUT. With the other in service, that one becomes lead if it is not, fences the lost hub, and restarts the schedulers
that ran there (R382, R384): LEAD_CHANGE carries the given cause. -/
def loseHub (h cause : Nat) (s : State) : State :=
  let o := 1 - h
  let pods := affectedPods s (.hub h)
  let s := modHub h (fun b => { b with lead := .out, pg := false }) s
  let s := (railsHb h).foldl (fun s i => if getRail s i = .latched then s else setRail i .off s) s
  let s := [2 * h, 2 * h + 1].foldl (fun s p => stopPort p s) s
  let s := { s with acked := s.acked.filter (fun a => fnHub a.1.mbx.fn ≠ h) }
  if (getHub s o).lead = .out then s
  else
    let s := if (getHub s o).lead = .lead then s
      else postDevice 0x0A o cause (modHub o (fun b => { b with lead := .lead }) s)
    let s := addFence (.hub h) 0x07 s
    let s := loseRouter (4 + h) s
    let s := pods.foldl (fun s p => if (getPod s p).hub = h then dropPodWork p s else s) s
    let (l, s) := loseSlices (slicesUnder (.hub h)) s
    let s := postFence (.hub h) 0x07 pods l s
    [2 * h, 2 * h + 1].foldl (fun s p => losePort p s) s

/-! ### Any unit -/

/-- A tile or an engine is fenced; the last one of its core takes the core with it, with reason DEGRADED (R87, R143). -/
def fencePart (u parent : UnitRef) (core reason : Nat) (s : State) : State :=
  let pods := affectedPods s u
  let s := lowerW core u (addFence u reason s)
  let s := postFence u reason pods {} s
  if coreW s core = 0 then postFence parent 0x05 pods {} (dropCores [core] (addFence parent 0x05 s)) else s

/-- A matrix die, cluster or bank group is fenced. -/
def fenceCores (u : UnitRef) (reason : Nat) (s : State) : State :=
  let pods := affectedPods s u
  postFence u reason pods {} (dropCores (coresUnder u) (addFence u reason s))

/-- A stack is fenced: `u` is the stack or the rail that takes it. -/
def fenceStack (u : UnitRef) (st reason : Nat) (s : State) : State :=
  let pods := affectedPods s u
  let s := dropCores (coresUnder (.stack st)) (addFence u reason s)
  let (l, s) := loseStack st s
  postFence u reason pods l s

/-- A pod is fenced: every instance and step of it ends (R263). -/
def fencePod (p reason : Nat) (s : State) : State :=
  let v := getPod s p
  let s := setPod p { v with state := .fenced, boundAtFence := v.vf.isSome, destroyTok := none } s
  let s := addFence (.pod p) reason s
  let s := (podInsts s p).foldl (fun s i => endAny p i.num (fenceInst p i.num s)) s
  let s := match v.destroyTok with
    | some tok => postFinal tok stFENCED 0 0 s
    | none => s
  postFence (.pod p) reason [p] {} s

/-- A rail leaves service: the die's other rails switch OFF with it and the router of the die leaves (R371, R385). A hub's rail takes
the hub with it (R384). -/
def fenceRail (i reason : Nat) (st : RailState) (s : State) : State :=
  let sib := railSiblings i
  let s := setRail i st (sib.foldl (fun s k => if getRail s k = .latched then s else setRail k .off s) s)
  let mark (s : State) : State := (sib.filter (fun k => k ≠ i)).foldl (fun s k => addFence (.rail k) reason s) s
  match railUnit i with
  | .matrixDie d => loseRouter d (mark (fenceCores (.rail i) reason s))
  | .stack k => loseRouter (6 + k) (mark (fenceStack (.rail i) k reason s))
  | .hub h =>
    let s := postFence (.rail i) reason (affectedPods s (.rail i)) {} (mark (addFence (.rail i) reason s))
    if (getHub s h).lead = .out then s else loseHub h 0x01 s
  | _ => s

/-- A fence of any unit in service, with its consequences (R371, R372). Links and DRAM dies are never fenced. -/
def fenceUnit (u : UnitRef) (reason : Nat) (s : State) : State :=
  if unitFenced s u then s
  else match u with
    | .tile n => fencePart u (.cluster (n / 8)) (n / 8) reason s
    | .engine n => fencePart u (.group (n / 16)) (32 + n / 16) reason s
    | .cluster _ => fenceCores u reason s
    | .matrixDie _ => fenceCores u reason s
    | .group _ => fenceCores u reason s
    | .stack st => fenceStack u st reason s
    | .slice k =>
      let pods := affectedPods s u
      let (l, s) := loseSlice k (addFence u reason s)
      postFence u reason pods l s
    | .port p =>
      let pods := affectedPods s u
      losePort p (postFence u reason pods {} (stopPort p (addFence u reason s)))
    | .window w => fenceWindow w reason s
    | .rail i => fenceRail i reason .off s
    | .pod p => if (getPod s p).state = .free then s else fencePod p reason s
    | .hub h => loseHub h 0x01 s
    | .link _ => s
    | .dramDie _ _ => s

end Sys2Proof.Machine
end

