-- ==== Sys2Proof/Machine/Tokens.lean ====
section
/-! DEFINITION. Owner-signed tokens (R440, R441). -/

namespace Sys2Proof.Machine

open Sys2Proof

/-- Bytes k to k + n - 1 of a token. -/
def tokenBytes (t : BitVec 4096) (k n : Nat) : List Byte := (List.range n).map (fun i => t.extractLsb' (8 * (k + i)) 8)

/-- Every reserved bit of a token is 0. -/
def tokenReserved (t : BitVec 4096) : Bool :=
  bits t.toNat 63 16 = 0 && bits t.toNat 1023 704 = 0 && bits t.toNat 4095 3328 = 0

/-- The digest that a token's signatures cover: SHA-384 of bits 1791:0. -/
def tokenDigest (t : BitVec 4096) : BitVec 384 := Config.sha384 (tokenBytes t 0 224)

/-- NEWKEY of ROTATE_OWNER. -/
def tokenNewKey (t : BitVec 4096) : BitVec 384 := t.extractLsb' 320 384

/-- A token verifies for a command kind and its argument (R441). -/
def tokenOk (s : State) (kind arg : Nat) (t : BitVec 4096) : Bool :=
  let w := t.toNat
  let digest := tokenDigest t
  match s.sec.owners.getLast? with
  | none => false
  | some key =>
    bits w 7 0 = kind && bits w 15 8 = 1 && tokenReserved t && bits w 127 64 = Config.serial.toNat
      && bits w 191 128 ≤ now s && now s ≤ bits w 255 192 && bits w 255 192 ≤ bits w 191 128 + 600000000000
      && bits w 319 256 = arg && (kind = 5 || tokenNewKey t = 0)
      && Config.sha384 (tokenBytes t 128 96) = key
      && Config.ecdsaVerify (t.extractLsb' 1024 768) (t.extractLsb' 1792 768) digest
      && (if kind = 3 then Config.ecdsaVerify Config.debugPub (t.extractLsb' 2560 768) digest else t.extractLsb' 2560 768 = 0)

end Sys2Proof.Machine
end

