-- ==== Sys2Proof/Machine/Fences.lean ====
section
/-! DEFINITION. Fences and their commands (R371-R375), tile repair (R84, R85), the two hubs (R381-R384) and regulator faults (R385). -/

namespace Sys2Proof.Machine

open Sys2Proof

/-! ### Internal fences (R372, R373) -/

/-- The part has a reason of its own to fence a unit (R373): an uncovered fault, no spares left, or a core that cannot work. Rails,
windows and hubs have rows of their own. -/
def fenceCause (s : State) (u : UnitRef) (reason : Nat) : Bool :=
  match u with
  | .tile n => n < 256 && reason = 2 && (getTile s n).uncovered
  | .stack st => st < 16 && reason = 3 && (getDie s st).state = 5 && 4 ≤ (getDie s st).retired.length
  | .cluster c => c < 32 && reason = 5
  | .group g => g < 64 && reason = 5 && groupW s g = 0
  | _ => false

/-- FENCE_DECIDED. -/
def execFenceDecided (u : UnitRef) (reason : Nat) (s : State) : Host.Outcome State Fault Refusal :=
  .next (if fenceCause s u reason then fenceUnit u reason s else s)

/-! ### FENCE_REQUEST and UNFENCE (R375) -/

def spFence : Spec := { op := 0x62, src := .own, podRule := .mustNot, flag := false, reads := false, fields := [(95, 64)] }

/-- Kinds that FENCE_REQUEST accepts. -/
def fenceKind (u : Option UnitRef) : Bool :=
  match u with
  | none => false
  | some (.link _) => false
  | some _ => true

/-- A unit that exists: a pod that is not FREE, and any other. -/
def unitKnown (s : State) (u : Option UnitRef) : Bool :=
  match u with
  | some (.pod p) => (getPod s p).state ≠ .free
  | _ => true

/-- A request that R375 or R367 turns down, by the hub that decides it: a hub only where the lead decides and it is not lead itself. -/
def fenceDenied (s : State) (by_ : Nat) (u : UnitRef) : Bool :=
  match u with
  | .slice k => k = 31 || k = 63
  | .hub h => h = leadHub s || by_ ≠ leadHub s
  | .dramDie st k =>
    let d := getDie s st
    !stackFenced s st && !d.retired.contains k && d.queued ≠ k && (slotOfDie d k).isNone
  | _ => false

/-- What an accepted request does: a fence, or for a DRAM core die its retirement (R367). -/
def fenceDo (u : UnitRef) (s : State) : State :=
  match u with
  | .dramDie st k => if stackFenced s st then s else retireIfLive st k s
  | _ => fenceUnit u 0x01 s

def fenceRequest (sub : Submission) (tok : CmdTok) (s : State) : State :=
  let u := decodeUnit (ent sub.entry 95 64)
  guarded spFence false sub tok (fenceKind u) (unitKnown s u) s (fun s =>
    match u with
    | none => s
    | some u =>
      if fenceDenied s (fnHub sub.mbx.fn) u && !unitFenced s u then only sub tok stNOT_PERMITTED 0 0 s
      else postFinal tok stOK 0 0 (fenceDo u (postFirst tok 0 s)))

/-- FENCE_REQUEST. -/
def execFenceRequest (sub : Submission) (s : State) : Host.Outcome State Fault Refusal :=
  .next (runCmd spFence (fun _ => true) sub s (fenceRequest sub))

def spUnfence : Spec := { op := 0x63, src := .own, podRule := .mustNot, flag := false, reads := false, fields := [(95, 64)] }

/-- The unit lies under a unit that is still fenced. -/
def underFence (s : State) (u : UnitRef) : Bool :=
  match u with
  | .tile n => clusterFenced s (n / 8)
  | .cluster c => mxFenced s (c / 8)
  | .matrixDie d => railFenced s (railsMx d)
  | .engine n => groupFenced s (n / 16)
  | .group g => stackFenced s (g / 4)
  | .stack st => railFenced s (railsMs st)
  | .slice k => hubFenced s (k / 32)
  | .port p => hubFenced s (p / 2)
  | _ => false

/-- UNFENCE of the unit fails (R375). -/
def unfenceDenied (s : State) (u : UnitRef) : Bool :=
  match u with
  | .window _ => true
  | .rail _ => true
  | .hub _ => true
  | .dramDie _ _ => true
  | .tile n => (getTile s n).uncovered || underFence s u || (listed s u && !(List.contains [1, 2] ((fenceReason s u).getD 0)))
  | _ => underFence s u || (listed s u && fenceReason s u ≠ some 1)

/-- Memory of the unit holds no value: it was lost with the fence (R371, R285). -/
def forgetUnit (u : UnitRef) (s : State) : State :=
  let group (g : Nat) (s : State) : State := forget (addrGroup g) 0x40000 (forget (addrLocal (16 * g)) (16 * 0x400000) s)
  match u with
  | .tile n => forget (addrTile n) 0x4000000 s
  | .cluster c => forget (addrTile (8 * c)) (8 * 0x4000000) s
  | .matrixDie d => forget (addrTile (64 * d)) (64 * 0x4000000) s
  | .engine n => forget (addrLocal n) 0x400000 s
  | .group g => group g s
  | .stack st => (List.range 4).foldl (fun s i => group (4 * st + i) s) (forget (addrStack st 0) (2 ^ 36) s)
  | .slice k => forget (addrSlice k) 0x8000000 s
  | _ => s

/-- The UNFENCE edge of R368: a rebuild that the fence interrupted counts as complete, and so does that of a queued die. -/
def unfenceDies (st : Nat) (s : State) : State :=
  let finish (s : State) : State := if (getDie s st).state = 1 || (getDie s st).state = 3 then rebuildDone st s else s
  finish (finish s)

/-- A unit returns to service. -/
def returnUnit (u : UnitRef) (s : State) : State :=
  let s := forgetUnit u { s with fences := s.fences.filter (fun f => f.1 ≠ u) }
  match u with
  | .stack st => unfenceDies st (pwuInval st (fun _ => false) s)
  | .pod p => modPod p (fun v => { v with state := if v.boundAtFence then .bound else .created, boundAtFence := false }) s
  | _ => s

def unfence (sub : Submission) (tok : CmdTok) (s : State) : State :=
  let u := decodeUnit (ent sub.entry 95 64)
  guarded spUnfence false sub tok u.isSome (unitKnown s u) s (fun s =>
    match u with
    | none => s
    | some u =>
      if unfenceDenied s u then only sub tok stNOT_PERMITTED 0 0 s
      else
        let s := postFirst tok 0 s
        postFinal tok stOK 0 0 (if listed s u then returnUnit u s else s))

/-- UNFENCE. -/
def execUnfence (sub : Submission) (s : State) : Host.Outcome State Fault Refusal :=
  .next (runCmd spUnfence (fun _ => true) sub s (unfence sub))

/-! ### Tile repair (R83-R86) -/

/-- The physical line of logical line i among `total`: the i-th, from 0, that no blown slot names (R83); the lines past the last logical
one stay idle. -/
def physLine (slots : List (Option Nat)) (total i : Nat) : Option Nat := ((List.range total).filter (fun k => !slots.contains (some k)))[i]?

/-- The physical row of logical row i of a tile, of 130, and the physical column of logical column i, of 258 (R83). -/
def physRow (t : TileStat) (i : Nat) : Option Nat := physLine t.rskip 130 i
def physCol (t : TileStat) (i : Nat) : Option Nat := physLine t.cskip 258 i

/-- A physical row, or column, of a tile carries no logical one: skipped, or a spare that stays idle (R83). -/
def rowIdle (t : TileStat) (k : Nat) : Bool := !(List.range 128).any (fun i => physRow t i = some k)
def colIdle (t : TileStat) (k : Nat) : Bool := !(List.range 256).any (fun i => physCol t i = some k)

def spRepair : Spec := { op := 0x64, src := .own, podRule := .mustNot, flag := false, reads := false, fields := [(95, 64)] }

/-- The matrix die of a tile lies inside the repair window (R432). -/
def repairWindow (s : State) (tile : Nat) : Bool := inWindow s 20 85 0 [tile / 64]

def fuseRepair (sub : Submission) (tok : CmdTok) (s : State) : State :=
  let u := decodeUnit (ent sub.entry 95 64)
  let n := match u with
    | some (.tile n) => some n
    | _ => none
  guarded spRepair false sub tok n.isSome true s (fun s =>
    match n with
    | none => s
    | some n =>
      if !tileFenced s n then only sub tok stNOT_PERMITTED 0 0 s
      else if !repairWindow s n then only sub tok stTEMP_WINDOW 0 0 s
      else
        let c : PendingCmd := { tok := tok, work := .repair n false }
        postFirst tok 0 { setTile n { getTile s n with busy := 2 } s with cmds := s.cmds ++ [c] })

/-- FUSE_REPAIR: BIST of a fenced tile starts. -/
def execFuseRepair (sub : Submission) (s : State) : Host.Outcome State Fault Refusal :=
  .next (runCmd spRepair (fun _ => true) sub s (fuseRepair sub))

/-- A cover: physical rows and columns, ascending. -/
abbrev Cover := List Nat × List Nat

/-- The cells that a cover leaves. -/
def uncoveredCells (c : Cover) (cells : List (Nat × Nat)) : List (Nat × Nat) :=
  cells.filter (fun x => !c.1.contains x.1 && !c.2.contains x.2)

/-- Covers of the faulty cells with at most a number of lines: each takes the row or the column of the first cell left, by fuel. -/
def coversOf (fuel : Nat) (cells : List (Nat × Nat)) (c : Cover) : List Cover :=
  match uncoveredCells c cells with
  | [] => [c]
  | x :: _ =>
    match fuel with
    | 0 => []
    | f + 1 => coversOf f cells (insertNat x.1 c.1, c.2) ++ coversOf f cells (c.1, insertNat x.2 c.2)

/-- Lexicographic order of index lists. -/
def lexLe (a b : List Nat) : Bool :=
  match a, b with
  | [], _ => true
  | _, [] => false
  | x :: r, y :: q => x < y || (x = y && lexLe r q)

/-- Fewest slots, then rows rather than columns, then lower indices (R84). -/
def coverBetter (a b : Cover) : Bool :=
  let na := a.1.length + a.2.length
  let nb := b.1.length + b.2.length
  na < nb || (na = nb && (b.1.length < a.1.length || (a.1.length = b.1.length && lexLe (a.1 ++ a.2) (b.1 ++ b.2))))

def bestCover (l : List Cover) : Option Cover :=
  match l with
  | [] => none
  | x :: r => some (r.foldl (fun b c => if coverBetter b c then b else c) x)

/-- Slots of a kind that are not blown. -/
def freeSlotsOf (l : List (Option Nat)) : Nat := countIf (fun x => x.isNone) l

/-- Faulty cells that no blown slot skips. -/
def leftFaults (t : TileStat) (cells : List (Nat × Nat)) : List (Nat × Nat) :=
  cells.filter (fun x => !t.rskip.contains (some x.1) && !t.cskip.contains (some x.2))

/-- The cover within the slots not blown, if there is one. -/
def repairCover (t : TileStat) (cells : List (Nat × Nat)) : Option Cover :=
  bestCover ((coversOf 4 cells ([], [])).filter (fun c => c.1.length ≤ freeSlotsOf t.rskip && c.2.length ≤ freeSlotsOf t.cskip))

/-- Rows matched with columns, each with a faulty cell of its own. -/
abbrev Matching := List (Nat × Nat)

/-- The first steps into columns not seen, one for each, from rows that paths have reached. -/
def pathSteps (cells : List (Nat × Nat)) (front : List (Nat × Matching)) (seen : List Nat) : List (Nat × Matching) :=
  front.foldl (fun l q =>
    (cells.filter (fun x => x.1 = q.1)).foldl (fun l x =>
      if seen.contains x.2 || l.any (fun p => p.1 = x.2) then l else l ++ [(x.2, q.2 ++ [x])]) l) []

/-- A path from the rows of a front to a column that the matching leaves out, breadth first by fuel. -/
def growPath (cells : List (Nat × Nat)) (m : Matching) (fuel : Nat) (front : List (Nat × Matching)) (seen : List Nat) : Option Matching :=
  match fuel with
  | 0 => none
  | f + 1 =>
    let steps := pathSteps cells front seen
    match steps.find? (fun p => !m.any (fun e => e.2 = p.1)) with
    | some p => some p.2
    | none =>
      if steps.isEmpty then none
      else growPath cells m f (steps.filterMap (fun p => (m.find? (fun e => e.2 = p.1)).map (fun e => (e.1, p.2))))
        (seen ++ steps.map (fun p => p.1))

/-- A largest matching: each row joins along a path where it can. -/
def maxMatching (cells : List (Nat × Nat)) : Matching :=
  (dedup (cells.map (fun (x : Nat × Nat) => x.1))).foldl (fun m r =>
    match growPath cells m 259 [(r, [])] [] with
    | some path => m.filter (fun e => !path.any (fun x => x.1 = e.1)) ++ path
    | none => m) []

/-- Columns that must cover, as matched rows that cannot: those reached from rows the matching leaves out, by fuel. -/
def forcedCols (cells : List (Nat × Nat)) (m : Matching) (fuel : Nat) (rows : List Nat) : List Nat :=
  let cols := dedup ((cells.filter (fun (x : Nat × Nat) => rows.contains x.1)).map (fun (x : Nat × Nat) => x.2))
  match fuel with
  | 0 => cols
  | f + 1 =>
    let rows' := dedup (rows ++ (m.filter (fun (e : Nat × Nat) => cols.contains e.2)).map (fun (e : Nat × Nat) => e.1))
    if rows'.length = rows.length then cols else forcedCols cells m f rows'

/-- A smallest cover of the cells, of those the one with the most rows, whatever the slots left (R84): by König's theorem the columns
reached from the rows that a largest matching leaves out, and the rows of the cells these leave. -/
def smallestCover (cells : List (Nat × Nat)) : Cover :=
  let m := maxMatching cells
  let free := (dedup (cells.map (fun (x : Nat × Nat) => x.1))).filter (fun r => !m.any (fun (e : Nat × Nat) => e.1 = r))
  let cols := forcedCols cells m 131 free
  (dedup ((cells.filter (fun (x : Nat × Nat) => !cols.contains x.2)).map (fun (x : Nat × Nat) => x.1)), cols)

/-- What BIST records of faults (R84, R86): the cover, or where the slots left do not suffice a smallest one (log entry 67). -/
def bistRecord (cells : List (Nat × Nat)) (t : TileStat) : TileStat :=
  let left := leftFaults t cells
  let c := (repairCover t left).getD (smallestCover left)
  { t with faultRows := min 7 c.1.length, faultCols := min 7 c.2.length, bistDone := true, uncovered := !left.isEmpty }

/-- Put an index in the first slot of a kind not blown: its number, and the slots. -/
def blowSlot (v : Nat) (l : List (Option Nat)) : Nat × List (Option Nat) :=
  match l with
  | none :: r => (0, some v :: r)
  | x :: none :: r => (1, x :: some v :: r)
  | _ => (2, l)

/-- One slot of a cover is blown. A slot that fails its verification stays used and skips nothing: what it then reads as is a free
value outside the array (log entry 5). -/
def blowLine (row : Bool) (bad : List Nat) (v : Nat) (acc : TileStat × Nat) : TileStat × Nat :=
  let (t, idx) := acc
  let l := if row then t.rskip else t.cskip
  let k := (blowSlot v l).1
  let failed := bad.contains (if row then k else 2 + k)
  let w := if !failed then v else if row then 130 + Config.freeId idx % 126 else 258 + Config.freeId idx % 254
  let l' := (blowSlot w l).2
  (if row then { t with rskip := l' } else { t with cskip := l' }, if failed then idx + 1 else idx)

/-- Every slot of a cover is blown, rows first. -/
def blowCover (c : Cover) (bad : List Nat) (t : TileStat) (idx : Nat) : TileStat × Nat :=
  c.2.foldl (fun acc v => blowLine false bad v acc) (c.1.foldl (fun acc v => blowLine true bad v acc) (t, idx))

/-- The pending repair of a tile. -/
def repairOf (n : Nat) (c : PendingCmd) : Bool :=
  match c.work with
  | .repair k _ => k = n
  | _ => false

/-- A repair ends: a tile that is left with an uncovered fault is fenced itself, whatever fence it lies under (R85). -/
def repairEnds (n : Nat) (c : PendingCmd) (st : Status) (t : TileStat) (s : State) : State :=
  let s := setTile n { t with busy := 0 } s
  postFinal c.tok st 0 0 (if t.uncovered && !listed s (.tile n) then addFence (.tile n) 0x02 s else s)

/-- The first BIST of a repair has found its faults: the slots of the cover are blown and verified, and the tile is REPAIRING (R85 steps 3
and 4, R86, R433); where no cover fits or the window is left, nothing is blown and the command ends. -/
def repairBlow (n : Nat) (c : PendingCmd) (cells : List (Nat × Nat)) (bad : List Nat) (s : State) : State :=
  let t := getTile s n
  let left := leftFaults t cells
  match repairCover t left with
  | none => repairEnds n c stFENCED (bistRecord cells t) { s with cmds := s.cmds.erase c }
  | some cov =>
    if !left.isEmpty && !repairWindow s n then repairEnds n c stTEMP_WINDOW (bistRecord cells t) { s with cmds := s.cmds.erase c }
    else
      let (t', idx) := blowCover cov bad (bistRecord cells t) s.freeIdx
      setTile n { t' with busy := 3 } { s with freeIdx := idx, cmds := s.cmds.map (fun x => if x = c then { x with work := .repair n true } else x) }

/-- The second BIST of a repair ends it with OK or FENCED (R85 steps 4 and 5). -/
def repairVerify (n : Nat) (c : PendingCmd) (cells : List (Nat × Nat)) (s : State) : State :=
  let t := bistRecord cells (getTile s n)
  repairEnds n c (if t.uncovered then stFENCED else stOK) t { s with cmds := s.cmds.erase c }

/-- REPAIR_COMPLETE: a BIST of a repair ends, the first before its slots are blown and the second after (R85). -/
def repairComplete (n : Nat) (cells : List (Nat × Nat)) (bad : List Nat) (s : State) : State :=
  match s.cmds.find? (repairOf n) with
  | none => s
  | some c => if c.work = .repair n true then repairVerify n c cells s else repairBlow n c cells bad s

def execRepairComplete (tile : Nat) (faults : List (Nat × Nat)) (badSlots : List Nat) (s : State) : Host.Outcome State Fault Refusal :=
  .next (repairComplete tile faults badSlots s)

/-! ### Two hubs (R381-R384) -/

/-- A hub runs: its power is good and it is not OUT. -/
def hubUp (s : State) (h : Nat) : Bool := h < 2 && (getHub s h).pg && (getHub s h).lead ≠ .out

/-- HUB_LOST: the power-good of a hub falls (R382, R384). -/
def execHubLost (hub : Nat) (s : State) : Host.Outcome State Fault Refusal :=
  .next (if hubUp s hub then loseHub hub 0x01 s else s)

/-- The hub-to-hub flit path exists. -/
def hubRoute (s : State) (h : Nat) : Bool := (route s (4 + h) (4 + (1 - h))).isSome

/-- HUB_HEARTBEAT: a hub's heartbeat goes out on both paths; the other hub notes what arrives (R381, R382). -/
def hubHeartbeat (h : Nat) (flit wire : Bool) (s : State) : State :=
  let o := 1 - h
  if !hubUp s h || !hubUp s o then s
  else
    let flit := flit && hubRoute s h
    let t := now s
    modHub o (fun b =>
      { b with flitAt := if flit then t else b.flitAt, wireAt := if wire then t else b.wireAt,
               flitLost := b.flitLost && !flit, wireLost := b.wireLost && !wire,
               beats := if b.contact then 0 else if flit && wire then b.beats + 1 else 0 }) s

def execHubHeartbeat (hub : Nat) (flitArrives wireArrives : Bool) (s : State) : Host.Outcome State Fault Refusal :=
  .next (hubHeartbeat hub flitArrives wireArrives s)

/-- PATH_LOST: 250 µs have passed at a hub without a heartbeat on a path; with both paths lost contact is lost, and a follower demotes
itself (R381, R382). -/
def pathLost (h : Nat) (wire : Bool) (s : State) : State :=
  let b := getHub s h
  if !hubUp s h || now s < (if wire then b.wireAt else b.flitAt) + 250000 then s
  else
    let b := if wire then { b with wireLost := true } else { b with flitLost := true }
    if b.flitLost && b.wireLost && b.contact then
      setHub h { b with contact := false, beats := 0, lead := if b.lead = .follower then .demoted else b.lead } s
    else setHub h b s

def execPathLost (hub : Nat) (wire : Bool) (s : State) : Host.Outcome State Fault Refusal := .next (pathLost hub wire s)

/-- Contact is restored at a hub after 10 ms of heartbeats on both paths: 200 in a row (R381, R382). -/
def contactBack (b : Hub) : Hub :=
  if !b.contact && 200 ≤ b.beats && b.lead ≠ .out then
    { b with contact := true, beats := 0, lead := if b.lead = .demoted then .follower else b.lead }
  else b

/-- CONTACT_RESTORED. -/
def execContactRestored (s : State) : Host.Outcome State Fault Refusal :=
  .next { s with hubA := contactBack s.hubA, hubB := contactBack s.hubB }

def spTakeover : Spec := { op := 0x80, src := .mgmt, podRule := .mustNot, flag := false, reads := true, fields := [(127, 64)] }

def takeover (sub : Submission) (token : BitVec 4096) (otherFell : Bool) (tok : CmdTok) (s : State) : State :=
  let h := fnHub sub.mbx.fn
  guarded spTakeover false sub tok true true s (fun s =>
    if leadHub s = h || !tokenOk s 1 h token || !otherFell then only sub tok stNOT_PERMITTED 0 0 s
    else only sub tok stOK 0 0 (loseHub (1 - h) 0x02 s))

/-- TAKEOVER: with a verified token the other hub's rails are asked off; once its power-good falls this hub is lead (R382, R383). -/
def execTakeover (sub : Submission) (token : BitVec 4096) (otherFell : Bool) (s : State) : Host.Outcome State Fault Refusal :=
  .next (runCmd spTakeover (fun _ => true) sub s (takeover sub token otherFell))

/-! ### Regulator rails (R385, R431) -/

/-- SOFT_START_DONE: a rail reaches its window; its voltage is within its range. -/
def execSoftStartDone (rail : Nat) (s : State) : Host.Outcome State Fault Refusal :=
  .next (if getRail s rail = .softStart then setVolt rail (setRail rail .on s) else s)

/-- A rail latches off: its die is fenced and the fault posted (R385, R431). -/
def railFault (i cause millivolt : Nat) (s : State) : State :=
  postDevice 0x0D (unitCode (.rail i)) (cause + at_ 16 (millivolt % 2 ^ 16)) (fenceRail i 0x04 .latched s)

/-- SOFT_START_LOW. -/
def execSoftStartLow (rail millivolt : Nat) (s : State) : Host.Outcome State Fault Refusal :=
  .next (if rail < 46 && getRail s rail = .softStart then railFault rail 0x01 millivolt s else s)

/-- OVERCURRENT. -/
def execOvercurrent (rail millivolt : Nat) (s : State) : Host.Outcome State Fault Refusal :=
  .next (if rail < 46 && (getRail s rail = .softStart || getRail s rail = .on) then railFault rail 0x02 millivolt s else s)

end Sys2Proof.Machine
end

