-- ==== Sys2Proof/Machine/Csr.lean ====
section
/-! DEFINITION. The control and status registers: the CSR range (R14, R15, R28, R33, R64, R86, R201, R202, R233, R276, R282, R306, R307,
R347, R348, R361, R362, R370, R374, R408, R411, R413) and BAR0 (R311, R317, R339, R340). -/

namespace Sys2Proof.Machine

open Sys2Proof

/-! ### The map of the CSR range -/

/-- A group of registers of the CSR range. -/
inductive CsrReg where
  | lcCap | linkStat | mxFmt | tileStat | stkFmt | pwuStat | pwuInv | dramSlot | dieMap | eccLog | kvLand | mirror | landCh | aper
  | eccCfg | regionLost | syncRef | portRefuse | thmDie | thmExt
deriving DecidableEq, Repr

/-- Where a group lies: first offset in the CSR range, stride, count and width in bytes. -/
structure CsrBlock where
  reg : CsrReg
  base : Nat
  stride : Nat
  count : Nat
  width : Nat
deriving DecidableEq, Repr

/-- Every register of the CSR range. -/
def csrMap : List CsrBlock :=
  [⟨.lcCap, 0x1000, 4, 37, 4⟩, ⟨.linkStat, 0x1100, 4, 37, 4⟩, ⟨.mxFmt, 0x100000, 16, 32, 16⟩, ⟨.tileStat, 0x110000, 8, 256, 8⟩,
   ⟨.stkFmt, 0x200000, 16, 1024, 16⟩, ⟨.pwuStat, 0x210000, 16, 16, 8⟩, ⟨.pwuInv, 0x210100, 8, 16, 8⟩, ⟨.dramSlot, 0x210200, 8, 16, 8⟩,
   ⟨.dieMap, 0x210400, 8, 16, 8⟩, ⟨.eccLog, 0x211000, 16, 192, 16⟩, ⟨.kvLand, 0x300000, 64, 16, 64⟩, ⟨.mirror, 0x300400, 16, 64, 16⟩,
   ⟨.landCh, 0x301000, 32, 256, 32⟩, ⟨.aper, 0x303000, 16, 256, 16⟩, ⟨.eccCfg, 0x304000, 8, 1, 8⟩, ⟨.regionLost, 0x305000, 32, 1, 32⟩,
   ⟨.syncRef, 0x306000, 8, 1, 8⟩, ⟨.portRefuse, 0x307000, 32, 4, 32⟩, ⟨.thmDie, 0x400000, 8, 214, 8⟩, ⟨.thmExt, 0x401000, 16, 1, 16⟩]

/-- The register that holds an offset: group, index and byte within it. -/
def csrFind (off : Nat) : Option (CsrReg × Nat × Nat) :=
  csrMap.findSome? (fun b =>
    if b.base ≤ off ∧ off < b.base + b.count * b.stride ∧ (off - b.base) % b.stride < b.width
    then some (b.reg, (off - b.base) / b.stride, (off - b.base) % b.stride) else none)

/-- Offset of a register. -/
def csrBase (r : CsrReg) (n : Nat) : Nat := ((csrMap.find? (fun b => b.reg = r)).map (fun b => b.base + b.stride * n)).getD 0

/-- Width of a register in bytes. -/
def csrWidth (r : CsrReg) : Nat := ((csrMap.find? (fun b => b.reg = r)).map (fun b => b.width)).getD 0

/-! ### Values read -/

/-- `HUB_FAB_LC_CAP` (R28). -/
def lcCapValue (l : Link) : Nat := l.capActive + at_ 8 l.capNext + at_ 14 (b2n (l.capNext ≠ l.capActive))

/-- `HUB_FAB_LINK_STAT` (R33). -/
def linkStatValue (s : State) (n : Nat) : Nat := (getLink s n).crcErr + at_ 16 (getLink s n).retrain + at_ 24 (linkState s n)

/-- `MX_FMT_CNT`, `STK_FMT_CNT` (R64). -/
def fmtCntValue (c : FmtCnt) : Nat := c.badTrit + at_ 32 c.nanScale + at_ 64 c.saturate + at_ 96 c.truncate

/-- STATE of a tile (R86): 1 FENCED, else what BIST or repair does. -/
def tileState (s : State) (n : Nat) : Nat :=
  let t := getTile s n
  if t.busy ≠ 0 then t.busy else if tileFenced s n then 1 else 0

/-- `MX_TILE_STAT` (R86). -/
def tileStatValue (s : State) (n : Nat) : Nat :=
  let t := getTile s n
  let slot (l : List (Option Nat)) (k : Nat) : Option Nat := (l[k]?).getD none
  (slot t.rskip 0).getD 0 + at_ 8 ((slot t.rskip 1).getD 0) + at_ 16 ((slot t.cskip 0).getD 0) + at_ 25 ((slot t.cskip 1).getD 0)
    + at_ 34 (b2n (slot t.rskip 0).isSome) + at_ 35 (b2n (slot t.rskip 1).isSome) + at_ 36 (b2n (slot t.cskip 0).isSome)
    + at_ 37 (b2n (slot t.cskip 1).isSome) + at_ 38 t.faultRows + at_ 41 t.faultCols + at_ 44 (tileState s n) + at_ 46 (b2n t.bistDone)

/-- `STK_PWU_STAT` (R201). -/
def pwuStatValue (u : Pwu) : Nat := u.lab.length + at_ 16 u.invals + at_ 32 u.hits + at_ 48 u.misses

/-- HOT_FRAMES: what was counted, and the frames of 1.024 µs since (R276). -/
def hotFrames (s : State) (d : DieMap) : Nat := satAdd 0xFFFFFFFF d.hotFrames (if d.hot then (now s - d.hotAt) / 1024 else 0)

/-- XBAR_FULL: of the frames since it was last 0, some number that nothing in the model fixes, since how the slots of a frame are used
is timing (R276; a free value, log entry 5). -/
def xbarFull (s : State) (d : DieMap) : Nat := min 0xFFFF (Config.freeId s.freeIdx % ((now s - d.xbarAt) / 1024 + 1))

/-- `STK_DRAM_SLOT` (R276). -/
def dramSlotValue (s : State) (st : Nat) : Nat :=
  b2n (getDie s st).hot + at_ 16 (hotFrames s (getDie s st)) + at_ 48 (xbarFull s (getDie s st))

/-- STATE of a stack's sparing as it reads (R368, R370). -/
def spareState (s : State) (st : Nat) : Nat := if stackFenced s st then 6 else (getDie s st).state

/-- `STK_DIE_MAP` (R370). -/
def dieMapValue (s : State) (st : Nat) : Nat :=
  let d := getDie s st
  let x := spareState s st
  ((List.range 10).foldl (fun r k => r + at_ (4 * k) (nth 15 d.slot k)) 0) + at_ 40 d.erase + at_ 44 x + at_ 47 d.queued
    + at_ 52 (if x = 1 ∨ x = 3 then min 4095 (d.pos / 2 ^ 18) else 0)

/-- ROLE of a counting entry (R362). -/
def roleOf (s : State) (entry : Nat) : Nat :=
  if entry < 22 then 15
  else
    let d := getDie s ((entry - 22) / 12)
    let k := (entry - 22) % 12
    if d.retired.contains k then 11
    else match slotOfDie d k with
      | some i => i
      | none => 10

/-- An entry of `STK_ECC_LOG` and HEALTH_READ (R362, R363). -/
def eccEntry (s : State) (entry : Nat) : Nat :=
  let l : EccLog := SMap.get {} s.ecc entry
  l.ceRaw + at_ 32 l.bucket + at_ 48 l.ovf + at_ 64 (min 15 l.ovf24.length) + at_ 80 (if entry < 22 then l.ue else 0) + at_ 96 l.kill
    + at_ 112 (roleOf s entry)

/-- `HUB_MIRROR` (R282). -/
def mirrorValue (s : State) (k : Nat) : Nat :=
  let r := at_ 96 (SMap.get 0 s.redirects k)
  match (declared s).find? (fun m => m.2.slice = k && !m.2.removed) with
  | some (_, m) => 1 + at_ 1 m.pod + at_ 16 m.src + at_ 64 m.len + r
  | none => r

/-- `HUB_LAND_CH` (R306). -/
def landChValue (c : LandCh) : Nat := c.base + at_ 64 c.len + at_ 128 c.count + at_ 192 (b2n c.armed) + at_ 193 (b2n c.armErr)

/-- `HUB_APER` (R347). -/
def aperValue (a : Aper) : Nat := a.mode + at_ 2 (b2n a.rdonly) + at_ 8 a.region + at_ 32 a.len + at_ 64 a.base

/-- `HUB_ECC_CFG` (R361). -/
def eccCfgValue (c : Nat × Nat × Nat × Nat) : Nat := c.1 + at_ 8 c.2.1 + at_ 16 c.2.2.1 + at_ 28 c.2.2.2

/-- `HUB_REGION_LOST` (R374). -/
def regionLostValue (s : State) : Nat := maskOf (((mapped s).filter (fun q => q.2.lost)).map (fun q => q.1))

/-- QUAL bits of the references: the internal timer is always qualified (R401, R408). -/
def refQual (c : Clock) : Nat := b2n (c.ref0.state = .qualified) + at_ 1 (b2n (c.ref1.state = .qualified)) + 4

/-- `SYNC_REF_STAT` (R408). -/
def syncRefValue (c : Clock) : Nat :=
  c.active + at_ 2 (b2n c.switching) + at_ 4 (refQual c) + at_ 7 (b2n (c.ref0.state = .stuck)) + at_ 8 c.ref0.count + at_ 12 c.ref1.count
    + at_ 16 (unsigned 32 c.phase) + at_ 48 c.jumps

/-- `HUB_PORT_REFUSE` (R348). -/
def portRefuseValue (p : Port) : Nat :=
  p.wrDrop + at_ 32 p.rdAbort + at_ 64 p.uioAbort + at_ 80 p.reqId + at_ 96 p.lastOff + at_ 144 (b2n p.lastWr) + at_ 145 (b2n p.lastCxl)

/-- Sensors of a die by its entry of R363 (R409). -/
def sensorCount (die : Nat) : Nat := if die < 4 then 64 else if die < 6 then 32 else if die < 22 then 16 else 2

/-- `THM_DIE` (R411). -/
def thmDieValue (s : State) (n : Nat) : Nat :=
  let d : ThmDie := SMap.get {} s.thermal.dies n
  unsigned 16 d.tj + at_ 16 (unsigned 16 d.rate) + at_ 32 (unsigned 16 d.peak) + at_ 48 (sensorCount n - d.invalid.length)
    + at_ 55 (b2n d.warn) + at_ 56 (b2n d.action) + at_ 57 (b2n d.throttle)

/-- `THM_EXT` (R413). -/
def thmExtValue (t : Thermal) : Nat :=
  let field (l : List Int) (b : Nat) : Nat := (l.zipIdx).foldl (fun r q => r + at_ (b + 16 * q.2) (unsigned 16 q.1)) 0
  let flags (l : List Bool) (b : Nat) : Nat := (l.zipIdx).foldl (fun r q => r + at_ (b + q.2) (b2n q.1)) 0
  field t.diode 0 + field t.therm 64 + flags t.dfault 96 + flags t.tfault 100 + at_ 102 (b2n t.envOut)

/-- What a register reads as. -/
def csrValue (s : State) (r : CsrReg) (n : Nat) : Nat :=
  match r with
  | .lcCap => lcCapValue (getLink s n)
  | .linkStat => linkStatValue s n
  | .mxFmt => fmtCntValue (SMap.get {} s.mxFmt n)
  | .tileStat => tileStatValue s n
  | .stkFmt => fmtCntValue (SMap.get {} s.stkFmt n)
  | .pwuStat => pwuStatValue (SMap.get {} s.pwu n)
  | .pwuInv => 0
  | .dramSlot => dramSlotValue s n
  | .dieMap => dieMapValue s n
  | .eccLog => eccEntry s (22 + n)
  | .kvLand => at_ 96 (SMap.get 0 s.kvDropped n)
  | .mirror => mirrorValue s n
  | .landCh => landChValue (SMap.get {} s.land n)
  | .aper => aperValue (SMap.get {} s.aper n)
  | .eccCfg => eccCfgValue s.eccWritten
  | .regionLost => regionLostValue s
  | .syncRef => syncRefValue s.clock
  | .portRefuse => portRefuseValue (getPort s n)
  | .thmDie => thmDieValue s n
  | .thmExt => thmExtValue s.thermal

/-- A byte of the CSR range: 0 where no register lies (R339's rule for BAR0, taken for the CSR range too: log entry 34). -/
def csrByte (s : State) (off : Nat) : Byte :=
  match csrFind off with
  | some (r, n, k) => byteOf (csrValue s r n) k
  | none => 0

/-! ### Clearing reads (R14) -/

/-- Clear one count of a format counter register. -/
def clearFmt (w : Nat) (c : FmtCnt) : FmtCnt :=
  match w with
  | 0 => { c with badTrit := 0 }
  | 1 => { c with nanScale := 0 }
  | 2 => { c with saturate := 0 }
  | _ => { c with truncate := 0 }

/-- Reading byte k of a register clears the RC field that the byte belongs to. DESIGN CHOICE (log entry 69): R14 has reading clear an
RC field and says nothing of a read of some of its bytes; here any byte read clears the whole field. -/
def csrTouch (r : CsrReg) (n k : Nat) (s : State) : State :=
  match r with
  | .mxFmt => { s with mxFmt := SMap.mod {} s.mxFmt n (clearFmt (k / 4)) }
  | .stkFmt => { s with stkFmt := SMap.mod {} s.stkFmt n (clearFmt (k / 4)) }
  | .pwuStat => { s with pwu := SMap.mod {} s.pwu n (fun u =>
      if k / 2 = 1 then { u with invals := 0 } else if k / 2 = 2 then { u with hits := 0 } else if k / 2 = 3 then { u with misses := 0 } else u) }
  | .dramSlot =>
    if 2 ≤ k ∧ k < 6 then setDie n { getDie s n with hotFrames := 0, hotAt := now s } s
    else if 6 ≤ k then setDie n { getDie s n with xbarAt := now s } { s with freeIdx := s.freeIdx + 1 }
    else s
  | .mirror => if 12 ≤ k then { s with redirects := SMap.set 0 s.redirects n 0 } else s
  | .kvLand => if k = 12 ∨ k = 13 then { s with kvDropped := SMap.set 0 s.kvDropped n 0 } else s
  | .portRefuse =>
    let p := getPort s n
    setPort n (if k < 4 then { p with wrDrop := 0 } else if k < 8 then { p with rdAbort := 0 } else if k < 10 then { p with uioAbort := 0 } else p) s
  | .thmDie =>
    if k = 4 ∨ k = 5 then
      { s with thermal := { s.thermal with dies := SMap.mod {} s.thermal.dies n (fun d => { d with peak := 0 }) } }
    else s
  | .syncRef => if k = 6 then { s with clock := { s.clock with jumps := 0 } } else s
  | _ => s

/-- A read of len bytes of the CSR range: the bytes, and the state with every RC field read cleared. -/
def csrReadBytes (off len : Nat) (s : State) : List Byte × State :=
  ((List.range len).map (fun i => csrByte s (off + i)),
   (List.range len).foldl (fun s i => match csrFind (off + i) with
     | some (r, n, k) => csrTouch r n k s
     | none => s) s)

/-- What a refused access leaves in `HUB_PORT_REFUSE` besides its count. -/
def refuseNote (off : Nat) (wr cxl : Bool) (reqId : Nat) (p : Port) : Port :=
  { p with reqId := reqId % 2 ^ 16, lastOff := off % 2 ^ 48, lastWr := wr, lastCxl := cxl }

/-- A host read refused (R37, R348): Completer Abort, counted. -/
def refuseRead (fn port off reqId : Nat) (cxl : Bool) (s : State) : State :=
  let s := if cxl then s else noteAer fn 15 s
  let p := getPort s port
  emit (.read (.fn fn) [] false true) (setPort port (refuseNote off false cxl reqId { p with rdAbort := satAdd 0xFFFFFFFF p.rdAbort 1 }) s)

/-- A posted host write refused: dropped and counted. -/
def refuseWrite (port off reqId : Nat) (cxl : Bool) (s : State) : State :=
  let p := getPort s port
  setPort port (refuseNote off true cxl reqId { p with wrDrop := satAdd 0xFFFFFFFF p.wrDrop 1 }) s

/-- A free requester ID where the command names none (log entry 5). -/
def freeReqId (s : State) : Nat := Config.freeId s.freeIdx

/-- A register read of the CSR range by a requester: Completer Abort, counted, where it reaches no CSR or its port is fenced (R37, R346,
R478); Unsupported Request where the function is not there (log entry 12). -/
def csrRead (req : Requester) (off len : Nat) (s : State) : State :=
  if csrReader s req then
    let (bs, s) := csrReadBytes off len s
    emit (.read req bs false false) s
  else match req with
    | .fn f =>
      if fnThere s f then refuseRead f (fnPort f) (addrCsr + off) (freeReqId s) false { s with freeIdx := s.freeIdx + 1 }
      else if f < 20 then emit (.unsupported f) s
      else s
    | .control => s

/-- A VF's writes to the CSR range reach its pod's `HUB_KV_LAND` and `HUB_LAND_CH` alone (R346). -/
def vfCsrWrite (p off len : Nat) : Bool :=
  let lies (b n : Nat) : Bool := b ≤ off && off + len ≤ b + n
  lies (csrBase .kvLand p) 64 || lies (csrBase .landCh (16 * p)) 512

/-- The CSR range as a function reaches it (R346). -/
def fnCsr (s : State) (fn off len : Nat) (write : Bool) : Bool :=
  if isPF fn then !write || s.owner = some fn
  else match boundPod s fn with
    | some p => !write || vfCsrWrite p off len
    | none => false

/-- A register write into the CSR range: a control core's is made; a host function's is made where the function reaches the register,
and else dropped and counted (R37, R346, R348, R478). A function that is not there writes nothing. -/
def csrReach (req : Requester) (off len : Nat) (s : State) (make : State → State) : State :=
  match req with
  | .control => make s
  | .fn f =>
    if !fnThere s f then s
    else if fnAlive s f && fnCsr s f off len true then make s
    else refuseWrite (fnPort f) (addrCsr + off) (freeReqId s) false { s with freeIdx := s.freeIdx + 1 }

/-- LC_CAP_WRITE. -/
def execLcCapWrite (req : Requester) (n : Nat) (value : BitVec 32) (s : State) : Host.Outcome State Fault Refusal :=
  .next (if n < 37 then csrReach req (csrBase .lcCap n) 4 s (lcCapWrite req n value) else s)

/-- KV_LAND_WRITE: it takes effect only through a BAR2 aperture of pod p (R233). -/
def execKvLandWrite (req : Requester) (p : Nat) (value : BitVec 512) (s : State) : Host.Outcome State Fault Refusal :=
  .next (if p < 16 then csrReach req (csrBase .kvLand p) 64 s (fun s => if isPodFn s req p then kvLand p value s else s) else s)

/-- FMT_CNT_READ: one 32-bit word of MX_FMT_CNT or STK_FMT_CNT. -/
def execFmtCntRead (req : Requester) (stk : Bool) (n word : Nat) (s : State) : Host.Outcome State Fault Refusal :=
  .next (if word < 4 && n < (if stk then 1024 else 32) then csrRead req (csrBase (if stk then .stkFmt else .mxFmt) n + 4 * word) 4 s else s)

/-- PWU_STAT_READ. -/
def execPwuStatRead (req : Requester) (st : Nat) (s : State) : Host.Outcome State Fault Refusal :=
  .next (if st < 16 then csrRead req (csrBase .pwuStat st) 8 s else s)

/-- DRAM_SLOT_READ. -/
def execDramSlotRead (req : Requester) (st : Nat) (s : State) : Host.Outcome State Fault Refusal :=
  .next (if st < 16 then csrRead req (csrBase .dramSlot st) 8 s else s)

/-- MIRROR_STAT_READ. -/
def execMirrorStatRead (req : Requester) (k : Nat) (s : State) : Host.Outcome State Fault Refusal :=
  .next (if k < 64 then csrRead req (csrBase .mirror k) 16 s else s)

/-- PORT_REFUSE_READ. -/
def execPortRefuseRead (req : Requester) (p : Nat) (s : State) : Host.Outcome State Fault Refusal :=
  .next (if p < 4 then csrRead req (csrBase .portRefuse p) 32 s else s)

/-- THM_DIE_READ. -/
def execThmDieRead (req : Requester) (n : Nat) (s : State) : Host.Outcome State Fault Refusal :=
  .next (if n < 214 then csrRead req (csrBase .thmDie n) 8 s else s)

/-- SYNC_REF_STAT_READ. -/
def execSyncRefStatRead (req : Requester) (s : State) : Host.Outcome State Fault Refusal := .next (csrRead req (csrBase .syncRef 0) 8 s)

/-- KV_LAND_READ: zeros but for DROPPED, which is cleared. -/
def execKvLandRead (req : Requester) (p : Nat) (s : State) : Host.Outcome State Fault Refusal :=
  .next (if p < 16 then csrRead req (csrBase .kvLand p) 64 s else s)

/-! ### Reach of a long range (R270) -/

/-- End of the stretch of a pod's reach that begins at an address, by the unit that holds it. -/
def stretchEnd (s : State) (p a : Nat) : Nat :=
  match placeOf a with
  | .stack st off =>
    maxNat (((mapped s).filter (fun r => r.2.pod = p && covers r.2 st off && !r.2.lost)).map (fun r => addrStack st (r.2.off + r.2.span)))
  | .slice k _ => addrSlice k + 0x8000000
  | .tile n _ => addrTile n + 0x4000000
  | .local_ e _ => addrLocal e + 0x400000
  | .window w _ => addrWindow w + (getWindow s w).len
  | _ => 0

/-- The whole range lies in the pod's reach, stretch by stretch, by fuel. -/
def reachWalk (fuel : Nat) (s : State) (p a stop : Nat) : Bool :=
  match fuel with
  | 0 => false
  | f + 1 =>
    if stop ≤ a then true
    else if (podAccess s p a false).isSome then false
    else if stretchEnd s p a ≤ a then false
    else reachWalk f s p (stretchEnd s p a) stop

/-! ### Registers with writable fields -/

/-- `STK_PWU_INV` (R202). -/
def pwuInvWrite (st v : Nat) (s : State) : State :=
  if bit v 16 then pwuInval st (fun _ => false) s else pwuInval st (fun l => l.stream ≠ bits v 15 0) s

/-- The owner PF's aperture or a control core. -/
def ownerOrControl (s : State) (req : Requester) : Bool := req = .control || isOwner s req

/-- PWU_INVALIDATE. -/
def execPwuInvalidate (req : Requester) (st : Nat) (value : BitVec 64) (s : State) : Host.Outcome State Fault Refusal :=
  .next (if st < 16 then csrReach req (csrBase .pwuInv st) 8 s (fun s => if ownerOrControl s req then pwuInvWrite st value.toNat s else s)
  else s)

def getLand (s : State) (n : Nat) : LandCh := SMap.get {} s.land n
def setLand (n : Nat) (c : LandCh) (s : State) : State := { s with land := SMap.set {} s.land n c }

/-- Who may write a landing channel: pod p's VFs, the owner PF's aperture, the control cores (R306). -/
def landWriter (s : State) (req : Requester) (n : Nat) : Bool := n < 256 && (ownerOrControl s req || isPodFn s req (n / 16))

/-- A write of the LEN word: 0 disarms, any other value arms or is refused (R307). -/
def landLen (n len : Nat) (s : State) : State :=
  let c := getLand s n
  if len = 0 then setLand n { c with len := 0, armed := false } s
  else
    let ok := c.base % 64 = 0 && len % 64 = 0 && reachWalk 4096 s (n / 16) c.base (c.base + len)
    setLand n { c with len := len, count := 0, armed := ok, armErr := !ok } s

/-- LAND_CH_ARM. -/
def execLandChArm (req : Requester) (n : Nat) (len : BitVec 48) (s : State) : Host.Outcome State Fault Refusal :=
  .next (if n < 256 && len ≠ 0 then
    csrReach req (csrBase .landCh n + 8) 8 s (fun s => if landWriter s req n then landLen n len.toNat s else s)
  else s)

/-- LAND_CH_DISARM. -/
def execLandChDisarm (req : Requester) (n : Nat) (s : State) : Host.Outcome State Fault Refusal :=
  .next (if n < 256 then csrReach req (csrBase .landCh n + 8) 8 s (fun s => if landWriter s req n then landLen n 0 s else s) else s)

/-- A write of `HUB_APER` (R347): MODE 3 is ignored, the low 12 bits of BASE are. -/
def aperWrite (n v : Nat) (s : State) : State :=
  let a : Aper := SMap.get {} s.aper n
  let m := bits v 1 0
  let b : Aper :=
    { mode := if m = 3 then a.mode else m, rdonly := bit v 2, region := bits v 15 8, len := bits v 55 32, base := bits v 111 76 * 4096 }
  { s with aper := SMap.set {} s.aper n b }

/-- APERTURE_WRITE. -/
def execApertureWrite (req : Requester) (n : Nat) (value : BitVec 128) (s : State) : Host.Outcome State Fault Refusal :=
  .next (if n < 256 then csrReach req (csrBase .aper n) 16 s (fun s => if ownerOrControl s req then aperWrite n value.toNat s else s) else s)

/-- A write of `HUB_ECC_CFG`: each field keeps its value where the new one is out of range (R361). -/
def eccCfgMerge (c : Nat × Nat × Nat × Nat) (v : Nat) : Nat × Nat × Nat × Nat :=
  let h := bits v 7 0
  let cap := bits v 15 8
  let leak := bits v 27 16
  let r := bits v 31 28
  (if 1 ≤ h ∧ h ≤ 168 then h else c.1, if cap = 0 then c.2.1 else cap, if 1 ≤ leak ∧ leak ≤ 3600 then leak else c.2.2.1,
   if r = 0 then c.2.2.2 else r)

/-- ECC_CFG_WRITE: in force from the next leak tick or scrub pass. -/
def execEccCfgWrite (req : Requester) (value : BitVec 64) (s : State) : Host.Outcome State Fault Refusal :=
  .next (csrReach req (csrBase .eccCfg 0) 8 s (fun s =>
    if isOwner s req then { s with eccWritten := eccCfgMerge s.eccWritten value.toNat } else s))

/-- Some byte of a range is written. -/
def anyTouched (touched : Nat → Bool) (lo hi : Nat) : Bool := (List.range (hi + 1 - lo)).any (fun i => touched (lo + i))

/-- A write of some bytes of a register: its whole new value and the bytes written. Writes that the register does not take from
this requester, and writes to read-only fields, are ignored (R14, R15). -/
def csrStore (req : Requester) (r : CsrReg) (n : Nat) (touched : Nat → Bool) (v : Nat) (s : State) : State :=
  match r with
  | .lcCap => if anyTouched touched 1 1 then lcCapWrite req n (BitVec.ofNat 32 v) s else s
  | .pwuInv => if ownerOrControl s req && anyTouched touched 0 2 then pwuInvWrite n v s else s
  | .kvLand => if isPodFn s req n then kvLand n (BitVec.ofNat 512 v) s else s
  | .landCh =>
    if landWriter s req n then
      let s := if anyTouched touched 0 5 then setLand n { getLand s n with base := bits v 47 0 } s else s
      if anyTouched touched 8 13 then landLen n (bits v 111 64) s else s
    else s
  | .aper => if ownerOrControl s req then aperWrite n v s else s
  | .eccCfg => if isOwner s req then { s with eccWritten := eccCfgMerge s.eccWritten v } else s
  | _ => s

/-- The whole value of a register with written bytes in their places. -/
def csrMerge (old base width off : Nat) (bs : List Byte) : Nat :=
  leNat ((List.range width).map (fun k => if off ≤ base + k ∧ base + k < off + bs.length then nth 0 bs (base + k - off) else byteOf old k))

/-- Bytes are written to the CSR range: every register touched takes its own write, in ascending order. -/
def csrWriteBytes (req : Requester) (off : Nat) (bs : List Byte) (s : State) : State :=
  let regs := ((List.range bs.length).filterMap (fun i => (csrFind (off + i)).map (fun q => (q.1, q.2.1)))).foldl
    (fun (acc : List (CsrReg × Nat)) x => if acc.contains x then acc else acc ++ [x]) []
  regs.foldl (fun s q =>
    let base := csrBase q.1 q.2
    csrStore req q.1 q.2 (fun k => off ≤ base + k && base + k < off + bs.length) (csrMerge (csrValue s q.1 q.2) base (csrWidth q.1) off bs) s) s

/-! ### BAR0 -/

/-- `MBX_FUNC` (R340). -/
def mbxFuncValue (s : State) (fn : Nat) : Nat :=
  let pod := boundPod s fn
  (if isPF fn then 0 else 1) + at_ 2 (fnPort fn) + at_ 4 (if isPF fn then 0 else (fn - 4) % 4) + at_ 6 (b2n (isPF fn && s.owner = some fn))
    + at_ 7 (b2n pod.isSome) + at_ 8 (pod.getD 0) + at_ 12 (fnHub fn) + at_ 13 (b2n (getPort s (fnPort fn)).uio)

/-- `MBX_RING[m]` (R311). -/
def mbxRingValue (s : State) (m : Mbx) : Nat :=
  let b := getMbx s m
  b.sqBase.toNat + at_ 64 b.cqBase.toNat + at_ 128 b.sqLog + at_ 132 b.cqLog + at_ 160 b.pasid + at_ 180 (b2n b.pasidV) + at_ 192 (b2n b.enable)
    + at_ 224 b.state + at_ 226 (b2n (ready s (fnHub m.fn))) + at_ 228 b.err + at_ 256 b.sqTail + at_ 288 b.sqHead + at_ 320 b.cqHead
    + at_ 352 b.cqTail + at_ 384 b.outstanding + at_ 448 b.dropped

/-- `MBX_EVENT` (R317). -/
def mbxEventValue (f : Func) : Nat :=
  f.evBase.toNat + at_ 64 f.evLog + at_ 96 (b2n f.evEnable) + at_ 97 (b2n f.lostFlag) + at_ 128 f.evTail + at_ 144 f.evHead + at_ 160 f.lost

/-- An entry of the MSI-X table (R318, R339). -/
def msixEntryValue (e : BitVec 64 × BitVec 32 × Bool) : Nat := e.1.toNat + at_ 64 e.2.1.toNat + at_ 96 (b2n e.2.2)

/-- A 32-bit word of a function's BAR0; offsets not listed read 0 (R339). -/
def bar0Word (s : State) (fn off : Nat) : Word :=
  let f := getFunc s fn
  let part (v k : Nat) : Word := BitVec.ofNat 32 (v >>> (8 * k))
  if off < 8 then part (mbxFuncValue s fn) off
  else if 0x1000 ≤ off ∧ off < 0x1030 then part (msixEntryValue (nth (0, 0, true) f.msix ((off - 0x1000) / 16))) ((off - 0x1000) % 16)
  else if off = 0x1800 then BitVec.ofNat 32 (maskOf ((List.range 3).filter (fun v => nth false f.msixPend v)))
  else if 0x10000 ≤ off ∧ off < 0x10400 ∧ (off - 0x10000) % 0x100 < 64 ∧ mbxExists ⟨fn, (off - 0x10000) / 0x100⟩ then
    part (mbxRingValue s ⟨fn, (off - 0x10000) / 0x100⟩) ((off - 0x10000) % 0x100)
  else if 0x10800 ≤ off ∧ off < 0x10820 then part (mbxEventValue f) (off - 0x10800)
  else 0

/-- A 64-bit base with its low or high word replaced. -/
def putHalf (b : BitVec 64) (high : Bool) (v : BitVec 32) : BitVec 64 :=
  if high then v ++ b.extractLsb' 0 32 else b.extractLsb' 32 32 ++ v

/-- A write of word w of `MBX_RING[m]` (R311, R312, R313). -/
def ringStore (m : Mbx) (w : Nat) (value : BitVec 32) (s : State) : State :=
  let b := getMbx s m
  let v := value.toNat
  match w with
  | 0 => if b.enable then s else setMbx m { b with sqBase := putHalf b.sqBase false value } s
  | 1 => if b.enable then s else setMbx m { b with sqBase := putHalf b.sqBase true value } s
  | 2 => if b.enable then s else setMbx m { b with cqBase := putHalf b.cqBase false value } s
  | 3 => if b.enable then s else setMbx m { b with cqBase := putHalf b.cqBase true value } s
  | 4 => setMbx m { b with sqLog := bits v 3 0, cqLog := bits v 7 4 } s
  | 5 => setMbx m { b with pasid := bits v 19 0, pasidV := bit v 20 } s
  | 6 => if bit v 0 then mbxEnable m s else stopMbx m s
  | 8 => sqDoorbell m (bits v 15 0) s
  | 10 => cqHeadWrite m (bits v 15 0) s
  | _ => s

/-- A write of word w of `MBX_EVENT` (R317). -/
def eventStore (fn w : Nat) (value : BitVec 32) (s : State) : State :=
  let f := getFunc s fn
  let v := value.toNat
  match w with
  | 0 => if f.evEnable then s else setFunc fn { f with evBase := putHalf f.evBase false value } s
  | 1 => if f.evEnable then s else setFunc fn { f with evBase := putHalf f.evBase true value } s
  | 2 => setFunc fn { f with evLog := bits v 3 0 } s
  | 3 =>
    let s := if bit v 1 then setFunc fn { f with lostFlag := false } s else s
    if bit v 0 then eventRingEnable fn s else setFunc fn { getFunc s fn with evEnable := false } s
  | 4 => setFunc fn { f with evHead := bits v 31 16 } s
  | _ => s

/-- A write of word w of MSI-X table entry k. -/
def msixStore (fn k w : Nat) (value : BitVec 32) (s : State) : State :=
  let f := getFunc s fn
  let e := nth (0, 0, true) f.msix k
  let e' : BitVec 64 × BitVec 32 × Bool :=
    match w with
    | 0 => (putHalf e.1 false value, e.2)
    | 1 => (putHalf e.1 true value, e.2)
    | 2 => (e.1, value, e.2.2)
    | _ => (e.1, e.2.1, value.getLsbD 0)
  setFunc fn { f with msix := f.msix.set k e' } s

/-- A 32-bit write to a function's BAR0: unlisted and unaligned offsets are ignored (R339). -/
def bar0Store (fn off : Nat) (value : BitVec 32) (s : State) : State :=
  if off % 4 ≠ 0 then s
  else if 0x1000 ≤ off ∧ off < 0x1030 then msixStore fn ((off - 0x1000) / 16) ((off - 0x1000) % 16 / 4) value s
  else if 0x10000 ≤ off ∧ off < 0x10400 ∧ (off - 0x10000) % 0x100 < 64 ∧ mbxExists ⟨fn, (off - 0x10000) / 0x100⟩ then
    ringStore ⟨fn, (off - 0x10000) / 0x100⟩ ((off - 0x10000) % 0x100 / 4) value s
  else if 0x10800 ≤ off ∧ off < 0x10820 then eventStore fn ((off - 0x10800) / 4) value s
  else s

end Sys2Proof.Machine
end

