-- ==== Sys2Proof/Machine/Reset.lean ====
section
/-! DEFINITION. A part reset (R468), and what is left when every on-package rail turns off (R421, R456). -/

namespace Sys2Proof.Machine

open Sys2Proof

/-- The repair fuses of every tile (R83); the rest of a tile's state goes. -/
def fusesOf (t : SMap TileStat) : SMap TileStat :=
  (t.map (fun q => (q.1, ({ rskip := q.2.rskip, cskip := q.2.cskip } : TileStat)))).filter (fun q => decide (q.2 ≠ {}))

/-- The pins of a port, which no reset of the part moves: PERST_N and the qualification of its REFCLK. -/
def portPins (p : SMap Port) : SMap Port :=
  (p.map (fun q => (q.1, ({ perst := q.2.perst, refclk := q.2.refclk } : Port)))).filter (fun q => decide (q.2 ≠ {}))

/-- Fuses, and the fuse words of a commit still to be programmed (R436, R439, R443). -/
def fuseState (v : Security) : Security :=
  { owners := v.owners, retireFuse := v.retireFuse, dbgCount := v.dbgCount, rollA := v.rollA, rollB := v.rollB, words := v.words,
    retiring := v.retiring, drbgDraws := v.drbgDraws }

/-- The QSPI banks, the record stores and the deferred queue (R434, R461, R468). -/
def storedState (v : Firmware) : Firmware :=
  { t0 := v.t0, restartAt := v.restartAt, bankA := v.bankA, bankB := v.bankB, storeA := v.storeA, storeB := v.storeB, defer := v.defer }

/-- Device time (R394) and the level at STEP_SYNC. -/
def timeState (c : Clock) : Clock := { timeA := c.timeA, timeB := c.timeB, level := c.level, levelAt := c.levelAt, prevAt := c.prevAt }

/-- A part reset: every state of the part is cleared except fuses, the record stores, the deferred writes and device time (R468);
a latched trip or supply fault stays. The TAP and the pins are outside the part's reset (R462). -/
def partReset (s : State) : State :=
  { State.reset with
    pending := s.pending
    out := s.out
    freeIdx := s.freeIdx
    leakAt := now s
    tiles := fusesOf s.tiles
    ports := portPins s.ports
    clock := timeState s.clock
    thermal := { trip := s.thermal.trip }
    power := { planVer := s.power.planVer, hours := s.power.hours, plannedAt := s.power.plannedAt }
    sec := fuseState s.sec
    fw := storedState s.fw
    mgmt := { addrSel := s.mgmt.addrSel }
    jtag := s.jtag
    pins := s.pins }

/-- The acorns restart: t0 comes no sooner than 350 ms later (R333, R468). -/
def restartAcorns (s : State) : State := { s with fw := { s.fw with restartAt := now s } }

/-- t0: the latest of now, as PWR_GOOD rises or RESET_N deasserts, and 350 ms after the acorns' last restart (R333, R468). -/
def setT0 (s : State) : State := { s with fw := { s.fw with t0 := max (now s) (s.fw.restartAt + 350000000) } }

/-- Every on-package rail turns off: nodes, DRAM and SRAM go; the AON islands keep theirs (R421, R456). LATCHED rails stay LATCHED
until a part reset (R385). -/
def railsOff (s : State) : State :=
  { partReset s with
    rails := s.rails.filter (fun q => decide (q.2 = .latched))
    clock := { s.clock with running := false, stepOut := false }
    thermal := s.thermal
    power := { s.power with volts := [] }
    sec := s.sec
    fw := { s.fw with stage := 0, railGroups := 0 }
    mgmt := s.mgmt }

end Sys2Proof.Machine
end

