-- ==== Sys2Proof/Machine/Thermal.lean ====
section
/-! DEFINITION. Temperatures, the coolant envelope, rates of rise, throttle and trip (R409-R422), the power cap and the governor
(R423-R425), and the margin plan (R426-R429). -/

namespace Sys2Proof.Machine

open Sys2Proof

/-! ### Dies and their limits -/

/-- The die index of R325 under which a die entry of R363 counts. -/
def dieIndex (n : Nat) : Nat := if n < 22 then n else 6 + (n - 22) / 12

/-- A die of a stack: base die or DRAM core die. -/
def inStack (n : Nat) : Bool := decide (6 ≤ n)

/-- Throttle, end of throttle, and trip temperatures in 0.125 °C (R420). -/
def throttleAt (n : Nat) : Int := if inStack n then 760 else 800
def throttleEnd (n : Nat) : Int := if inStack n then 720 else 760
def tripAt (n : Nat) : Int := if inStack n then 840 else 920

/-- Warning and action rates of a die index, 0.1 °C/ms (R414). -/
def warnRate (t : Thermal) (n : Nat) : Nat := if n < 4 then t.warnMx else if n < 6 then t.warnHb else t.warnMs
def actRate (t : Thermal) (n : Nat) : Nat := if n < 4 then t.actMx else if n < 6 then t.actHb else t.actMs

/-! ### A sample of the on-die sensors (R410, R411, R420) -/

/-- Sensor k of a sample differs by more than 20 °C from every other sensor of its die. -/
def oddReading (rs : List Int) (k : Nat) (x : Int) : Bool :=
  (rs.zipIdx).all (fun q => q.2 = k || decide (160 < (q.1 - x).natAbs))

/-- The sensors of a die after a sample: consecutive odd samples, and the invalid ones (R410). -/
def judgeSensors (rs : List Int) (d : ThmDie) : ThmDie :=
  (rs.zipIdx).foldl (fun (d : ThmDie) q =>
    let run := if oddReading rs q.2 q.1 then SMap.get 0 d.odd q.2 + 1 else 0
    let bad := decide (q.1 < -320) || decide (1200 < q.1) || decide (16 ≤ run)
    { d with odd := SMap.set 0 d.odd q.2 (min 16 run),
             invalid := if bad && !d.invalid.contains q.2 then d.invalid ++ [q.2] else d.invalid }) d

/-- TJ, PEAK and THROTTLE of die n after a sample (R410, R411, R420). -/
def sampleDie (n : Nat) (rs : List Int) (d0 : ThmDie) : ThmDie :=
  let d := judgeSensors rs d0
  match ((rs.zipIdx).filter (fun q => !d.invalid.contains q.2)).map (fun q => q.1) with
  | [] => { d with tj := throttleAt n, peak := max d.peak (throttleAt n), throttle := true }
  | x :: r =>
    let t := r.foldl max x
    { d with tj := t, peak := max d.peak t,
             throttle := if throttleAt n ≤ t then true else if t ≤ throttleEnd n then false else d.throttle }

/-- The die-index maximum: a stack's takes in its 12 DRAM core dies (R410). -/
def indexTj (s : State) (n : Nat) : Int :=
  if n < 6 then dieTj s n else ((List.range 12).map (fun k => dieTj s (dieEntry (n - 6) k))).foldl max (dieTj s n)

/-- A die index is at absolute throttle: its own die, or for a stack one of its DRAM core dies. -/
def indexThrottle (s : State) (n : Nat) : Bool :=
  let thr (k : Nat) : Bool := (SMap.get {} s.thermal.dies k).throttle
  if n < 6 then thr n else thr n || (List.range 12).any (fun k => thr (dieEntry (n - 6) k))

/-- A rise over 16 samples reaches a rate given in 0.1 °C/ms: exact, with 0.125 °C over 1.024 ms (R417). -/
def reaches (dT : Int) (rate : Nat) : Bool := decide (10240 * (rate : Int) ≤ 12500 * dT)

/-- The rate step of a die index: rate, warning, action and budget; whether the warning and the action begin (R417-R419). -/
def rateStep (t : Thermal) (n : Nat) (top : Int) (d : ThmDie) : ThmDie × Bool × Bool :=
  let full := decide (16 ≤ d.hist.length)
  let dT := if full then top - nth 0 d.hist 15 else 0
  let w := full && reaches dT (warnRate t n)
  let a := full && reaches dT (actRate t n)
  let below := if w then 0 else min 16 (d.below + 1)
  let newA := a && !d.action
  ({ d with hist := (top :: d.hist).take 16, rate := dT * 12500 / 1024, below := below,
            warn := w || (d.warn && decide (below < 16)), action := a || (d.action && decide (below < 16)),
            budget := if newA then d.budget * 70 / 100 else d.budget },
   w && !d.warn, newA)

/-- Put a die's registers. -/
def putThm (n : Nat) (d : ThmDie) (s : State) : State := { s with thermal := { s.thermal with dies := SMap.set {} s.thermal.dies n d } }

/-- The rate step of one die index in the machine: THERMAL_RISE, and the cause THERMAL_ACTION while the action is active. -/
def rateDie (n : Nat) (s : State) : State :=
  let (d, rise, _) := rateStep s.thermal n (indexTj s n) (SMap.get {} s.thermal.dies n)
  let s := putThm n d s
  let s := if rise then postDevice 0x05 n (unsigned 64 d.rate) s else s
  if d.action then recordLate (onDie s n) 0x05 n s else s

/-! ### Frequencies of the cluster islands (R422) -/

/-- The floor that a cluster island keeps: its floor in force or the highest held one (R428). -/
def keptFloor (s : State) (i : Nat) : Nat :=
  (s.power.held.filter (fun h => h.1 = i)).foldl (fun f h => max f h.2) (floorNow s i)

/-- The frequency of a cluster island: the governor's choice between floor and target and, while its die's budget is cut, the action's
limit at or above 800 MHz are free values (R419, R422; log entry 5); a throttled die runs at the floor. -/
def islandFreq (s : State) (i idx : Nat) : Nat :=
  let f := keptFloor s i
  let gov := if indexThrottle s (i / 8) then f else f + Config.freeId idx % (islandTarget i + 1 - f)
  if (SMap.get {} s.thermal.dies (i / 8)).budget < 100 then min gov (800 + Config.freeId (idx + 32) % 1201) else gov

/-- Every cluster island takes the lowest of its limits. -/
def govern (s : State) : State :=
  { s with freeIdx := s.freeIdx + 64,
           power := { s.power with freq := (List.range 32).foldl (fun m i => SMap.set 2000 m i (islandFreq s i (s.freeIdx + i))) [] } }

/-! ### Trip (R421) -/

/-- A log entry written to the record store of each hub in service, or deferred (R434). Numbers: 1 trip, 2 undervoltage, 3 overvoltage,
4 debug (the model's own). -/
def logBoth (n : Nat) (s : State) : State := recordBoth (.log n) s

/-- A hardware trip: THERM_TRIP_N, every rail off, logged. -/
def trip (s : State) : State :=
  let s := logBoth 1 s
  railsOff { s with thermal := { s.thermal with trip := true } }

/-- How long each hub has stayed 2 °C inside the record-store and the fuse window (R432, R435). -/
def steadyNow (s : State) : State :=
  let upd (k : Nat) (inside : Bool) (m : SMap (Option Nat)) : SMap (Option Nat) :=
    SMap.set none m k (if inside then (match SMap.get none m k with | some t => some t | none => some (now s)) else none)
  let one (m : SMap (Option Nat)) (h : Nat) : SMap (Option Nat) :=
    upd (2 * h + 1) (inWindow s 20 85 2 [4 + h]) (upd (2 * h) (inWindow s 0 90 2 [4 + h]) m)
  { s with thermal := { s.thermal with steady := one (one s.thermal.steady 0) 1 } }

/-- One list of readings for each of the 214 dies, each as long as the die has sensors (R409). -/
def readingsOk (rs : List (List Int)) : Bool :=
  rs.length = 214 && (rs.zipIdx).all (fun q => q.1.length = sensorCount q.2)

/-- The part has its supplies and runs: no trip or supply fault is latched. -/
def powered (s : State) : Bool := s.pins.vaux3 && s.pins.pwrGood && !s.pins.resetN && !s.thermal.trip && !s.pins.supply

/-- SENSOR_SAMPLE: maxima, rates, throttle and, where a reading reaches its die's trip temperature, the trip (R410, R417-R421). -/
def sensorSample (rs : List (List Int)) (s : State) : State :=
  if !readingsOk rs || !powered s then s
  else
    let dies := (rs.zipIdx).foldl (fun m q => SMap.set {} m q.2 (sampleDie q.2 q.1 (SMap.get {} s.thermal.dies q.2))) s.thermal.dies
    let s := { s with thermal := { s.thermal with dies := dies } }
    if (rs.zipIdx).any (fun q => q.1.any (fun x => decide (tripAt q.2 ≤ x))) then trip s
    else govern (steadyNow ((List.range 22).foldl (fun s n => rateDie n s) s))

def execSensorSample (readings : List (List Int)) (s : State) : Host.Outcome State Fault Refusal := .next (sensorSample readings s)

/-- BUDGET_RISE: one millisecond after an action has ended, 10% of the uncut budget (R419). -/
def execBudgetRise (die : Nat) (s : State) : Host.Outcome State Fault Refusal :=
  let d := SMap.get {} s.thermal.dies die
  .next (if die < 22 && !d.action && d.budget < 100 then putThm die { d with budget := min 100 (d.budget + 10) } s else s)

/-! ### The external inputs and the coolant envelope (R412, R413, R416) -/

/-- The reading of an input: 0x8000 for a fault. -/
def extValue (x : Option Int) : Int := x.getD (-32768)

/-- The coolant input is outside the envelope (R416). -/
def coolantOut (t : Thermal) (x : Option Int) : Bool :=
  match x with
  | none => true
  | some v => decide (10 * (t.inletMax : Int) < v) || decide (v < 150)

/-- EXTERNAL_SAMPLE: DIODE, THERM and the faults; the envelope changes side after two consecutive samples. -/
def externalSample (diodes therms : List (Option Int)) (s : State) : State :=
  if diodes.length ≠ 4 || therms.length ≠ 2 || !powered s then s
  else
    let t := s.thermal
    let out := coolantOut t ((therms[t.coolant]?).getD none)
    let run := if out = t.envOut then 0 else t.envRun + 1
    let env := if 2 ≤ run then out else t.envOut
    let t' := { t with diode := diodes.map extValue, therm := therms.map extValue, dfault := diodes.map (fun x => x.isNone),
                       tfault := therms.map (fun x => x.isNone), envOut := env, envRun := if 2 ≤ run then 0 else run }
    let s := { s with thermal := t' }
    if env then recordLate (fun _ => true) 0x01 (coolantDetail t') s else s

def execExternalSample (diodes therms : List (Option Int)) (s : State) : Host.Outcome State Fault Refusal :=
  .next (externalSample diodes therms s)

/-! ### THERMAL_CONFIG (R414, R415) -/

def spThermal : Spec :=
  { op := 0x70, src := .own, podRule := .mustNot, flag := false, reads := false, fields := [(65, 64), (79, 72), (223, 80)] }

/-- Every field in its range, and each action rate above its warning rate. -/
def thermalFields (e : BitVec 512) : Bool :=
  let pair (lo : Nat) : Bool := let w := ent e (lo + 7) lo; let a := ent e (lo + 15) (lo + 8); 10 ≤ w && 10 ≤ a && w < a
  ent e 65 64 ≤ 1 && 15 ≤ ent e 79 72 && ent e 79 72 ≤ 40 && pair 80 && pair 96 && pair 112
    && (List.range 2).all (fun k => 3000 ≤ ent e (143 + 16 * k) (128 + 16 * k) && ent e (143 + 16 * k) (128 + 16 * k) ≤ 4500)
    && (List.range 4).all (fun k => 1000 ≤ ent e (175 + 16 * k) (160 + 16 * k) && ent e (175 + 16 * k) (160 + 16 * k) ≤ 1100)

/-- The configuration that a command carries. -/
def thermalSet (e : BitVec 512) (t : Thermal) : Thermal :=
  { t with coolant := ent e 65 64, inletMax := ent e 79 72, warnMx := ent e 87 80, actMx := ent e 95 88, warnMs := ent e 103 96,
           actMs := ent e 111 104, warnHb := ent e 119 112, actHb := ent e 127 120,
           bval := (List.range 2).map (fun k => ent e (143 + 16 * k) (128 + 16 * k)),
           ideal := (List.range 4).map (fun k => ent e (175 + 16 * k) (160 + 16 * k)) }

/-- Some island with a planned interval or a running node has a lower floor at another cap step and inlet level (R415, R424). -/
def lowersBusy (s : State) (step level : Nat) : Bool :=
  (List.range 50).any (fun i => decide (floorAt s step level i < floorNow s i) && islandBusy s i)

def thermalConfig (sub : Submission) (tok : CmdTok) (s : State) : State :=
  let e := sub.entry
  guarded spThermal false sub tok (thermalFields e) true s (fun s =>
    if s.thermal.inletMax < ent e 79 72 && lowersBusy s (capStep s.power.capW) (inletLevel (ent e 79 72)) then
      only sub tok stNOT_PERMITTED 0 0 s
    else only sub tok stOK 0 0 { s with thermal := thermalSet e s.thermal })

/-- THERMAL_CONFIG. -/
def execThermalConfig (sub : Submission) (s : State) : Host.Outcome State Fault Refusal :=
  .next (runCmd spThermal (fun _ => true) sub s (thermalConfig sub))

/-! ### The power cap (R423-R425) -/

/-- POWER_SAMPLE: the 10 µs average joins those of the last 1 ms, and the governor moves the islands (R332, R423). -/
def powerSample (watts : Nat) (s : State) : State :=
  if !powered s then s
  else
    let l := (watts :: s.power.samples).take 100
    govern { s with power := { s.power with samples := l, powerW := min 0xFFFF (l.foldl (· + ·) 0 / l.length) } }

def execPowerSample (watts : Nat) (s : State) : Host.Outcome State Fault Refusal := .next (powerSample watts s)

def spPower : Spec := { op := 0x71, src := .own, podRule := .mustNot, flag := true, reads := false, fields := [(79, 64)] }

/-- CAP_W is a multiple of 100 from 1,500 to 4,800. -/
def capOk (w : Nat) : Bool := 1500 ≤ w && w ≤ 4800 && w % 100 = 0

def powerLimit (sub : Submission) (tok : CmdTok) (s : State) : State :=
  let w := ent sub.entry 79 64
  guarded spPower false sub tok (capOk w) true s (fun s =>
    if w < s.power.capW && lowersBusy s (capStep w) (inletLevel s.thermal.inletMax) then only sub tok stNOT_PERMITTED 0 0 s
    else only sub tok stOK 0 0 { s with power := { s.power with capW := w, forced := false } })

/-- POWER_LIMIT without FORCE (R424). -/
def execPowerLimit (sub : Submission) (s : State) : Host.Outcome State Fault Refusal :=
  .next (runCmd spPower (fun e => !entFlag e) sub s (powerLimit sub))

/-- An instance's plan used a floor above the one now in force. -/
def usedHigher (s : State) (i : Inst) : Bool := i.floors.any (fun f => decide (floorNow s f.1 < f.2))

/-- A lowered cap is forced: held floors go, the cause is recorded, and plans extend at the new floors (R425). -/
def forceCap (w : Nat) (s : State) : State :=
  let s := { s with power := { s.power with capW := w, held := [] } }
  let s := recordLate (usedHigher s) 0x04 w s
  extendPlans { s with insts := s.insts.map (fun i => { i with floors := i.floors.map (fun f => (f.1, min f.2 (floorNow s f.1))) }) }

def powerLimitForce (sub : Submission) (tok : CmdTok) (s : State) : State :=
  let w := ent sub.entry 79 64
  guarded spPower false sub tok (capOk w) true s (fun s =>
    let s1 := if w < s.power.capW then forceCap w s else { s with power := { s.power with capW := w } }
    only sub tok stOK 0 0 { s1 with power := { s1.power with forced := true } })

/-- POWER_LIMIT with FORCE (R425). -/
def execPowerLimitForce (sub : Submission) (s : State) : Host.Outcome State Fault Refusal :=
  .next (runCmd spPower entFlag sub s (powerLimitForce sub))

/-! ### The margin plan (R426-R429) -/

/-- Number of entries of a plan: 34 cap steps, 4 inlet levels, 50 table islands. -/
def planSize : Nat := 6800

/-- Island index of R328 of a table island. -/
def islandR328 (i : Nat) : Nat := if i < 32 then i else if i < 48 then i + 4 else if i = 48 then 53 else 58

/-- The hubs in service. -/
def hubsUp (s : State) : List Nat := [0, 1].filter (fun h => !hubFenced s h)

/-- A plan takes effect: voltages, held floors, version, MARGIN_REPLAN events (R428 steps 4 to 6). -/
def planEffect (ver : Nat) (plan : List (Nat × Nat)) (s : State) : State :=
  let s1 := planVolts { s with power := { s.power with floors := plan, planVer := ver, plannedAt := now s } }
  let held := (List.range 50).filterMap (fun i =>
    if floorNow s1 i < floorNow s i ∧ islandBusy s i then some (i, floorNow s i) else none)
  let s2 := { s1 with power := { s1.power with held := s1.power.held ++ held.filter (fun h => !s1.power.held.contains h) } }
  (List.range 50).foldl (fun t i =>
    if floorNow s2 i = floorNow s i then t else postDevice 0x0B (islandR328 i) (floorNow s2 i) t) s2

/-- A newer plan that the record store of every hub in service holds takes effect (R428 step 3). -/
def settlePlan (s : State) : State :=
  match hubsUp s with
  | [] => s
  | h :: r =>
    let st := r.foldl (fun (b : RecordStore) k => if (getStore s k).planVer < b.planVer then getStore s k else b) (getStore s h)
    if s.power.planVer < st.planVer then planEffect st.planVer st.plan s else s

/-- The version of the next plan: above every version known. -/
def nextPlanVer (s : State) : Nat :=
  1 + maxNat ([s.power.planVer, s.fw.storeA.planVer, s.fw.storeB.planVer] ++ s.fw.defer.map (fun d => match d.kind with
    | .marginPlan v _ => v
    | _ => 0))

/-- Powered hours of the grade's horizon: 5 or 10 years of 8,760 hours (R1; log entry 6). -/
def horizonHours : Nat := (if Config.gradeL then 10 else 5) * 8760

/-- A floor that the acorn may plan: an entry of the plan, at most the island's target (R386, R426), and, at 4.8 kW within the grade's
horizon, at least the floor published for it (R13). -/
def floorOk (s : State) (f : Nat × Nat) : Bool :=
  let i := f.1 % 50
  f.1 < planSize && f.2 ≤ islandTarget i
    && (f.1 / 200 ≠ capStep 4800 || horizonHours < s.power.hours + 168 || horizonAt (f.1 / 50 % 4) i ≤ f.2)

/-- MARGIN_REPLAN: the acorn's measured slack is nature's part; the new floors are written to the record stores, and the plan takes
effect once they hold it (R428). -/
def marginReplan (floors : List (Nat × Nat)) (s : State) : State :=
  if s.fw.stage ≠ 8 || !floors.all (floorOk s) then s
  else
    let plan := floors.foldl (fun m f => SMap.set (islandTarget (f.1 % 50)) m f.1 f.2) s.power.floors
    let s1 := { s with power := { s.power with hours := s.power.hours + 168 } }
    settlePlan (recordBoth (.marginPlan (nextPlanVer s) plan) s1)

def execMarginReplan (floors : List (Nat × Nat)) (s : State) : Host.Outcome State Fault Refusal := .next (marginReplan floors s)

end Sys2Proof.Machine
end

