-- ==== Sys2Proof/Machine/Reports.lean ====
section
/-! DEFINITION. The 4 KiB records: IDENTIFY (R327, R328), SUMMARY (R329-R332), HEALTH_READ (R363) and MARGIN_PLAN_READ (R429); the output
pins ALERT_N and GPIO (R466, R467). -/

namespace Sys2Proof.Machine

open Sys2Proof

/-- A record from its fields: (lowest bit, value). -/
def recordOf (fields : List (Nat × Nat)) : List Byte := leBytes 4096 ((fields.map (fun f => at_ f.1 f.2)).foldl (· + ·) 0)

/-- A field repeated with a stride. -/
def fieldRow (lo stride n : Nat) (v : Nat → Nat) : List (Nat × Nat) := (List.range n).map (fun i => (lo + stride * i, v i))

/-- The read command with opcode op and the From class of R319. -/
def spReport (op : Nat) (src : From) : Spec := { op := op, src := src, podRule := .mustNot, flag := false, reads := true, fields := [(127, 64)] }

/-- A report: DEST is a multiple of 64; 4,096 bytes are written (R320). -/
def report (op : Nat) (src : From) (body : State → List Byte) (sub : Submission) (tok : CmdTok) (s : State) : State :=
  let dest := ent sub.entry 127 64
  guarded (spReport op src) false sub tok (dest % 64 = 0) true s (fun s => only sub tok stOK 4096 0 (emitResult sub dest (body s) s))

/-! ### Firmware in force -/

/-- A bank of the flash. -/
def bankOf (s : State) (b : Nat) : Bank := if b = 0 then s.fw.bankA else s.fw.bankB

/-- FW_VER of the running firmware. -/
def fwVerNow (s : State) : Nat := (bankOf s s.fw.bank).fwVer

/-! ### IDENTIFY -/

/-- The table island of an island of R328, if it has one. -/
def tableIsland (i : Nat) : Option Nat :=
  if i < 32 then some i
  else if 36 ≤ i ∧ i < 52 then some (i - 4)
  else if i = 53 then some 48
  else if i = 58 then some 49
  else none

/-- The fixed frequency of an island that no plan changes (R386, R426). -/
def fixedMhz (i : Nat) : Nat :=
  if i < 36 then 2400
  else match (i - 52) % 5 with
    | 0 => 2000
    | 2 => 2400
    | 3 => 1600
    | _ => 100

/-- FLOOR of an island of R328. -/
def floorR328 (s : State) (i : Nat) : Nat :=
  match tableIsland i with
  | some k => floorNow s k
  | none => fixedMhz i

/-- HZN_FLOOR of an island of R328. -/
def horizonR328 (s : State) (i : Nat) : Nat :=
  match tableIsland i with
  | some k => horizonAt (inletLevel s.thermal.inletMax) k
  | none => fixedMhz i

/-- The identity record (R327). -/
def identityRecord (s : State) : List Byte :=
  recordOf ([(0, 1), (16, b2n Config.gradeL), (32, fwVerNow s), (64, Config.serial.toNat), (128, s.power.planVer),
    (192, addrSlice 31 + stabOffset), (256, addrSlice 63 + stabOffset),
    (320, 2 ^ 36 * countIf (fun st => !stackFenced s st) (List.range 16)), (384, 2 ^ 27 * countIf (fun k => !sliceFenced s k) (List.range 64)),
    (448, routeBound s .sg), (464, routeBound s .ss), (480, routeBound s .sm), (496, routeBound s .mm), (512, routeBound s .hub)]
    ++ fieldRow 576 4 32 (clusterW s) ++ fieldRow 704 5 64 (groupW s) ++ fieldRow 1024 16 62 (floorR328 s) ++ fieldRow 2016 16 62 (horizonR328 s))

/-- IDENTIFY. -/
def execIdentify (sub : Submission) (s : State) : Host.Outcome State Fault Refusal :=
  .next (runCmd (spReport 0x01 .any) (fun _ => true) sub s (report 0x01 .any identityRecord sub))

/-! ### SUMMARY -/

/-- SCOPE (R329). -/
def scopeOf (s : State) (fn : Nat) : Nat := if !isPF fn then 1 else if s.owner = some fn then 0 else 2

/-- State code of a pod (R331). -/
def podCode (st : PodState) : Nat :=
  match st with
  | .free => 0
  | .created => 1
  | .bound => 2
  | .destroying => 3
  | .fenced => 4

/-- Streams of a pod in a state. -/
def streamsIn (s : State) (p : Nat) (st : StrState) : Nat := countIf (fun (q : Nat × Stream) => q.2.pod = p && q.2.state = st) s.streams

/-- Pod p's record as fields from bit b (R331). -/
def podFields (s : State) (p b : Nat) : List (Nat × Nat) :=
  let v := getPod s p
  let marked := v.marked.map (fun m => m.1)
  [(b, podCode v.state), (b + 3, v.hub), (b + 4, b2n v.walk), (b + 5, b2n v.walkPend.isSome), (b + 6, b2n v.vf.isSome), (b + 8, v.vf.getD 0),
   (b + 12, v.share), (b + 20, if v.state = .free then 0 else podPeriod s p / 1000), (b + 40, v.quota), (b + 51, jobCount s p),
   (b + 64, maskOf v.cores), (b + 160, maskOf v.slices), (b + 224, maskOf marked), (b + 320, v.boundary.getD 0),
   (b + 352, countIf (fun i => i.step.isNone) (podInsts s p)), (b + 363, countIf (fun i => i.step.isSome) (podInsts s p)),
   (b + 384, streamsIn s p .open_), (b + 401, streamsIn s p .resident), (b + 418, streamsIn s p .parked), (b + 435, streamsIn s p .closing),
   (b + 464, v.jhead)]

/-- The pod records that a scope shows. -/
def podRecords (s : State) (fn : Nat) : List (Nat × Nat) :=
  (List.range 16).flatMap (fun p =>
    let b := 512 + 512 * p
    match scopeOf s fn with
    | 0 => podFields s p b
    | 1 => if boundPod s fn = some p then podFields s p b else []
    | _ => [(b, podCode (getPod s p).state), (b + 40, (getPod s p).quota), (b + 51, jobCount s p)])

/-- A mask of n bits from a test. -/
def maskIf (n : Nat) (f : Nat → Bool) : Nat := maskOf ((List.range n).filter f)

/-- The fence masks of R332: lowest bit, number of bits, and the test of a bit. -/
def fenceMasks (s : State) : List (Nat × Nat × (Nat → Bool)) :=
  [(8704, 256, tileFenced s), (8960, 32, clusterFenced s), (8992, 4, mxFenced s), (8996, 2, hubFenced s), (9024, 1024, engineFenced s),
   (10048, 64, groupFenced s), (10112, 16, stackFenced s), (10176, 64, sliceFenced s), (10240, 64, windowFenced s), (10304, 4, portFenced s),
   (10308, 16, fun p => decide ((getPod s p).state = .fenced)), (10368, 46, fun i => listed s (.rail i))]

/-- The masks as fields; in scope 1 POD_FENCE shows the pod's own bit (R329). -/
def fenceFields (s : State) (fn : Nat) : List (Nat × Nat) :=
  (fenceMasks s).map (fun m => (m.1, maskIf m.2.1 (fun i => m.2.2 i && (m.1 ≠ 10308 || scopeOf s fn ≠ 1 || boundPod s fn = some i))))

/-- SPARE of a stack. -/
def spareField (s : State) (st : Nat) : Nat :=
  match (getDie s st).state with
  | 0 => 0
  | 1 => 1
  | 2 => 1
  | 3 => 2
  | 4 => 2
  | _ => 6

/-- A temperature of 0.125 °C in whole °C, rounded down, in 8 bits. -/
def wholeC (t : Int) : Nat := unsigned 8 (max (-128) (min 127 (t / 8)))

/-- PKG_TJ in 0.125 °C. -/
def packageTj (s : State) : Int := maxInt 0 ((List.range 22).map (indexTj s))

/-- The model's own number of a deferred record, which `Config.recordField` turns into the field of DEFER. -/
def recordNumber (k : DeferKind) : Nat :=
  match k with
  | .marginPlan _ _ => 0
  | .preferredBank _ => 1
  | .failedBank b => 2 + b
  | .rollback _ => 4
  | .lifecycleWord w => 5 + w
  | .sparing st => 16 + st
  | .log n => 64 + n

/-- A deferred write as DEFER lists it. -/
def deferEntry (d : Deferred) : Nat :=
  let fuse := match d.kind with
    | .rollback _ => true
    | .lifecycleWord _ => true
    | _ => false
  (if fuse then 2 else 1) + at_ 4 (4 + d.hub) + at_ 16 (Config.recordField (recordNumber d.kind)).toNat + at_ 64 d.queuedAt

/-- The summary record for a function (R330-R332). -/
def summaryRecord (fn : Nat) (s : State) : List Byte :=
  let c := s.clock
  recordOf ([(0, 1), (16, leadHub s), (17, lifecycle s), (20, s.fw.bank), (21, b2n s.fw.fallback), (22, scopeOf s fn), (32, fwVerNow s),
    (64, s.power.planVer), (128, now s), (256, c.active), (258, refQual c), (261, b2n (c.ref0.state = .stuck)), (262, b2n c.switching),
    (264, unsigned 32 c.pull)]
    ++ podRecords s fn ++ fenceFields s fn ++ fieldRow 10432 2 37 (linkState s) ++ fieldRow 10512 4 16 (spareField s)
    ++ [(11264, s.power.capW), (11280, b2n s.power.forced), (11296, s.power.powerW)]
    ++ fieldRow 11328 8 22 (fun i => wholeC (indexTj s i))
    ++ [(11520, wholeC (packageTj s))] ++ fieldRow 11528 16 2 (fun k => unsigned 16 (nth 0 s.thermal.therm k))
    ++ [(11560, maskIf 22 (fun n => (SMap.get {} s.thermal.dies n).action)), (11582, maskIf 22 (indexThrottle s)),
        (12288, min 255 s.fw.defer.length), (12296, s.fw.deferDropped)]
    ++ ((s.fw.defer.take 16).zipIdx).map (fun q => (12352 + 128 * q.2, deferEntry q.1)))

/-- SUMMARY. -/
def execSummary (sub : Submission) (s : State) : Host.Outcome State Fault Refusal :=
  .next (runCmd (spReport 0x02 .any) (fun _ => true) sub s (report 0x02 .any (summaryRecord sub.mbx.fn) sub))

/-! ### HEALTH_READ -/

/-- The health record (R363). -/
def healthRecord (s : State) : List Byte :=
  recordOf ([(0, 1), (16, 214), (64, now s), (128, eccCfgValue s.eccWritten)] ++ fieldRow 2048 128 214 (eccEntry s))

/-- HEALTH_READ. -/
def execHealthRead (sub : Submission) (s : State) : Host.Outcome State Fault Refusal :=
  .next (runCmd (spReport 0x60 .mgmt) (fun _ => true) sub s (report 0x60 .mgmt healthRecord sub))

/-! ### MARGIN_PLAN_READ -/

/-- Inlet temperature of a level, °C. -/
def inletC (level : Nat) : Nat := 25 + 5 * level

/-- The margin-plan record (R429). Powered hours since the last re-plan are a free value below 169 (log entry 5). -/
def planRecord (s : State) : List Byte :=
  let level := inletLevel s.thermal.inletMax
  recordOf ([(0, 1), (16, b2n Config.gradeL), (32, s.power.planVer), (64, s.power.hours + Config.freeId s.freeIdx % 169), (96, s.power.hours + 168),
    (128, inletC level), (192, s.power.plannedAt), (256, maskOf (dedup (s.power.held.map (fun h => h.1))))]
    ++ fieldRow 2048 16 1700 (fun k => floorAt s (k / 50) level (k % 50)) ++ fieldRow 29696 16 50 (fun i => horizonAt level i))

/-- MARGIN_PLAN_READ. -/
def execMarginPlanRead (sub : Submission) (s : State) : Host.Outcome State Fault Refusal :=
  .next (runCmd (spReport 0x61 .mgmt) (fun _ => true) sub s (fun tok s =>
    let t := report 0x61 .mgmt planRecord sub tok s
    { t with freeIdx := t.freeIdx + 1 }))

/-! ### Output pins -/

/-- Every mailbox READY. -/
def allReady (s : State) : Bool := ready s 0 && ready s 1

/-- ALERT_N asserted (R466). -/
def alertN (s : State) : Bool :=
  s.thermal.dies.any (fun d => d.2.warn || d.2.action || d.2.throttle) || s.thermal.envOut || s.rails.any (fun r => r.2 = .latched)
    || s.thermal.dfault.any (fun x => x) || s.thermal.tfault.any (fun x => x) || s.thermal.trip || s.pins.supply

/-- THERM_TRIP_N asserted (R421). -/
def thermTripN (s : State) : Bool := s.thermal.trip

/-- GPIO pins the firmware drives high (R467): all low until it runs. -/
def gpio (s : State) (k : Nat) : Bool :=
  5 ≤ s.fw.stage && (match k with
    | 0 => allReady s
    | 1 => leadHub s = 1
    | 2 => lifecycle s = 2
    | 3 => (fenceMasks s).any (fun m => (List.range m.2.1).any m.2.2)
    | 4 => s.fw.fallback
    | _ => false)

end Sys2Proof.Machine
end

