-- ==== Sys2Proof/Machine/Security.lean ====
section
/-! DEFINITION. Lifecycle commands and their fuse words (R436-R439), the erase sequence and DEBUG_UNLOCK (R449-R451), the DRBG (R444) and
the replay of deferred writes (R435). -/

namespace Sys2Proof.Machine

open Sys2Proof

/-! ### LIFECYCLE (R438, R439) -/

def spLifecycle : Spec := { op := 0x92, src := .own, podRule := .mustNot, flag := false, reads := true, fields := [(65, 64), (191, 128)] }

/-- MODE of a LIFECYCLE command. -/
def lcMode (e : BitVec 512) : Nat := ent e 65 64

/-- Both hubs lie inside the fuse window (R432). -/
def fuseWindow (s : State) : Bool := inWindow s 20 85 0 [4, 5]

/-- The current owner key slot: the highest blown (R439). -/
def ownerSlot (s : State) : Nat := s.sec.owners.length - 1

/-- The anti-rollback counter in force (R443). -/
def rollback (s : State) : Nat := max s.sec.rollA s.sec.rollB

def lifecycleRead (sub : Submission) (tok : CmdTok) (s : State) : State :=
  guarded spLifecycle false sub tok (ent sub.entry 191 128 = 0) true s (fun s =>
    only sub tok stOK (lifecycle s + at_ 8 s.sec.dbgCount + at_ 16 (ownerSlot s)) (rollback s) s)

/-- LIFECYCLE READ. -/
def execLifecycleRead (sub : Submission) (s : State) : Host.Outcome State Fault Refusal :=
  .next (runCmd spLifecycle (fun e => lcMode e = 0) sub s (lifecycleRead sub))

/-- Why a mode other than READ is turned away: the state (R438), a commit whose words are not yet programmed, the mode's own rule, the
window (R439). -/
def lifecycleDeny (s : State) (ok : Bool) : Option Status :=
  if lifecycle s = 3 then some stLOCKED
  else if lifecycle s = 2 || !s.sec.words.isEmpty || !ok then some stNOT_PERMITTED
  else if !fuseWindow s then some stTEMP_WINDOW
  else none

/-- A mode that commits fuse words: they are committed before OK is posted (R439). -/
def commitMode (sub : Submission) (tok : CmdTok) (ok : Bool) (word : Nat × BitVec 384) (after : State → State) (s : State) : State :=
  guarded spLifecycle false sub tok true true s (fun s =>
    match lifecycleDeny s ok with
    | some st => only sub tok st 0 0 s
    | none => after (only sub tok stOK 0 0 { s with sec := { s.sec with words := [word] } }))

/-- SET_OWNER: only in MANUFACTURE. -/
def setOwner (sub : Submission) (hash : BitVec 384) (tok : CmdTok) (s : State) : State :=
  commitMode sub tok (lifecycle s = 0) (0, hash) (fun s => s) s

def execSetOwner (sub : Submission) (hash : BitVec 384) (s : State) : Host.Outcome State Fault Refusal :=
  .next (runCmd spLifecycle (fun e => lcMode e = 1) sub s (setOwner sub hash))

/-- ROTATE_OWNER: with a kind 5 token for the current slot, from slots 0 to 2. -/
def rotateOwner (sub : Submission) (token : BitVec 4096) (tok : CmdTok) (s : State) : State :=
  commitMode sub tok (tokenOk s 5 (ownerSlot s) token && ownerSlot s < 3) (0, tokenNewKey token) (fun s => s) s

def execRotateOwner (sub : Submission) (token : BitVec 4096) (s : State) : Host.Outcome State Fault Refusal :=
  .next (runCmd spLifecycle (fun e => lcMode e = 2) sub s (rotateOwner sub token))

/-! ### The erase sequence (R451 steps 1 to 4) -/

/-- Step 1: every pod is fenced with reason REQUEST. -/
def fencePods (s : State) : State := (List.range 16).foldl (fun s p => fenceUnit (.pod p) 0x01 s) s

/-- Step 2: the husk and every K_pod and IDE key go to zero; the UDS stays read-locked. -/
def zeroHusk (s : State) : State :=
  { s with
    sec := { s.sec with husk := false, cdi0 := 0, cdi1 := 0, sessions := [] }
    pods := s.pods.map (fun q => (q.1, { q.2 with key := none }))
    ports := s.ports.map (fun q => (q.1, { q.2 with ide := [] })) }

/-- Commands still to complete end FENCED. -/
def endCommands (s : State) : State := s.cmds.foldl (fun s c => postFinal c.tok stFENCED 0 0 s) { s with cmds := [] }

/-- Partner commands still to complete end FENCED with the partner table. -/
def endPartners (s : State) : State :=
  let toks := s.partners.filterMap (fun q => q.2.tok)
  toks.foldl (fun s t => postFinal t stFENCED 0 0 s) { s with partners := [] }

/-- Step 3: every byte of DRAM and SRAM reads 0, and the control complexes begin anew: every pod, stream, region, window and graph is FREE
or absent. READY stays (R334). -/
def reinit (s : State) : State :=
  let s := endPartners (endCommands s)
  { s with
    mem := [], zeroed := [(0, 2 ^ 49)], poison := [], dramErr := [], sramErr := []
    tileRuns := [], engines := [], flights := [], portq := [], pods := [], graphs := [], nextGraph := 1, insts := [], regions := [], mirrors := []
    streams := [], closeSeq := 0, sprout := [], pwu := s.pwu.map (fun q => (q.1, { q.2 with lab := [] })), windows := [], offer := none
    fences := s.fences.filter (fun f => match f.1 with
      | .pod _ => false
      | .window _ => false
      | _ => true) }

/-- Steps 1 to 4. -/
def eraseAll (s : State) : State := logBoth 4 (reinit (zeroHusk (fencePods s)))

/-- RETIRE: with a kind 4 token; from its commit every other command fails with LOCKED, the erase sequence runs, and the retire fuse
word is left to be blown (R437, R439). -/
def retire (sub : Submission) (token : BitVec 4096) (tok : CmdTok) (s : State) : State :=
  commitMode sub tok (tokenOk s 4 0 token) (1, 0) (fun s => eraseAll { s with sec := { s.sec with retiring := true } }) s

def execRetire (sub : Submission) (token : BitVec 4096) (s : State) : Host.Outcome State Fault Refusal :=
  .next (runCmd spLifecycle (fun e => lcMode e = 3) sub s (retire sub token))

/-! ### DEBUG_UNLOCK (R449-R451) -/

def spDebug : Spec := { op := 0x91, src := .own, podRule := .mustNot, flag := false, reads := true, fields := [(127, 64)] }

/-- The sequence has done step `n`. -/
def unlockAt (u : Unlock) (n : Nat) (s : State) : State := { s with sec := { s.sec with unlock := some { u with phase := n } } }

/-- The sequence is over: its FINAL completion carries `st`. -/
def unlockEnd (u : Unlock) (st : Status) (s : State) : State := postFinal u.tok st 0 0 { s with sec := { s.sec with unlock := none } }

/-- The lead hub on which the sequence began is OUT (R450). -/
def unlockOrphan (u : Unlock) (s : State) : Bool := (getHub s u.lead).lead = .out

/-- Step 0: a token that did not verify ends the sequence, and so does a hub outside the fuse window; else one more bit of DBG_COUNT. A
surviving acorn goes on without it. -/
def unlockBlow (u : Unlock) (s : State) : State :=
  if !u.good then unlockEnd u stNOT_PERMITTED s
  else if unlockOrphan u s then unlockAt u 1 s
  else if !fuseWindow s then unlockEnd u stTEMP_WINDOW s
  else unlockAt u 1 { s with sec := { s.sec with dbgCount := min 255 (s.sec.dbgCount + 1) } }

/-- The next step of the sequence, in the order of R451. Once steps 1 to 3 are done, a surviving acorn ends it with FENCED and debug
stays closed (R450); else the event is written and, when no copy of it waits any more, the latch is set. -/
def unlockStep (u : Unlock) (s : State) : State :=
  match u.phase with
  | 0 => unlockBlow u s
  | 1 => unlockAt u 2 (fencePods s)
  | 2 => unlockAt u 3 (zeroHusk s)
  | 3 => unlockAt u 4 (reinit s)
  | 4 => if unlockOrphan u s then unlockEnd u stFENCED s else unlockAt u 5 (logBoth 4 s)
  | _ =>
    if unlockOrphan u s then unlockEnd u stFENCED s
    else if s.fw.defer.any (fun d => d.kind = .log 4) then s
    else unlockEnd u stOK { s with sec := { s.sec with debugOpen := true } }

/-- The command begins the sequence with its FIRST completion; its token is read now (R440). -/
def debugUnlock (sub : Submission) (token : BitVec 4096) (tok : CmdTok) (s : State) : State :=
  guarded spDebug false sub tok true true s (fun s =>
    if lifecycle s ≠ 1 then only sub tok stNOT_PERMITTED 0 0 s
    else if !fuseWindow s then only sub tok stTEMP_WINDOW 0 0 s
    else
      unlockAt { sub := sub, tok := tok, lead := leadHub s, good := tokenOk s 3 s.sec.dbgCount token, phase := 0 } 0 (postFirst tok 0 s))

/-- The sequence that runs, where a submission is the one that began it and not another one that still waits for its decision. -/
def unlockOf (sub : Submission) (s : State) : Option Unlock :=
  s.sec.unlock.filter (fun u => u.sub = sub && !s.acked.any (fun a => a.1 = sub))

/-- DEBUG_UNLOCK: while the sequence of this command runs, its next step (DESIGN CHOICE, log entry 44: the row stands for the steps of
the sequence too); any other one, the command itself. -/
def execDebugUnlock (sub : Submission) (token : BitVec 4096) (s : State) : Host.Outcome State Fault Refusal :=
  .next (match unlockOf sub s with
    | some u => unlockStep u s
    | none => runCmd spDebug (fun _ => true) sub s (debugUnlock sub token))

/-! ### Fuse words (R439) -/

/-- A committed word is programmed: an owner key slot, or the retire fuse. -/
def programWord (w : Nat × BitVec 384) (s : State) : State :=
  let v := { s.sec with words := s.sec.words.filter (fun x => x ≠ w) }
  if w.1 = 0 then { s with sec := { v with owners := v.owners ++ [w.2] } }
  else { s with sec := { v with retireFuse := true, retiring := false } }

/-- A fuse word waits in the deferred queue. -/
def wordQueued (s : State) (k : Nat) : Bool := s.fw.defer.any (fun d => d.kind = .lifecycleWord k)

/-- LIFECYCLE_FUSE_WORD: the next committed word is programmed, or deferred once for each hub in service where a hub lies outside its
window (R434, R439). -/
def lifecycleFuseWord (s : State) : State :=
  match s.sec.words.find? (fun w => !wordQueued s w.1) with
  | none => s
  | some w =>
    if fuseWindow s then programWord w s
    else (hubsUp s).foldl (fun s h => deferWrite { hub := h, kind := .lifecycleWord w.1, queuedAt := now s } s) s

def execLifecycleFuseWord (s : State) : Host.Outcome State Fault Refusal := .next (lifecycleFuseWord s)

/-! ### The DRBG and the deferred queue -/

/-- DRBG_RESEED: after 2^20 requests (R444). -/
def execDrbgReseed (s : State) : Host.Outcome State Fault Refusal :=
  .next (if 2 ^ 20 ≤ s.sec.drbgReq then { s with sec := { s.sec with drbgReq := 0 } } else s)

/-- A window of thermal.steady has held for 1 s. -/
def steadyFor (s : State) (k : Nat) : Bool :=
  match SMap.get none s.thermal.steady k with
  | some t => decide (t + 1000000000 ≤ now s)
  | none => false

/-- A deferred write may be replayed: its hub is in service and every die it involves has stayed 2 °C inside its window for 1 s. -/
def replayable (s : State) (d : Deferred) : Bool :=
  !hubFenced s d.hub && (match d.kind with
    | .rollback _ => steadyFor s 1 && steadyFor s 3
    | .lifecycleWord _ => steadyFor s 1 && steadyFor s 3
    | _ => steadyFor s (2 * d.hub))

/-- A fuse word whose last deferred copy has been written takes effect. -/
def settleWord (d : Deferred) (s : State) : State :=
  match d.kind with
  | .lifecycleWord k =>
    if wordQueued s k then s
    else match s.sec.words.find? (fun w => w.1 = k) with
      | some w => programWord w s
      | none => s
  | _ => s

/-- DEFERRED_REPLAY: the oldest replayable write is carried out (R435); a margin plan that both stores hold takes effect (R428). -/
def deferredReplay (s : State) : State :=
  match s.fw.defer.find? (replayable s) with
  | none => settlePlan s
  | some d =>
    let s := { s with fw := { s.fw with defer := s.fw.defer.erase d } }
    settlePlan (settleWord d (applyWrite d.hub d.kind d.queuedAt s))

def execDeferredReplay (s : State) : Host.Outcome State Fault Refusal := .next (deferredReplay s)

end Sys2Proof.Machine
end

