-- ==== Sys2Proof/Machine/Boot.lean ====
section
/-! DEFINITION. Supplies, power-good and reset (R456, R465, R468), and the boot (R333-R335, R381, R443, R444). -/

namespace Sys2Proof.Machine

open Sys2Proof

/-! ### Supplies (R456) -/

/-- AON memory is lost: device time, the deferred writes, commits not yet programmed, and what the acorns ran (R435, R456). -/
def aonLost (s : State) : State :=
  { s with
    leakAt := 0
    clock := { s.clock with timeA := 0, timeB := 0 }
    sec := { fuseState s.sec with words := [], retiring := false }
    fw := { storedState s.fw with defer := [], t0 := 0, restartAt := 0 } }

/-- VAUX3_RISE: the acorns restart from mask ROM, device time starts at 0, ADDR_SEL is sampled; a part reset (R456, R460, R468). -/
def vaux3Rise (addrSel : Nat) (s : State) : State :=
  if s.pins.vaux3 then s
  else
    let s := aonLost (partReset s)
    setT0 (restartAcorns { s with pins := { s.pins with vaux3 := true }, mgmt := { addrSel := addrSel % 8 } })

def execVaux3Rise (addrSel : Nat) (s : State) : Host.Outcome State Fault Refusal := .next (vaux3Rise addrSel s)

/-- VAUX3_LOSS: every rail off, the acorns stop, AON memory is lost. -/
def execVaux3Loss (s : State) : Host.Outcome State Fault Refusal :=
  .next (if s.pins.vaux3 then
    let t := aonLost (railsOff s)
    { t with pins := { t.pins with vaux3 := false }, mgmt := { addrSel := t.mgmt.addrSel } }
  else s)

/-- VIN48 leaves its limits: every rail off, the entry logged, the state latched until PWR_GOOD falls. -/
def supplyFault (entry : Nat) (s : State) : State :=
  if s.pins.pwrGood && s.pins.vaux3 && !s.pins.supply then
    let t := railsOff (logBoth entry s)
    { t with pins := { t.pins with supply := true } }
  else s

/-- VIN48_UNDERVOLTAGE. -/
def execVin48Undervoltage (s : State) : Host.Outcome State Fault Refusal := .next (supplyFault 2 s)

/-- VIN48_OVERVOLTAGE. -/
def execVin48Overvoltage (s : State) : Host.Outcome State Fault Refusal := .next (supplyFault 3 s)

/-! ### PWR_GOOD and RESET_N (R465, R468) -/

/-- PWR_GOOD_RISE: LEAD_SEL is sampled; with RESET_N not asserted a part reset starts, and t0 is set. -/
def pwrGoodRise (lead : Bool) (s : State) : State :=
  if s.pins.pwrGood then s
  else
    let s := { s with pins := { s.pins with pwrGood := true, leadSel := lead } }
    if s.pins.resetN then s else setT0 (partReset s)

def execPwrGoodRise (leadSel : Bool) (s : State) : Host.Outcome State Fault Refusal := .next (pwrGoodRise leadSel s)

/-- PWR_GOOD_FALL: every rail off; a latched trip or supply fault clears (R421, R456). -/
def pwrGoodFall (s : State) : State :=
  if s.pins.pwrGood then
    let t := railsOff s
    { t with pins := { t.pins with pwrGood := false, supply := false }, thermal := { t.thermal with trip := false } }
  else s

def execPwrGoodFall (s : State) : Host.Outcome State Fault Refusal := .next (pwrGoodFall s)

/-- RESET_N_ASSERT: rails off, the acorns restart, a part reset. -/
def execResetNAssert (s : State) : Host.Outcome State Fault Refusal :=
  .next (if s.pins.resetN then s
  else restartAcorns (partReset { s with pins := { s.pins with resetN := true } }))

/-- RESET_N_DEASSERT: LEAD_SEL is sampled and t0 set. -/
def execResetNDeassert (leadSel : Bool) (s : State) : Host.Outcome State Fault Refusal :=
  .next (if s.pins.resetN then setT0 { s with pins := { s.pins with resetN := false, leadSel := leadSel } } else s)

/-! ### Firmware banks (R335, R442) -/

/-- A record store marks a bank failed. -/
def bankFailed (s : State) (b : Nat) : Bool := s.fw.storeA.failed.contains b || s.fw.storeB.failed.contains b

/-- A bank is valid: its signature passes, its SVN is not below the anti-rollback counter, and no store marks it failed. -/
def bankValid (s : State) (b : Nat) : Bool :=
  (bankOf s b).good && decide (rollback s ≤ (bankOf s b).svn) && !bankFailed s b

/-- The preferred bank in force: a record takes effect once both copies are written, so the copy that still waits is the one in force
(R336, R434). -/
def preferredBank (s : State) : Nat :=
  let waits (h : Nat) : Bool := s.fw.defer.any (fun d => d.hub = h && (match d.kind with
    | .preferredBank _ => true
    | _ => false))
  ((if waits 1 then s.fw.storeB else s.fw.storeA).preferred).getD 0

/-- The bank that the acorn boots, if one is valid. -/
def chooseBank (s : State) : Option Nat :=
  match bankValid s 0, bankValid s 1 with
  | false, false => none
  | true, false => some 0
  | false, true => some 1
  | true, true =>
    if (bankOf s 1).fwVer < (bankOf s 0).fwVer then some 0
    else if (bankOf s 0).fwVer < (bankOf s 1).fwVer then some 1
    else some (preferredBank s)

/-! ### The stages (R333) -/

def setStage (n : Nat) (s : State) : State := { s with fw := { s.fw with stage := n } }

/-- Stage 1: t0 has come; the acorns have chosen and verified a bank. -/
def bootBank (s : State) : State :=
  setStage 1 { s with fw := { s.fw with bank := (chooseBank s).getD 0 } }

/-- The rails of a group of the power-up sequence, in order: hubs, matrix dies, stacks (R332, R333). -/
def railGroup (g : Nat) : List Nat :=
  match g with
  | 0 => (List.range 6).map (fun j => 40 + j)
  | 1 => List.range 8
  | _ => (List.range 32).map (fun j => 8 + j)

/-- Rails that are OFF begin their soft start; each ends it with a command of its own (R385). -/
def softStartAll (l : List Nat) (s : State) : State :=
  l.foldl (fun s i => if getRail s i = .off then setRail i .softStart s else s) s

/-- No rail is in soft start. -/
def railsSettled (s : State) : Bool := (List.range 46).all (fun i => getRail s i ≠ .softStart)

/-- The hub named by LEAD_SEL sets the authority latch, unless it is out: then the other hub is lead already (R381, R382). -/
def setLatch (s : State) : State :=
  let h := b2n s.pins.leadSel
  if (getHub s h).lead = .out then s
  else modHub (1 - h) (fun b => if b.lead = .out then b else { b with lead := .follower }) (modHub h (fun b => { b with lead := .lead }) s)

/-- Stage 2, a group of rails at a time: the next group begins its soft start once no rail is in soft start any more; with the hub rails
settled the authority latch is set. The stage is reached when the stack rails have begun. -/
def bootRails (s : State) : State :=
  let g := s.fw.railGroups
  if !railsSettled s then s
  else
    let s := softStartAll (railGroup g) (if g = 1 then setLatch s else s)
    { s with fw := { s.fw with railGroups := g + 1, stage := if 2 ≤ g then 2 else 1 } }

/-- Stage 3: the fabric has trained; the power-good of each hub in service is up and heartbeats begin (R381). -/
def bootFabric (s : State) : State :=
  let up (b : Hub) : Hub := if b.lead = .out then b else { b with pg := true, flitAt := now s, wireAt := now s }
  setStage 3 { s with hubA := up s.hubA, hubB := up s.hubB }

/-- The layer measurement of CDI_0: mask ROM, lifecycle state, DBG_COUNT and current owner slot (R444). -/
def layer0 (s : State) : List Byte :=
  leBytes 48 Config.romHash.toNat ++ leBytes 1 (lifecycle s) ++ leBytes 1 s.sec.dbgCount ++ leBytes 48 ((s.sec.owners.getLast?).getD 0).toNat

/-- The layer measurement of CDI_1: the running image and its SVN. -/
def layer1 (s : State) : List Byte := leBytes 48 (bankOf s s.fw.bank).hash.toNat ++ leBytes 1 (bankOf s s.fw.bank).svn

/-- The husk forms its secrets; the UDS is read-locked (R444). -/
def formHusk (s : State) : State :=
  let c0 := Config.hmac384 Config.uds (Config.sha384 (layer0 s))
  { s with sec := { s.sec with husk := true, udsLocked := true, cdi0 := c0, cdi1 := Config.hmac384 c0 (Config.sha384 (layer1 s)) } }

/-- The die map that a record store names for a stack, into the sparing state; an interrupted rebuild begins again (R368). -/
def readDie (m : Nat × List Nat × Nat × Nat × List Nat) (s : State) : State :=
  setDie m.1 { getDie s m.1 with slot := m.2.1, erase := m.2.2.1, state := m.2.2.2.1, retired := m.2.2.2.2, pos := 0 } s

/-- The record store that the boot reads: the one whose margin plan is older, since a plan takes effect once both hold it. -/
def bootStore (s : State) : RecordStore := if s.fw.storeB.planVer < s.fw.storeA.planVer then s.fw.storeB else s.fw.storeA

/-- Stage 5: the firmware runs, the record store is read, the margin plan applied. -/
def bootFirmware (s : State) : State :=
  let r := bootStore s
  let s := r.dieMaps.foldl (fun s m => readDie m s) s
  setStage 5 (formHusk (planVolts { s with power := { s.power with floors := r.plan, planVer := r.planVer } }))

/-- Stage 7: BIST on every tile in service; a tile with an uncovered fault is fenced (R84). -/
def bistTile (faults : List (Nat × Nat × Nat)) (s : State) (t : Nat) : State :=
  if tileFenced s t then s
  else
    let cells := (faults.filter (fun f => f.1 = t)).map (fun f => (f.2.1, f.2.2))
    let v := bistRecord cells (getTile s t)
    let s := setTile t v s
    if v.uncovered then fenceUnit (.tile t) 0x02 s else s

/-- Stage 8: READY. PF 0 owns the part unless its port is out (R344); the frame timer starts (R398); the anti-rollback counter rises to
the running SVN after a boot without fallback (R443). -/
def bootReady (s : State) : State :=
  let own : Option Nat := if portFenced s 0 then none else some 0
  let s := setStage 8 { s with owner := own,
                               clock := { s.clock with running := true, bj := now s, j := 0, next := now s + s.clock.f } }
  let svn := (bankOf s s.fw.bank).svn
  if !s.fw.fallback && rollback s < svn then recordBoth (.rollback svn) s else s

/-- BOOT_STAGE: the next stage, once t0 has come and while the supplies hold. -/
def bootStage (faults : List (Nat × Nat × Nat)) (s : State) : State :=
  if !powered s || now s < s.fw.t0 then s
  else match s.fw.stage with
    | 0 => bootBank s
    | 1 => bootRails s
    | 2 => if railsSettled s then bootFabric s else s
    | 3 => setStage 4 s
    | 4 => if bankValid s s.fw.bank then bootFirmware s else s
    | 5 => setStage 6 s
    | 6 => setStage 7 ((List.range 256).foldl (bistTile faults) s)
    | 7 => bootReady s
    | _ => s

def execBootStage (products sums : List (Nat × Nat × Nat)) (s : State) : Host.Outcome State Fault Refusal :=
  .next (bootStage (products ++ sums) s)

/-- FIRMWARE_FALLBACK: 1,500 ms after t0 without READY the bank is marked failed, and the control complexes restart from the other one if
it is valid (R335). -/
def firmwareFallback (s : State) : State :=
  if !powered s || now s < s.fw.t0 + 1500000000 || s.fw.stage < 1 || 8 ≤ s.fw.stage || s.fw.fallback then s
  else
    let b := s.fw.bank
    let s := recordBoth (.failedBank b) s
    let o := 1 - b
    let st := min 4 s.fw.stage
    if bankValid s o then { s with fw := { s.fw with bank := o, fallback := true, stage := st } } else setStage st s

def execFirmwareFallback (s : State) : Host.Outcome State Fault Refusal := .next (firmwareFallback s)

end Sys2Proof.Machine
end

