-- ==== Sys2Proof/Machine/EccCmds.lean ====
section
/-! DEFINITION. Reads that decode (R357, R359), leak ticks (R360), OVF24 (R362), patrol scrub (R364), rebuilds (R368, R369), the refresh
rate (R275). -/

namespace Sys2Proof.Machine

open Sys2Proof

/-- The symbols of a list that lie in a codeword. -/
def inCodeword (e : Errs) : Errs := e.filter (fun p => p.1 < 80)

/-- Symbols of a granule flip. -/
def upsetDram (g : Nat) (e : Errs) (s : State) : State :=
  { s with dramErr := SMap.set [] s.dramErr g (errXor (SMap.get [] s.dramErr g) ((inCodeword e).foldl (fun m p => SMap.set 0 m p.1 (SMap.get 0 m p.1 ^^^ p.2)) [])) }

/-- The stack that holds a granule and is in service. -/
def dramStack (s : State) (g : Nat) : Option Nat :=
  match placeOf (64 * g) with
  | .stack st _ => if stackFenced s st then none else some st
  | _ => none

/-- DRAM_READ_DECODE: symbols that have flipped, then the decode and what it counts, poisons and posts. -/
def dramRead (g : Nat) (upset : Errs) (s : State) : State :=
  match dramStack s g with
  | some st => (fetchDram st g (upsetDram g upset s)).2
  | none => s

def execDramReadDecode (granule : Nat) (upset : List (Nat × BitVec 8)) (s : State) : Host.Outcome State Fault Refusal :=
  .next (dramRead granule upset s)

/-- SRAM words are those of slices, scratchpads, local and group-shared memory of units in service. -/
def isSram (s : State) (a : Nat) : Bool :=
  let pl := placeOf a
  !placeFenced s pl && (match pl with
    | .slice _ _ => true
    | .tile _ _ => true
    | .local_ _ _ => true
    | .group _ _ => true
    | _ => false)

/-- SRAM_READ_DECODE: bits that have flipped in a word, then its decode. -/
def sramRead (w : Nat) (upset : BitVec 72) (s : State) : State :=
  if !isSram s (8 * w) then s
  else
    let s := { s with sramErr := SMap.set 0 s.sramErr w (SMap.get 0 s.sramErr w ^^^ upset) }
    let (_, _, ue, s) := fetchWord w ([], false, false, s)
    if ue then uncorrectable (w / 8) s else s

def execSramReadDecode (word : Nat) (upset : BitVec 72) (s : State) : Host.Outcome State Fault Refusal := .next (sramRead word upset s)

/-! ### Buckets -/

/-- LEAK_S in nanoseconds. -/
def leakPeriod (s : State) : Nat := s.eccCfg.2.2.1 * 1000000000

/-- LEAK_TICK: every bucket above 0 loses one count, and the written configuration comes into force. -/
def leakTick (s : State) : State :=
  if now s < s.leakAt + leakPeriod s then s
  else { s with ecc := (List.range 214).foldl (fun m i => SMap.mod {} m i (fun (l : EccLog) => { l with bucket := l.bucket - 1 })) s.ecc,
                leakAt := s.leakAt + leakPeriod s, eccCfg := s.eccWritten }

def execLeakTick (s : State) : Host.Outcome State Fault Refusal := .next (leakTick s)

/-- 24 hours in nanoseconds. -/
def day : Nat := 86400000000000

/-- OVF24_EXPIRY: overflows that are 24 h old leave the count of an entry. -/
def execOvf24Expiry (die : Nat) (s : State) : Host.Outcome State Fault Refusal :=
  .next (if die < 214 then
    { s with ecc := SMap.mod {} s.ecc die (fun l => { l with ovf24 := l.ovf24.filter (fun t => now s < t + day) }) }
  else s)

/-! ### Patrol scrub (R286, R364) -/

/-- The scrubber covers offset off of stack st. -/
def scrubCovers (s : State) (st off : Nat) : Bool := (mapped s).any (fun r => r.2.filled && covers r.2 st off)

/-- The first granule that the scrubber covers at or after granule k of a stack: k itself, or where the next covered region begins. -/
def scrubFrom (s : State) (st k : Nat) : Option Nat :=
  if scrubCovers s st (64 * k) then some k
  else
    let starts := sortNat (((mapped s).filter (fun r => r.2.filled && r.2.ready && r.2.stks.contains st && 64 * k ≤ r.2.off)).map (fun r => r.2.off / 64))
    starts.head?

/-- The next codeword of a stack's patrol, and whether it begins a new pass. -/
def scrubNext (s : State) (st : Nat) : Option (Nat × Bool) :=
  match scrubFrom s st (getDie s st).scrub with
  | some k => some (k, false)
  | none => (scrubFrom s st 0).map (fun k => (k, true))

/-- A codeword that decoded as corrected is rewritten whole, as the decoder read it. -/
def scrubRewrite (g : Nat) (before : Errs) (out : DramOut) (s : State) : State :=
  match out with
  | .corrected fix => { s with dramErr := SMap.set [] s.dramErr g (errXor before fix) }
  | _ => s

/-- PATROL_SCRUB: the next codeword of a covered region is read, and rewritten where it was corrected. A rebuild takes its slots. -/
def patrolScrub (st : Nat) (upset : Errs) (s : State) : State :=
  if 16 ≤ st || stackFenced s st || (getDie s st).state = 1 || (getDie s st).state = 3 then s
  else match scrubNext s st with
    | none => s
    | some (k, fresh) =>
      let s := if fresh then { s with eccCfg := s.eccWritten } else s
      let g := st * 2 ^ 30 + k
      let s := upsetDram g upset s
      let before := SMap.get [] s.dramErr g
      let out := dramDecode (storedErrs s g) (erasedSlot s st)
      let s := (fetchDram st g s).2
      let d := getDie s st
      setDie st { d with scrub := k + 1 } (scrubRewrite g before out s)

def execPatrolScrub (st : Nat) (upset : List (Nat × BitVec 8)) (s : State) : Host.Outcome State Fault Refusal := .next (patrolScrub st upset s)

/-! ### Rebuilds (R368, R369) -/

/-- Codewords of a stack. -/
def stackWords : Nat := 2 ^ 30

/-- A rebuild runs in a stack. -/
def rebuilding (s : State) (st : Nat) : Bool := st < 16 && !stackFenced s st && ((getDie s st).state = 1 || (getDie s st).state = 3)

/-- The spare's symbols are written: errors of the erased slot go, but for what a miscorrection leaves there. -/
def spareWrite (g slot : Nat) (left : Errs) (s : State) : State :=
  let e := SMap.get [] s.dramErr g
  let out := e.filter (fun p => p.1 / 8 ≠ slot) ++ left.filter (fun p => p.1 / 8 = slot)
  { s with dramErr := SMap.set [] s.dramErr g (errXor out []) }

/-- A codeword that the rebuild cannot decode: stored as poisoned; UE only inside a mapped region. -/
def rebuildLost (st g : Nat) (s : State) : State :=
  let s := countUE (6 + st) (storePoison g s)
  if (ownersOf s (64 * g)).isEmpty then s else postUE g (.stack st) s

/-- One codeword of a rebuild. -/
def rebuildWord (st g : Nat) (s : State) : State :=
  let e := storedErrs s g
  let er := erasedSlot s st
  match dramDecode e er with
  | .uncorrectable => rebuildLost st g s
  | .corrected fix => countFix st fix er (spareWrite g (er.getD 10) (errXor e fix) s)
  | _ => spareWrite g (er.getD 10) [] s

/-- REBUILD_SLOT. -/
def rebuildSlot (st : Nat) (upset : Errs) (s : State) : State :=
  if rebuilding s st && (getDie s st).pos < stackWords then
    let g := st * 2 ^ 30 + (getDie s st).pos
    let s := rebuildWord st g (upsetDram g upset s)
    setDie st { getDie s st with pos := (getDie s st).pos + 1 } s
  else s

def execRebuildSlot (st : Nat) (upset : List (Nat × BitVec 8)) (s : State) : Host.Outcome State Fault Refusal := .next (rebuildSlot st upset s)

/-- REBUILD_COMPLETE: the walk has ended. -/
def execRebuildComplete (st : Nat) (s : State) : Host.Outcome State Fault Refusal :=
  .next (if rebuilding s st && (getDie s st).pos = stackWords then rebuildDone st s else s)

/-! ### Refresh (R275) -/

/-- Some DRAM core die of a stack reads 85 °C or more. -/
def stackHot (s : State) (st : Nat) : Bool := (List.range 12).any (fun k => decide (8 * 85 ≤ dieTj s (dieEntry st k)))

/-- REFRESH_RATE_CHANGE: at a frame boundary the rate follows the dies. -/
def refreshChange (st : Nat) (s : State) : State :=
  let d := getDie s st
  let hot := stackHot s st
  if 16 ≤ st || d.hot = hot then s
  else setDie st { d with hot := hot, hotFrames := hotFrames s d, hotAt := now s } s

def execRefreshRateChange (st : Nat) (s : State) : Host.Outcome State Fault Refusal := .next (refreshChange st s)

end Sys2Proof.Machine
end

