-- ==== Sys2Proof/Machine/EngineWord.lean ====
section
/-! DEFINITION. The 64-bit instruction word of a bank engine (R144, R148): its fields, its encoder, and the checks made of it at node
start (R149). -/

namespace Sys2Proof.Machine

open Sys2Proof

/-- The 48 opcodes (R148). -/
inductive EngOp where
  | nop | end_ | bra | loop | bare | barg
  | pset | plog
  | iadd | imul | imad | and_ | or_ | xor_ | shl | shr | movi | sel | sreg
  | fadd | fsub | fmul | fma | fmax | fmin | cvt | exp | recip | rsqrt | silu | fred | maxi | smstep
  | xmac | xclr | xred | xexit | qblk
  | ldl | stl | lds | sts | ldg | stg | gcopy
  | xchg | waitc | sprt
deriving DecidableEq, Repr

/-- Opcode numbers (R148). -/
def opCode (o : EngOp) : BitVec 8 :=
  match o with
  | .nop => 0x00 | .end_ => 0x01 | .bra => 0x02 | .loop => 0x03 | .bare => 0x04 | .barg => 0x05
  | .pset => 0x08 | .plog => 0x09
  | .iadd => 0x10 | .imul => 0x11 | .imad => 0x12 | .and_ => 0x13 | .or_ => 0x14 | .xor_ => 0x15 | .shl => 0x16 | .shr => 0x17
  | .movi => 0x18 | .sel => 0x19 | .sreg => 0x1A
  | .fadd => 0x20 | .fsub => 0x21 | .fmul => 0x22 | .fma => 0x23 | .fmax => 0x24 | .fmin => 0x25 | .cvt => 0x26 | .exp => 0x27
  | .recip => 0x28 | .rsqrt => 0x29 | .silu => 0x2A | .fred => 0x2B | .maxi => 0x2C | .smstep => 0x2D
  | .xmac => 0x30 | .xclr => 0x31 | .xred => 0x32 | .xexit => 0x33 | .qblk => 0x34
  | .ldl => 0x38 | .stl => 0x39 | .lds => 0x3A | .sts => 0x3B | .ldg => 0x3C | .stg => 0x3D | .gcopy => 0x3E
  | .xchg => 0x40 | .waitc => 0x41 | .sprt => 0x42

/-- All opcodes, in the order of R148. -/
def allOps : List EngOp :=
  [.nop, .end_, .bra, .loop, .bare, .barg, .pset, .plog, .iadd, .imul, .imad, .and_, .or_, .xor_, .shl, .shr, .movi, .sel, .sreg,
   .fadd, .fsub, .fmul, .fma, .fmax, .fmin, .cvt, .exp, .recip, .rsqrt, .silu, .fred, .maxi, .smstep,
   .xmac, .xclr, .xred, .xexit, .qblk, .ldl, .stl, .lds, .sts, .ldg, .stg, .gcopy, .xchg, .waitc, .sprt]

/-- The opcode of a number; none for every other number (R148). -/
def opOf (c : BitVec 8) : Option EngOp := allOps.find? (fun o => opCode o = c)

/-- The word of an opcode and its fields: OP 63:56, D 55:50, A 49:44, B 43:38, C 37:32, IMM 31:0 (R144). -/
def encodeWord (o : EngOp) (f : EngFields) : BitVec 64 := opCode o ++ f.d ++ f.a ++ f.b ++ f.c ++ f.imm

/-- The fields of a word (R144). -/
def fieldsOf (w : BitVec 64) : EngFields :=
  { d := w.extractLsb' 50 6, a := w.extractLsb' 44 6, b := w.extractLsb' 38 6, c := w.extractLsb' 32 6, imm := w.extractLsb' 0 32 }

/-- The opcode and fields of a word; none where the opcode is invalid (R144, R148). -/
def decodeWord (w : BitVec 64) : Option (EngOp × EngFields) := (opOf (w.extractLsb' 56 8)).map (fun o => (o, fieldsOf w))

/-! ### Checks of R149 -/

/-- What a field of the word holds (R144, R146). -/
inductive FieldUse where
  /-- reads 0 -/
  | none
  /-- v0-v63 -/
  | reg
  /-- the first of a register pair, at most v62 -/
  | pair
  /-- a predicate or accumulator index, the high bits zero -/
  | index
  /-- a destination predicate p1-p7 -/
  | pdst
  /-- a guard: predicate, inversion, two reserved bits -/
  | guard
deriving DecidableEq, Repr

/-- A field keeps the rule of its use. -/
def useOk (u : FieldUse) (x : BitVec 6) : Bool :=
  match u with
  | .none => x = 0
  | .reg => true
  | .pair => x.toNat ≤ 62
  | .index => x.toNat < 8
  | .pdst => 0 < x.toNat && x.toNat < 8
  | .guard => x.toNat < 16

/-- C is a source register (S) or a selecting predicate (Sel): unguarded (R146, R148). -/
def unguarded (o : EngOp) : Bool :=
  match o with
  | .imad => true
  | .fma => true
  | .smstep => true
  | .gcopy => true
  | .sprt => true
  | .sel => true
  | _ => false

/-- The uses of D, A, B and C of an opcode under its modifier (R146, R148, R151, R157, R159, R163-R168). -/
def usesOf (o : EngOp) (imm : Nat) : FieldUse × FieldUse × FieldUse × FieldUse :=
  let b (u : FieldUse) : FieldUse := if bit imm 31 then .none else u
  let coord (u : FieldUse) : FieldUse := if bit imm 10 then .pair else u
  let wide (u : FieldUse) : FieldUse := if bits imm 25 24 = 3 then .pair else u
  match o with
  | .nop => (.none, .none, .none, .guard)
  | .end_ => (.none, .none, .none, .none)
  | .bra => (.none, .none, .none, .guard)
  | .loop => (.reg, .none, .none, .guard)
  | .bare => (.none, .none, .none, .none)
  | .barg => (.none, .none, .none, .none)
  | .pset => (.pdst, .reg, b .reg, .guard)
  | .plog => (.pdst, .index, .index, .guard)
  | .iadd => (.reg, .reg, b .reg, .guard)
  | .imul => (.reg, .reg, b .reg, .guard)
  | .imad => (.reg, .reg, .reg, .reg)
  | .and_ => (.reg, .reg, b .reg, .guard)
  | .or_ => (.reg, .reg, b .reg, .guard)
  | .xor_ => (.reg, .reg, b .reg, .guard)
  | .shl => (.reg, .reg, b .reg, .guard)
  | .shr => (.reg, .reg, b .reg, .guard)
  | .movi => (.reg, .none, .none, .guard)
  | .sel => (.reg, .reg, .reg, .index)
  | .sreg => (.reg, .none, .none, .guard)
  | .fadd => (.reg, .reg, .reg, .guard)
  | .fsub => (.reg, .reg, .reg, .guard)
  | .fmul => (.reg, .reg, .reg, .guard)
  | .fma => (.reg, .reg, .reg, .reg)
  | .fmax => (.reg, .reg, .reg, .guard)
  | .fmin => (.reg, .reg, .reg, .guard)
  | .cvt => (.reg, .reg, coord .none, .guard)
  | .exp => (.reg, .reg, .none, .guard)
  | .recip => (.reg, .reg, .none, .guard)
  | .rsqrt => (.reg, .reg, .none, .guard)
  | .silu => (.reg, .reg, .none, .guard)
  | .fred => (.reg, .reg, .none, .guard)
  | .maxi => (.pair, .reg, .reg, .guard)
  | .smstep => (.pair, .reg, .reg, .pair)
  | .xmac => (.index, .reg, .reg, .guard)
  | .xclr => (.index, .none, .none, .guard)
  | .xred => (.index, .index, .none, .guard)
  | .xexit => (.reg, .index, coord .none, .guard)
  | .qblk => (.none, .reg, coord .reg, .guard)
  | .ldl => (wide .reg, .reg, .none, .guard)
  | .stl => (.none, .reg, wide .reg, .guard)
  | .lds => (wide .reg, .reg, .none, .guard)
  | .sts => (.none, .reg, wide .reg, .guard)
  | .ldg => (wide .reg, .pair, .none, .guard)
  | .stg => (.none, .pair, wide .reg, .guard)
  | .gcopy => (.none, .reg, .reg, .reg)
  | .xchg => (.none, .reg, .reg, .guard)
  | .waitc => (.none, if bit imm 4 then .none else .reg, .none, .guard)
  | .sprt => (.none, .reg, .reg, .reg)

/-- The v registers a field names. -/
def regsOf (u : FieldUse) (x : BitVec 6) : List Nat :=
  match u with
  | .reg => [x.toNat]
  | .pair => [x.toNat, x.toNat + 1]
  | _ => []

/-- The source registers of an instruction: A, B and C where they name registers, and D where the opcode reads it (R148, R162). -/
def sourceRegs (o : EngOp) (f : EngFields) : List Nat :=
  let u := usesOf o f.imm.toNat
  regsOf u.2.1 f.a ++ regsOf u.2.2.1 f.b
    ++ (match o with
      | .loop => regsOf u.1 f.d
      | .smstep => regsOf u.1 f.d
      | _ => regsOf u.2.2.2 f.c)

/-- The registers an instruction writes: D, and those that SMSTEP and XMAC with POSTINC write besides (R154, R162). -/
def resultRegs (o : EngOp) (f : EngFields) : List Nat :=
  let u := usesOf o f.imm.toNat
  regsOf u.1 f.d
    ++ (match o with
      | .smstep => regsOf u.2.2.2 f.c
      | .xmac => if bit f.imm.toNat 11 then regsOf u.2.1 f.a ++ regsOf u.2.2.1 f.b else []
      | _ => [])

/-- Formats of XEXIT and CVT (R157). -/
def cvtFmt (f : Nat) : Bool := f < 5 || f = 8 || f = 0xB

/-- XMAC pairs of R154 in the order (first, second): elements N and run length. -/
def xmacRow (x : Nat) (xs : Bool) (y : Nat) (ys : Bool) : Option (Nat × Nat) :=
  if x = 0xA ∧ y = 8 then some (64, if ys then 32 else 64)
  else if x = 0xA ∧ y = 9 then some (64, 16)
  else if x = 9 ∧ (y = 8 ∨ y = 9) then some (32, 16)
  else if (x = 5 ∨ x = 6 ∨ x = 7) ∧ 3 ≤ y ∧ y ≤ 8 then some (16, 32)
  else if x = 8 ∧ xs ∧ (y = 3 ∨ y = 4 ∨ y = 8) then some (16, 32)
  else none

/-- N and the run length of an XMAC pair, in either order; none for an invalid pair (R154). -/
def xmacPair (fa : Nat) (sa : Bool) (fb : Nat) (sb : Bool) : Option (Nat × Nat) :=
  if (sa && fa ≠ 8) || (sb && fb ≠ 8) then none
  else match xmacRow fa sa fb sb with
    | some r => some r
    | none =>
      match xmacRow fb sb fa sa with
      | some r => some r
      | none =>
        let one (f : Nat) : Bool := f = 3 || f = 4 || f = 8
        if one fa && one fb then some (16, 1) else none

/-- Bits hi:lo of the immediate are reserved and 0. -/
def immZero (imm hi lo : Nat) : Bool := bits imm hi lo = 0

/-- The immediate of an I-class opcode with an operand B (R151). -/
def immI (imm : Nat) (shr : Bool) : Bool :=
  immZero imm 30 25 && (shr || immZero imm 24 24) && (bit imm 31 || immZero imm 23 0)

/-- The modifier keeps the opcode's rules, in a program of n instructions whose descriptor has BARRIER as given. -/
def immOk (o : EngOp) (imm n : Nat) (barrier : Bool) : Bool :=
  match o with
  | .nop => imm = 0
  | .end_ => imm = 0
  | .bra => immZero imm 31 16 && immZero imm 13 13 && bits imm 15 14 ≠ 3 && bits imm 12 0 < n
  | .loop => immZero imm 31 13 && bits imm 12 0 < n
  | .bare => imm = 0
  | .barg => imm = 0 && barrier
  | .pset =>
    bits imm 2 0 < 6 && bits imm 4 3 < 3 && immZero imm 30 24 && (if bit imm 31 then bits imm 4 3 ≠ 2 else immZero imm 23 5)
  | .plog => immZero imm 31 2
  | .iadd => immI imm false
  | .imul => immI imm false
  | .imad => imm = 0
  | .and_ => immI imm false
  | .or_ => immI imm false
  | .xor_ => immI imm false
  | .shl => immI imm false
  | .shr => immI imm true
  | .movi => true
  | .sel => imm = 0
  | .sreg => imm ≤ 14 || (64 ≤ imm && imm ≤ 127)
  | .cvt => cvtFmt (bits imm 3 0) && cvtFmt (bits imm 7 4) && bits imm 9 8 ≠ 3 && immZero imm 15 11
  | .fred => imm ≤ 2
  | .xmac =>
    immZero imm 31 12 && (match xmacPair (bits imm 3 0) (bit imm 8) (bits imm 7 4) (bit imm 9) with
      | some r => !bit imm 10 || r.2 = 2 * r.1
      | none => false)
  | .xred => 1 ≤ imm && imm ≤ 5
  | .xexit => cvtFmt (bits imm 3 0) && immZero imm 7 4 && bits imm 9 8 ≠ 3 && immZero imm 15 12
  | .qblk => 5 ≤ bits imm 3 0 && bits imm 3 0 ≤ 7 && immZero imm 7 4 && bits imm 9 8 ≠ 3 && immZero imm 15 11
  | .ldl => immZero imm 31 27
  | .lds => immZero imm 31 27
  | .stl => immZero imm 31 26
  | .sts => immZero imm 31 26
  | .ldg => immZero imm 31 27 && immZero imm 23 0
  | .stg => immZero imm 31 26 && immZero imm 23 0
  | .gcopy => immZero imm 31 20 && immZero imm 15 13
  | .xchg =>
    immZero imm 31 28 && (match bits imm 17 16 with
      | 0 => bits imm 23 18 = 0
      | 1 => bits imm 23 18 < 4
      | 2 => true
      | _ => false)
  | .waitc => immZero imm 7 5 && (bit imm 4 || immZero imm 31 8)
  | .sprt => immZero imm 31 17
  | _ => imm = 0

/-- A word of a program of n instructions keeps R149. -/
def wordOk (n : Nat) (barrier : Bool) (w : BitVec 64) : Bool :=
  match decodeWord w with
  | none => false
  | some (o, f) =>
    let u := usesOf o f.imm.toNat
    useOk u.1 f.d && useOk u.2.1 f.a && useOk u.2.2.1 f.b && useOk u.2.2.2 f.c && immOk o f.imm.toNat n barrier

/-- Every word of a program keeps R149. -/
def codeOk (barrier : Bool) (code : List (BitVec 64)) : Bool := code.all (wordOk code.length barrier)

end Sys2Proof.Machine
end

