-- ==== Sys2Proof/Machine/NodeStart.lean ====
section
/-! DEFINITION. Starting a node: when it may start (R253, R256), the copy of descriptor blocks (R93, R87), of code and arguments (R134,
R149), the placement of thread groups (R135) and the walk of an ATTN node (R185). -/

namespace Sys2Proof.Machine

open Sys2Proof

/-! ### Reach with a cause -/

/-- The cause of a refused access (R164, R355). -/
def denyCause (d : Deny) : Nat :=
  match d with
  | .badAddress => csBAD_ADDRESS
  | .fenced => csFENCED

/-- The cause of the first granule of a range that a pod's node at a router cannot access, if any (R37, R164, R270, R476). -/
def rangeFault (s : State) (p src a len : Nat) (write : Bool) : Option Nat :=
  (List.range (if len = 0 then 0 else (a + len - 1) / 64 + 1 - a / 64)).findSome? (fun i =>
    let g := 64 * (a / 64 + i)
    match podAccess s p g write with
    | some d => some (denyCause d)
    | none => if reachable s src g then none else some csFENCED)

/-! ### When a node may start (R253) -/

/-- A node that has ended and let its successors run (R253, R260). -/
def passed (i : Inst) (n : Nat) : Bool := nodeState i n = some .done || nodeState i n = some .poisoned

/-- The release of an instance has come (R243, R221). -/
def releasedNow (s : State) (i : Inst) : Bool :=
  match i.step with
  | some st => st.released
  | none => i.release ≤ now s

/-- Every chain predecessor of a step has ended (R252): it is no longer among the pod's instances. -/
def chainDone (s : State) (i : Inst) : Bool :=
  match i.step with
  | some st => st.preds.all (fun q => (findInst s i.pod q).isNone)
  | none => true

/-- On every core of a set, every node with an earlier planned start has ended or can never start, and no node runs there (R253). -/
def coreOrder (s : State) (p : Nat) (ref : NodeRef) (n : NodeRun) : Bool :=
  (podInsts s p).all (fun i => (i.nodes.zipIdx).all (fun q =>
    (i.num = ref.inst && q.2 = ref.node) || !live q.1 || !q.1.cores.any (fun c => n.cores.contains c)
      || (q.1.st = .notStarted && (!i.promised || n.start < q.1.start || (n.start = q.1.start && (i.num, q.2) ≠ (ref.inst, ref.node))))))

/-- The conditions of R253 for one node. -/
def nodeReady (s : State) (i : Inst) (g : Graph) (n : Nat) : Bool :=
  nodeState i n = some .notStarted && releasedNow s i && chainDone s i && !i.cancelled && !hubFenced s (getPod s i.pod).hub
    && (predsOf g n).all (passed i)

/-- A planned node starts: the conditions hold for it and every member of its gang (R242, R253). -/
def plannedReady (s : State) (ref : NodeRef) : Bool :=
  match findInst s ref.pod ref.inst with
  | none => false
  | some i =>
    match graphOf s i with
    | none => false
    | some g =>
      i.promised && ref.node < g.nodes.length && (gangOf g.nodes ref.node).all (fun m =>
        nodeReady s i g m && (match i.nodes[m]? with
          | some n => coreOrder s ref.pod { ref with node := m } n
          | none => false))

/-! ### Tiles (R87, R93) -/

/-- The physical tile of logical tile t of a cluster (R87). -/
def physTile (s : State) (core t : Nat) : Nat :=
  let l := (List.range 8).filter (fun k => !tileFenced s (8 * core + k))
  8 * core + nth 0 l (t % max 1 l.length)

/-- The tile programs of a MATRIX node (R93, R238). -/
def tileRunsOf (s : State) (ref : NodeRef) (g : Graph) (r : NodeRec) (cores : List Nat) : List TileRun :=
  (cores.zipIdx).flatMap (fun c => (List.range 8).map (fun t =>
    { ref := { node := ref, core := c.1, tile := t }, phys := physTile s c.1 t, block := matrixBlock g.image r (8 * c.2 + t),
      desc := r.progOff, pass := 0, tag := false, stat := [], lanes := [], bank := false, exits := [], vrows := [], ended := false,
      poisoned := false }))

/-- The copy of the descriptor blocks into the tiles of a MATRIX node (R93): the cause of a fault where a cluster's die cannot reach the
graph store (R476) or a granule of it is poisoned (R366). -/
def copyBlocks (g : Graph) (r : NodeRec) (cores : List Nat) (s : State) : Option Nat × State :=
  let per := 8 * r.blkLen
  let at_ (k : Nat) : List Nat := (List.range per).map (fun i => storeAddr s g (r.bodyOff + 64 * (per * k + i)))
  if (cores.zipIdx).any (fun c => (at_ c.2).any (fun a => !reachable s (c.1 / 8) a)) then (some csFENCED, s)
  else
    let gs := (cores.zipIdx).flatMap (fun c => at_ c.2)
    let s := touch gs s
    if gs.any (fun a => (viewByte s a).2) then (some csPOISONED, s) else (none, s)

/-! ### Engines (R134, R135, R143, R149) -/

/-- The engines of a set of bank groups in node order, fenced ones skipped (R135, R143). -/
def engineOrder (s : State) (cores : List Nat) : List Nat :=
  (sortNat cores).flatMap (fun c => (List.range 16).filterMap (fun e =>
    let n := 16 * (c - 32) + e
    if engineFenced s n then none else some n))

/-- ACTIVE bits of thread group j (R135). -/
def activeBits (d : LaunchDesc) (j : Nat) : BitVec 32 :=
  BitVec.ofNat 32 (maskOf ((List.range 32).filter (fun i => 32 * j + i < gridThreads d)))

/-- A thread group at its start (R145); the first on its engine holds the argument block in lane 0 (R134). -/
def newGroup (d : LaunchDesc) (slot j : Nat) (args : List (BitVec 32 × Bool)) : Group :=
  { slot := slot, j := j, pc := 0, wait := .none, active := activeBits d j,
    v := (args.zipIdx).foldl (fun m q => SMap.set 0 m q.2 q.1.1) [], p := [], acc := [], late := [],
    poison := (args.zipIdx).foldl (fun m q => SMap.set false m q.2 q.1.2) [] }

/-- The resident groups of an engine at the start: one per slot while there are groups (R135). -/
def firstGroups (d : LaunchDesc) (pos total : Nat) (args : List (BitVec 32 × Bool)) : List Group :=
  ((List.range d.resGroups).filter (fun k => pos + total * k < gridGroups d)).map (fun k =>
    newGroup d k (pos + total * k) (if k = 0 then args else []))

/-- The launch of a node on its engines. -/
def launchEngines (ref : NodeRef) (d : LaunchDesc) (code : List (BitVec 64)) (args : List (BitVec 32 × Bool)) (order : List Nat)
    (s : State) : State :=
  (order.zipIdx).foldl (fun s q =>
    let run : EngineRun :=
      { node := ref, desc := d, code := code, args := args, order := q.2, total := order.length,
        groups := firstGroups d q.2 order.length args, nextJ := q.2 + order.length * d.resGroups, counters := [],
        lastSlot := 31 }
    { s with engines := SMap.set none s.engines q.1 (some run) }) s

/-- The instruction words of a launch's code. -/
def codeWords (bs : List Byte) (n : Nat) : List (BitVec 64) :=
  (List.range n).map (fun i => BitVec.ofNat 64 (leNat ((bs.drop (8 * i)).take 8)))

/-- Copy code and arguments, check the words, and place the thread groups (R134, R135, R149, R366): the cause of a fault at the start,
if any. -/
def startLaunch (ref : NodeRef) (d : LaunchDesc) (cores : List Nat) (s : State) : Option Nat × State :=
  let src := 4 + (getPod s ref.pod).hub
  match rangeFault s ref.pod src d.code (8 * d.codeLen) false, rangeFault s ref.pod src d.args 256 false with
  | some c, _ => (some c, s)
  | none, some c => (some c, s)
  | none, none =>
    let (code, s1) := fetchBytes d.code (8 * d.codeLen) s
    let (args, s2) := fetchBytes d.args 256 s1
    let words := codeWords (code.map (fun b => b.1)) d.codeLen
    if code.any (fun b => b.2) then (some csPOISONED, s2)
    else if !codeOk d.barrier words then (some csBAD_CODE, s2)
    else
      let argw := (List.range 64).map (fun k =>
        let bs := (args.drop (4 * k)).take 4
        (BitVec.ofNat 32 (leNat (bs.map (fun b => b.1))), bs.any (fun b => b.2)))
      (none, launchEngines ref d words argw (engineOrder s2 cores) s2)

/-! ### The walk of an ATTN node (R185) -/

/-- Raise an exchange counter of an engine, saturating (R138). -/
def addCounter (e chan n : Nat) (s : State) : State :=
  match SMap.get none s.engines e with
  | some run =>
    let c := satAdd 0xFFFFFFFF (SMap.get 0 run.counters chan) n
    { s with engines := SMap.set none s.engines e (some { run with counters := SMap.set 0 run.counters chan c }) }
  | none => s

/-- Write one stack's descriptors into the local memory of each engine of the node there, counting them (R185). -/
def landDescs (st : Nat) (r : NodeRec) (order descs : List Nat) (s : State) : State :=
  (order.filter (fun e => e / 64 = st)).foldl (fun s e =>
    let s := (descs.zipIdx).foldl (fun s q => landBytes (addrLocal e + r.qbase + 64 * q.2) (leBytes 64 q.1) s) s
    addCounter e r.chan descs.length s) s

/-- The walk: descriptors for every stack of the node, or the cause KV_QUEUE or POISONED (R185, R366). -/
def walkNode (ref : NodeRef) (r : NodeRec) (rows : List StepRow) (cores : List Nat) (s : State) : Option Nat × State :=
  let order := engineOrder s cores
  let named := rows.filter (fun w => w.kind < 2)
  if named.any (fun w => tablePoisoned s (getStream s w.stream)) then (some csPOISONED, s)
  else
    let (per, s1) := (stacksOf cores).foldl (fun acc st =>
      let w := walkStack ref.pod st rows acc.2
      (acc.1 ++ [(st, w.1)], w.2)) ([], s)
    if per.any (fun q => r.qlen < q.2.length || 0x400000 < r.qbase + 64 * q.2.length) then (some csKV_QUEUE, s1)
    else (none, per.foldl (fun s q => landDescs q.1 r order q.2 s) s1)

/-! ### Starting -/

/-- The start of one node: its record RUNNING (R378), then what its kind loads: the cause of a fault at the start, if any. -/
def startNode (ref : NodeRef) (cores : List Nat) (s : State) : Option Nat × State :=
  match findInst s ref.pod ref.inst with
  | none => (none, s)
  | some i =>
    match graphOf s i with
    | none => (none, s)
    | some g =>
      let r := nodeRec g ref.node
      let (pos, s) := takePos ref.pod s
      let t := now s
      let marks := (List.range 4).map (fun k => if isSproutOut g r k then 0xFFFFFFFF else 0)
      let s := writeRec ref.pod pos { inst := ref.inst, node := ref.node, st := .running, pmask := 0, cause := 0, hwm := marks, time := t } s
      let s := modNode ref (fun n => { n with st := .running, cores := cores, jpos := some pos, startedAt := t }) s
      if !g.loaded then (some csFENCED, s)
      else match r.kind with
      | 1 =>
        match copyBlocks g r cores s with
        | (some c, s) => (some c, s)
        | (none, s) => (none, { s with tileRuns := s.tileRuns ++ tileRunsOf s ref g r cores })
      | 2 => startLaunch ref (launchOf g r) cores s
      | 4 =>
        match startLaunch ref (launchOf g r) cores s with
        | (some c, s) => (some c, s)
        | (none, s) =>
          match i.step with
          | some st => walkNode ref r st.rows cores s
          | none => (none, s)
      | _ => (none, s)

/-- A gang, or a single node, starts in one cycle (R242); a fault at the start ends it before any thread group issues (R149). -/
def startGang (p num : Nat) (members : List (Nat × List Nat)) (s : State) : State :=
  let (faults, s) := members.foldl (fun acc m =>
    let r := startNode ⟨p, num, m.1⟩ m.2 acc.2
    (acc.1 ++ (match r.1 with | some c => [(m.1, c)] | none => []), r.2)) (([] : List (Nat × Nat)), s)
  match faults with
  | [] => s
  | f :: _ => faultNode ⟨p, num, f.1⟩ f.2 s

/-- Start a planned node with its gang (R253). -/
def startPlanned (ref : NodeRef) (s : State) : State :=
  if !plannedReady s ref then s
  else
    match findInst s ref.pod ref.inst with
    | none => s
    | some i =>
      match graphOf s i with
      | none => s
      | some g =>
        let ms := (gangOf g.nodes ref.node).map (fun m => (m, match i.nodes[m]? with | some n => n.cores | none => []))
        if ms.any (fun m => m.2.any (fun c => if 96 ≤ c then false else coreFenced s c)) then
          let ids := ms.map (fun m => m.1)
          checkEnd ref.pod ref.inst (cancelNodes ref.pod ref.inst (closureOf g ids) csPREDECESSOR
            (cancelNodes ref.pod ref.inst ids csFENCED s))
        else startGang ref.pod ref.inst ms s

/-! ### Best-effort nodes (R256) -/

/-- Cores with a planned interval (R249, R256). -/
def plannedCores (s : State) (p : Nat) : List Nat :=
  ((podInsts s p).filter (fun i => i.promised)).flatMap (fun i =>
    (i.nodes.filter (fun n => n.st ≠ .cancelled)).flatMap (fun n => n.cores))

/-- The cores a ready best-effort gang would take now: first free in R250's order, none of them with a planned interval. -/
def bestEffortCores (s : State) (i : Inst) (g : Graph) (lead : Nat) : Option (List (Nat × Slot)) :=
  let busy := heldCores s i.pod ++ plannedCores s i.pod
  placeMembers s i.pod g [] busy 0 none (fun _ => none) (gangOf g.nodes lead) []

/-- A best-effort gang is ready. -/
def gangReady (s : State) (i : Inst) (g : Graph) (lead : Nat) : Bool :=
  !i.promised && (nodeRec g lead).gang = lead && (gangOf g.nodes lead).all (nodeReady s i g)

/-- The first ready best-effort gang of a pod that finds cores, in order of instance and node ID (R256). -/
def nextBestEffort (s : State) (p : Nat) : Option (Nat × Nat × List (Nat × Slot)) :=
  (podInsts s p).findSome? (fun i =>
    match graphOf s i with
    | none => none
    | some g => (List.range g.nodes.length).findSome? (fun n =>
        if gangReady s i g n then (bestEffortCores s i g n).map (fun l => (i.num, n, l)) else none))

/-- Start a best-effort node with its gang (R256). -/
def startBestEffort (ref : NodeRef) (s : State) : State :=
  match nextBestEffort s ref.pod with
  | none => s
  | some (num, _, l) =>
    if num = ref.inst ∧ l.any (fun m => m.1 = ref.node) then startGang ref.pod num (l.map (fun m => (m.1, m.2.cores))) s else s

end Sys2Proof.Machine
end

