-- ==== Sys2Proof/Machine/Engine.lean ====
section
/-! DEFINITION. What every engine instruction shares: registers and poison (R145, R170), lanes and lead thread (R146, R147), issue
(R126, R152, R171), and local, group-shared and device memory as a thread sees them (R163, R164). -/

namespace Sys2Proof.Machine

open Sys2Proof

/-! ### A thread's registers -/

/-- Register r of a lane, and its poison bit. -/
def rv (g : Group) (lane r : Nat) : BitVec 32 := SMap.get 0 g.v (64 * lane + r)
def rpo (g : Group) (lane r : Nat) : Bool := SMap.get false g.poison (64 * lane + r)

/-- Predicate i of a lane: p0 always reads 1 (R145). -/
def pv (g : Group) (lane i : Nat) : Bool := if i = 0 then true else SMap.get false g.p (8 * lane + i)
def ppo (g : Group) (lane i : Nat) : Bool := if i = 0 then false else SMap.get false g.poison (2048 + 8 * lane + i)

/-- Accumulator i of a lane. -/
def acv (g : Group) (lane i : Nat) : EngAcc := SMap.get {} g.acc (8 * lane + i)

/-- Write a register with the poison of its result (R170). -/
def wv (lane r : Nat) (x : BitVec 32) (po : Bool) (g : Group) : Group :=
  { g with v := SMap.set 0 g.v (64 * lane + r) x, poison := SMap.set false g.poison (64 * lane + r) po }

/-- Write a predicate: writes to p0 are ignored (R145). -/
def wp (lane i : Nat) (x po : Bool) (g : Group) : Group :=
  if i = 0 then g
  else { g with p := SMap.set false g.p (8 * lane + i) x, poison := SMap.set false g.poison (2048 + 8 * lane + i) po }

def wac (lane i : Nat) (a : EngAcc) (g : Group) : Group := { g with acc := SMap.set {} g.acc (8 * lane + i) a }

/-! ### Lanes -/

/-- The guard of a word is true in a lane (R146). -/
def guardTrue (g : Group) (w : EngFields) (lane : Nat) : Bool := pv g lane (w.c.toNat % 8) != bit w.c.toNat 3

/-- The ACTIVE lanes, ascending. -/
def activeLanes (g : Group) : List Nat := (List.range 32).filter (fun i => g.active.getLsbD i)

/-- The lanes that take part under the guard, ascending. -/
def guarded_ (g : Group) (w : EngFields) : List Nat := (activeLanes g).filter (guardTrue g w)

/-- Change a group lane by lane. -/
def eachLane (l : List Nat) (f : Nat → Group → Group) (g : Group) : Group := l.foldl (fun g i => f i g) g

/-- A register of some lane of a list holds poison. -/
def anyPoison (g : Group) (l : List Nat) (r : Nat) : Bool := l.any (fun i => rpo g i r)

/-! ### Issue -/

/-- Where the group goes after an instruction. -/
inductive Goes where
  | on
  | to (target : Nat)
  | ends
deriving DecidableEq, Repr

/-- What an instruction did: the part, the group, and where it goes. -/
structure Done where
  s : State
  g : Group
  goes : Goes
deriving DecidableEq, Repr

/-- An instruction's own meaning on engine e: what it did, or the cause of its fault. -/
abbrev Body := Nat → EngineRun → Group → State → Except Nat Done

/-- Change the launch on an engine. -/
def modEngine (e : Nat) (f : EngineRun → EngineRun) (s : State) : State :=
  match SMap.get none s.engines e with
  | some run => { s with engines := SMap.set none s.engines e (some (f run)) }
  | none => s

/-- Put a group back in its slot; that slot issued last. -/
def putGroup (e : Nat) (g : Group) (s : State) : State :=
  modEngine e (fun run => { run with groups := run.groups.map (fun h => if h.slot = g.slot then g else h), lastSlot := g.slot }) s

/-- A group ends: the next group of the engine, if any, takes its slot in the same cycle (R135, R152). -/
def endGroup (e slot : Nat) (s : State) : State :=
  modEngine e (fun run =>
    if run.nextJ < gridGroups run.desc then
      { run with groups := run.groups.map (fun h => if h.slot = slot then newGroup run.desc slot run.nextJ [] else h),
                 nextJ := run.nextJ + run.total, lastSlot := slot }
    else { run with groups := run.groups.filter (fun h => h.slot ≠ slot), lastSlot := slot }) s

/-- A group that is surely ready (R126): it waits on nothing, and no result of its next instruction's sources can be outstanding. Latencies
are not modelled (log entry 3): a result may be outstanding from the issue of its instruction until an instruction that reads it issues. -/
def surelyReady (run : EngineRun) (g : Group) : Bool :=
  g.wait = .none && (match (run.code[g.pc]?).bind decodeWord with
    | some (o, f) => !(sourceRegs o f).any (fun r => g.late.contains r)
    | none => true)

/-- The issuer reaches a slot before any group that is surely ready, in ascending order from the slot after the one that issued last
(R126). -/
def turnOf (run : EngineRun) (slot : Nat) : Bool :=
  let dist (k : Nat) : Nat := (k + 32 - (run.lastSlot + 1) % 32) % 32
  run.groups.all (fun h => !(decide (dist h.slot < dist slot) && surelyReady run h))

/-- The launch and group of an issue point, when its next instruction is the given word and it may issue: its node runs, it waits on no
barrier and no counter, and it is its turn (R126). -/
def readyGroup (op : EngOp) (at_ : Issue) (w : EngFields) (s : State) : Option (EngineRun × Group) :=
  match SMap.get none s.engines at_.engine with
  | none => none
  | some run =>
    match run.groups.find? (fun g => g.slot = at_.slot) with
    | none => none
    | some g =>
      if g.wait = .none ∧ isRunning s run.node ∧ turnOf run at_.slot ∧ run.code[g.pc]? = some (encodeWord op w) then some (run, g) else none

/-- The results that may be outstanding after an instruction of a group has issued. -/
def lateAfter (op : EngOp) (w : EngFields) (l : List Nat) : List Nat :=
  dedup (l.filter (fun r => !(sourceRegs op w).contains r) ++ resultRegs op w)

/-- Issue one instruction (R126, R152, R171): a fault ends the node before any effect; past the last instruction the node ends
FAULTED with BAD_CODE. Not issued where the group is not ready (log entry 3). -/
def issue (op : EngOp) (at_ : Issue) (w : EngFields) (body : Body) (s : State) : State :=
  match readyGroup op at_ w s with
  | none => s
  | some (run, g) =>
    match body at_.engine run g s with
    | .error c => faultNode run.node c s
    | .ok d =>
      match d.goes with
      | .ends => endGroup at_.engine at_.slot d.s
      | .to t => putGroup at_.engine { d.g with pc := t, late := lateAfter op w g.late } d.s
      | .on =>
        let s := putGroup at_.engine { d.g with pc := g.pc + 1, late := lateAfter op w g.late } d.s
        if g.pc + 1 = run.desc.codeLen then faultNode run.node csBAD_CODE s else s

/-- A body that only changes the group. -/
def onGroup (f : EngineRun → Group → Group) : Body := fun _ run g s => .ok { s := s, g := f run g, goes := .on }

/-! ### Memory as a thread sees it -/

/-- Bytes of local memory from an offset lie inside the launch's range (R163). -/
def localOk (d : LaunchDesc) (off len : Nat) : Bool := d.localBase ≤ off && off + len ≤ d.localBase + d.localLen

/-- Read local memory: bytes each with its poison. -/
def readLocal (e off len : Nat) (s : State) : List (Byte × Bool) × State := fetchBytes (addrLocal e + off) len s

/-- Write local memory, noting a poisoned write (R366). -/
def writeLocal (e : Nat) (node : NodeRef) (off : Nat) (bs : List (Byte × Bool)) (s : State) : State :=
  let s := landPoisonable (addrLocal e + off) bs s
  if bs.any (fun b => b.2) then notePoison node s else s

/-- n fresh undefined bytes (log entry 5). -/
def freeBytes (n : Nat) (s : State) : List Byte × State :=
  ((List.range n).map (fun i => Config.freeByte (s.freeIdx + i)), { s with freeIdx := s.freeIdx + n })

/-- A read by an engine or DMA channel of a pod at a device address, of at most one granule: through a mirror where one serves it
(R279), or the image of an adapter slot that its step still reads (R224); from a window, what the partner returns (R284; log entry 5). -/
def readDevice (node : NodeRef) (a len : Nat) (s : State) : List (Byte × Bool) × State :=
  match placeOf a with
  | .window _ _ =>
    let (bs, s) := freeBytes len s
    (bs.map (fun b => (b, false)), emit (.peerRead a len) s)
  | _ =>
    let (b, s) := redirect node.pod a s
    let (bs, s) := fetchBytes b len s
    (oldView s node a bs, s)

/-- A write by an engine or DMA channel at a device address, of at most one granule: landed, or sent to a window and not yet
acknowledged (R289, R299). -/
def writeDevice (node : NodeRef) (a : Nat) (bs : List (Byte × Bool)) (final : Bool) (s : State) : State :=
  let poison := bs.any (fun b => b.2)
  let s := match placeOf a with
    | .window _ _ => sendPeerOf node a (bs.map (fun b => b.1)) final poison s
    | _ => landPoisonable a bs s
  if poison then notePoison node s else s

/-- Little-endian bytes of a number, all with one poison. -/
def poisonBytes (n v : Nat) (po : Bool) : List (Byte × Bool) := (leBytes n v).map (fun b => (b, po))

/-- Number and poison of a list of bytes. -/
def bytesVal (bs : List (Byte × Bool)) : Nat × Bool := (leNat (bs.map (fun b => b.1)), bs.any (fun b => b.2))

/-! ### Coordinates and rounding (R55, R159) -/

/-- Linear index of the thread in a lane (R135). -/
def threadIdx (g : Group) (lane : Nat) : Nat := 32 * g.j + lane

/-- Random bits of an element stored by a lane under the modifier's mode, COORD and TAG. -/
def laneBits (run : EngineRun) (g : Group) (w : EngFields) (lane : Nat) : Nat :=
  let imm := w.imm.toNat
  if bits imm 9 8 ≠ 2 then 0
  else if bit imm 10 then stochBits run.desc.seed [(rv g lane w.b.toNat).toNat, (rv g lane (w.b.toNat + 1)).toNat]
  else stochBits run.desc.seed [threadIdx g lane, bits imm 31 16]

/-- A poisoned coordinate is used (R170). -/
def coordPoison (g : Group) (w : EngFields) (l : List Nat) : Bool :=
  bits w.imm.toNat 9 8 = 2 && bit w.imm.toNat 10 && (anyPoison g l w.b.toNat || anyPoison g l (w.b.toNat + 1))

end Sys2Proof.Machine
end

