-- ==== Sys2Proof/Machine/EngineControl.lean ====
section
/-! DEFINITION. Engine instructions of the control and predicate classes, and the releases of barriers and counter waits
(R136-R138, R148, R151, R152, R167). -/

namespace Sys2Proof.Machine

open Sys2Proof

/-- NOP (R148). -/
def execNop (at_ : Issue) (w : EngFields) (s : State) : Host.Outcome State Fault Refusal :=
  .next (issue .nop at_ w (onGroup (fun _ g => g)) s)

/-- END (R152). -/
def execEnd (at_ : Issue) (w : EngFields) (s : State) : Host.Outcome State Fault Refusal :=
  .next (issue .end_ at_ w (fun _ _ g s => .ok { s := s, g := g, goes := .ends }) s)

/-- The branch condition of BRA is met (R152). -/
def braTaken (g : Group) (w : EngFields) : Bool :=
  match bits w.imm.toNat 15 14 with
  | 0 => true
  | 1 => !(guarded_ g w).isEmpty
  | _ => guarded_ g w = activeLanes g

/-- BRA's own meaning: a poisoned condition faults (R170); with no thread taking part it does nothing, condition 0 included (R147;
DEDUCED, log entry 25). -/
def braBody (w : EngFields) : Body := fun _ _ g s =>
  let i := w.c.toNat % 8
  if (activeLanes g).any (fun l => ppo g l i) then .error csPOISONED
  else if (guarded_ g w).isEmpty then .ok { s := s, g := g, goes := .on }
  else .ok { s := s, g := g, goes := if braTaken g w then .to (bits w.imm.toNat 12 0) else .on }

/-- BRA (R152). -/
def execBra (at_ : Issue) (w : EngFields) (s : State) : Host.Outcome State Fault Refusal := .next (issue .bra at_ w (braBody w) s)

/-- LOOP's own meaning: it acts once, on the lead thread's register (R147, R148, R169). -/
def loopBody (w : EngFields) : Body := fun _ _ g s =>
  let d := w.d.toNat
  match (guarded_ g w).head? with
  | none => .ok { s := s, g := g, goes := .on }
  | some lead =>
    if rpo g lead d then .error csPOISONED
    else
      let h := wv lead d (rv g lead d - 1) false g
      .ok { s := s, g := h, goes := if rv h lead d ≠ 0 then .to (bits w.imm.toNat 12 0) else .on }

/-- LOOP (R148). -/
def execLoop (at_ : Issue) (w : EngFields) (s : State) : Host.Outcome State Fault Refusal := .next (issue .loop at_ w (loopBody w) s)

/-- BARE (R136). -/
def execBare (at_ : Issue) (w : EngFields) (s : State) : Host.Outcome State Fault Refusal :=
  .next (issue .bare at_ w (onGroup (fun _ g => { g with wait := .engineBarrier })) s)

/-- BARG (R137). -/
def execBarg (at_ : Issue) (w : EngFields) (s : State) : Host.Outcome State Fault Refusal :=
  .next (issue .barg at_ w (onGroup (fun _ g => { g with wait := .groupBarrier })) s)

/-- Release every group of an engine that waits on a barrier. -/
def releaseWait (e : Nat) (b : Wait) (s : State) : State :=
  modEngine e (fun run => { run with groups := run.groups.map (fun g => if g.wait = b then { g with wait := .none } else g) }) s

/-- Every resident group of an engine's launch waits on a barrier. -/
def allWait (run : EngineRun) (b : Wait) : Bool := !run.groups.isEmpty && run.groups.all (fun g => g.wait = b)

/-- The engine barrier releases its groups once every resident group has arrived (R136). -/
def engineRelease (e : Nat) (s : State) : State :=
  match SMap.get none s.engines e with
  | some run => if allWait run .engineBarrier then releaseWait e .engineBarrier s else s
  | none => s

def execEngineBarrierRelease (engine : Nat) (s : State) : Host.Outcome State Fault Refusal := .next (engineRelease engine s)

/-- The 16 engines of a bank group that hold a launch with resident groups. -/
def groupRuns (n : Nat) (s : State) : List (Nat × EngineRun) :=
  (List.range 16).filterMap (fun i => match SMap.get none s.engines (16 * n + i) with
    | some run => if run.groups.isEmpty then none else some (16 * n + i, run)
    | none => none)

/-- The group barrier releases its groups once every resident group on the bank group's engines has arrived (R137). -/
def groupRelease (n : Nat) (s : State) : State :=
  let runs := groupRuns n s
  if !runs.isEmpty && runs.all (fun r => allWait r.2 .groupBarrier) then
    runs.foldl (fun s r => releaseWait r.1 .groupBarrier s) s
  else s

def execGroupBarrierRelease (group : Nat) (s : State) : Host.Outcome State Fault Refusal := .next (groupRelease group s)

/-- The value a WAITC waits for in a group: the lead thread's vA, or the immediate (R167). -/
def waitcBody (w : EngFields) : Body := fun _ _ g s =>
  let imm := w.imm.toNat
  match (guarded_ g w).head? with
  | none => .ok { s := s, g := g, goes := .on }
  | some lead =>
    if !bit imm 4 && rpo g lead w.a.toNat then .error csPOISONED
    else
      let v := if bit imm 4 then bits imm 31 8 else (rv g lead w.a.toNat).toNat
      .ok { s := s, g := { g with wait := .counter (bits imm 3 0) v }, goes := .on }

/-- WAITC (R167). -/
def execWaitc (at_ : Issue) (w : EngFields) (s : State) : Host.Outcome State Fault Refusal := .next (issue .waitc at_ w (waitcBody w) s)

/-- A waiting group goes on once its counter has reached its value (R138). -/
def waitcGo (at_ : Issue) (s : State) : State :=
  modEngine at_.engine (fun run => { run with groups := run.groups.map (fun g =>
    match g.wait with
    | .counter c v => if g.slot = at_.slot ∧ v ≤ SMap.get 0 run.counters c then { g with wait := .none } else g
    | _ => g) }) s

def execWaitcRelease (at_ : Issue) (s : State) : Host.Outcome State Fault Refusal := .next (waitcGo at_ s)

/-! ### Predicates -/

/-- A relation of R151 by its code on an order: less, equal. -/
def relation (code : Nat) (lt eq : Bool) : Bool :=
  match code with
  | 0 => eq
  | 1 => !eq
  | 2 => lt
  | 3 => lt || eq
  | 4 => !lt && !eq
  | _ => !lt

/-- The comparison of PSET (R151): with a NaN operand false, except NE. -/
def psetCompare (imm : Nat) (a b : BitVec 32) : Bool :=
  let code := bits imm 2 0
  match bits imm 4 3 with
  | 0 => relation code (a.toInt < b.toInt) (a = b)
  | 1 => relation code (a.toNat < b.toNat) (a = b)
  | _ =>
    let x := fp32Val a
    let y := fp32Val b
    if fvIsNan x || fvIsNan y then code = 1 else relation code (fvCmp x y = -1) (fvCmp x y = 0)

/-- Operand B of PSET: the register, or the immediate of bits 23:5 (R151). -/
def psetB (g : Group) (w : EngFields) (lane : Nat) : BitVec 32 × Bool :=
  let imm := w.imm.toNat
  if bit imm 31 then (BitVec.ofInt 32 (signed 19 (bits imm 23 5)), false) else (rv g lane w.b.toNat, rpo g lane w.b.toNat)

/-- PSET (R151, R169). -/
def execPset (at_ : Issue) (w : EngFields) (s : State) : Host.Outcome State Fault Refusal :=
  .next (issue .pset at_ w (onGroup (fun _ g => eachLane (guarded_ g w) (fun i h =>
    wp i (w.d.toNat % 8) (psetCompare w.imm.toNat (rv h i w.a.toNat) (psetB h w i).1) (rpo h i w.a.toNat || (psetB h w i).2) h) g)) s)

/-- The operation of PLOG (R148). -/
def plogOp (imm : Nat) (a b : Bool) : Bool :=
  match bits imm 1 0 with
  | 0 => a && b
  | 1 => a || b
  | 2 => a != b
  | _ => a && !b

/-- PLOG (R148). -/
def execPlog (at_ : Issue) (w : EngFields) (s : State) : Host.Outcome State Fault Refusal :=
  .next (issue .plog at_ w (onGroup (fun _ g => eachLane (guarded_ g w) (fun i h =>
    wp i (w.d.toNat % 8) (plogOp w.imm.toNat (pv h i (w.a.toNat % 8)) (pv h i (w.b.toNat % 8)))
      (ppo h i (w.a.toNat % 8) || ppo h i (w.b.toNat % 8)) h) g)) s)

end Sys2Proof.Machine
end

