-- ==== Sys2Proof/Machine/EngineFloat.lean ====
section
/-! DEFINITION. Engine instructions of the FP32 class: arithmetic (R53, R88), conversion (R157), transcendentals (R59-R61), the
reductions across a thread group and the softmax step (R160-R162). -/

namespace Sys2Proof.Machine

open Sys2Proof

/-- A guarded FP32 instruction of two sources. -/
def fpTwo (f : BitVec 32 → BitVec 32 → BitVec 32) (w : EngFields) : Body := onGroup (fun _ g =>
  eachLane (guarded_ g w) (fun i h =>
    wv i w.d.toNat (f (rv h i w.a.toNat) (rv h i w.b.toNat)) (rpo h i w.a.toNat || rpo h i w.b.toNat) h) g)

/-- A guarded FP32 instruction of one source. -/
def fpOne (f : BitVec 32 → BitVec 32) (w : EngFields) : Body := onGroup (fun _ g =>
  eachLane (guarded_ g w) (fun i h => wv i w.d.toNat (f (rv h i w.a.toNat)) (rpo h i w.a.toNat) h) g)

/-- FADD (R53). -/
def execFadd (at_ : Issue) (w : EngFields) (s : State) : Host.Outcome State Fault Refusal := .next (issue .fadd at_ w (fpTwo fp32Add w) s)

/-- FSUB (R53). -/
def execFsub (at_ : Issue) (w : EngFields) (s : State) : Host.Outcome State Fault Refusal := .next (issue .fsub at_ w (fpTwo fp32Sub w) s)

/-- FMUL (R53). -/
def execFmul (at_ : Issue) (w : EngFields) (s : State) : Host.Outcome State Fault Refusal := .next (issue .fmul at_ w (fpTwo fp32Mul w) s)

/-- FMA: unguarded, C is a source register (R53, R146). -/
def fmaBody (w : EngFields) : Body := onGroup (fun _ g => eachLane (activeLanes g) (fun i h =>
  wv i w.d.toNat (fp32Fma (rv h i w.a.toNat) (rv h i w.b.toNat) (rv h i w.c.toNat))
    (rpo h i w.a.toNat || rpo h i w.b.toNat || rpo h i w.c.toNat) h) g)

/-- FMA (R53). -/
def execFma (at_ : Issue) (w : EngFields) (s : State) : Host.Outcome State Fault Refusal := .next (issue .fma at_ w (fmaBody w) s)

/-- FMAX (R88). -/
def execFmax (at_ : Issue) (w : EngFields) (s : State) : Host.Outcome State Fault Refusal := .next (issue .fmax at_ w (fpTwo fp32Max w) s)

/-- FMIN (R88). -/
def execFmin (at_ : Issue) (w : EngFields) (s : State) : Host.Outcome State Fault Refusal := .next (issue .fmin at_ w (fpTwo fp32Min w) s)

/-! ### Conversion (R157) -/

/-- The value that the low bits of a register hold in a format of R157. -/
def regValue (fmt : Nat) (x : BitVec 32) : FVal :=
  match fmt with
  | 8 => fvOfInt (signed 8 x.toNat)
  | 0xB => fvOfInt (signed 32 x.toNat)
  | _ => match fltOf fmt with
    | some f => fltDecode f (x.toNat % 2 ^ f.width)
    | none => .nan

/-- A result code in a register: zero-extended, INT8 sign-extended (R157). -/
def regCode (fmt c : Nat) : BitVec 32 := if fmt = 8 then BitVec.ofInt 32 (signed 8 c) else BitVec.ofNat 32 c

/-- CVT's own meaning, SATURATE counted (R57, R64, R157, R159). -/
def cvtBody (w : EngFields) : Body := fun e run g s =>
  let l := guarded_ g w
  let imm := w.imm.toNat
  let dst := bits imm 3 0
  let one (h : Group) (i : Nat) : Nat × Bool :=
    convertTo dst (bits imm 9 8) (laneBits run h w i) (regValue (bits imm 7 4) (rv h i w.a.toNat))
  if coordPoison g w l then .error csPOISONED
  else .ok
    { s := countStk e 0 0 (countIf (fun i => (one g i).2) l) 0 s
      g := eachLane l (fun i h => wv i w.d.toNat (regCode dst (one g i).1) (rpo g i w.a.toNat) h) g
      goes := .on }

/-- CVT (R157). -/
def execCvt (at_ : Issue) (w : EngFields) (s : State) : Host.Outcome State Fault Refusal := .next (issue .cvt at_ w (cvtBody w) s)

/-! ### Transcendentals -/

/-- EXP (R59, R62). -/
def execExp (at_ : Issue) (w : EngFields) (s : State) : Host.Outcome State Fault Refusal := .next (issue .exp at_ w (fpOne fpExp w) s)

/-- RECIP (R60, R62). -/
def execRecip (at_ : Issue) (w : EngFields) (s : State) : Host.Outcome State Fault Refusal :=
  .next (issue .recip at_ w (fpOne fpRecip w) s)

/-- RSQRT (R60, R62). -/
def execRsqrt (at_ : Issue) (w : EngFields) (s : State) : Host.Outcome State Fault Refusal :=
  .next (issue .rsqrt at_ w (fpOne fpRsqrt w) s)

/-- SILU (R61, R62). -/
def execSilu (at_ : Issue) (w : EngFields) (s : State) : Host.Outcome State Fault Refusal := .next (issue .silu at_ w (fpOne fpSilu w) s)

/-! ### Across the thread group -/

/-- One level of the pairwise tree with absent lanes (R160). -/
def pairUpOpt (l : List (Option (BitVec 32))) : List (Option (BitVec 32)) :=
  match l with
  | some a :: some b :: r => some (fp32Add a b) :: pairUpOpt r
  | some a :: none :: r => some a :: pairUpOpt r
  | none :: b :: r => b :: pairUpOpt r
  | [a] => [a]
  | [] => []

/-- The reduction of FRED over 32 lanes, those absent none (R160); a maximum or minimum over one lane is that of R88 too, a NaN canonical. -/
def fredValue (sel : Nat) (l : List (Option (BitVec 32))) : BitVec 32 :=
  match sel with
  | 0 =>
    match pairUpOpt (pairUpOpt (pairUpOpt (pairUpOpt (pairUpOpt l)))) with
    | some a :: _ => a
    | _ => 0#32
  | 1 => match l.filterMap id with
    | a :: r => r.foldl fp32Max (fp32Max a a)
    | [] => 0#32
  | _ => match l.filterMap id with
    | a :: r => r.foldl fp32Min (fp32Min a a)
    | [] => 0#32

/-- FRED's own meaning (R160, R170). -/
def fredGroup (w : EngFields) (g : Group) : Group :=
  let l := guarded_ g w
  let x := fredValue (bits w.imm.toNat 1 0) ((List.range 32).map (fun i => if l.contains i then some (rv g i w.a.toNat) else none))
  eachLane l (fun i h => wv i w.d.toNat x (anyPoison g l w.a.toNat) h) g

/-- FRED (R160). -/
def execFred (at_ : Issue) (w : EngFields) (s : State) : Host.Outcome State Fault Refusal :=
  .next (issue .fred at_ w (onGroup (fun _ g => fredGroup w g)) s)

/-- The lowest of a list of indices. -/
def lowest (l : List (BitVec 32)) : BitVec 32 :=
  match l with
  | [] => 0
  | a :: r => r.foldl (fun m x => if x.toNat < m.toNat then x else m) a

/-- Maximum and its index over (value, index) pairs (R161). -/
def maxiValue (l : List (BitVec 32 × BitVec 32)) : BitVec 32 × BitVec 32 :=
  let nans := l.filter (fun q => fvIsNan (fp32Val q.1))
  if nans.isEmpty then
    let m := match l with
      | [] => 0xFF800000#32
      | q :: r => r.foldl (fun m x => fp32Max m x.1) q.1
    (m, lowest ((l.filter (fun q => q.1 = m)).map (fun q => q.2)))
  else (0x7FC00000#32, lowest (nans.map (fun q => q.2)))

/-- MAXI's own meaning (R161, R170). -/
def maxiGroup (w : EngFields) (g : Group) : Group :=
  let l := guarded_ g w
  let x := maxiValue (l.map (fun i => (rv g i w.a.toNat, rv g i w.b.toNat)))
  let po := anyPoison g l w.a.toNat || anyPoison g l w.b.toNat
  eachLane l (fun i h => wv i (w.d.toNat + 1) x.2 po (wv i w.d.toNat x.1 po h)) g

/-- MAXI (R161). -/
def execMaxi (at_ : Issue) (w : EngFields) (s : State) : Host.Outcome State Fault Refusal :=
  .next (issue .maxi at_ w (onGroup (fun _ g => maxiGroup w g)) s)

/-- One step of the online softmax: m1, l1, alpha, beta (R162). -/
def softmaxStep (m l sc wt : BitVec 32) : BitVec 32 × BitVec 32 × BitVec 32 × BitVec 32 :=
  let m1 := fp32Max m sc
  if m1 = 0xFF800000#32 then (m1, l, 0x3F800000#32, 0#32)
  else
    let alpha := fpExp (fp32Sub m m1)
    let beta := fpExp (fp32Sub sc m1)
    (m1, fp32Fma wt beta (fp32Mul l alpha), alpha, beta)

/-- SMSTEP's own meaning: overlapping pairs fault BAD_CODE (R162, R169); unguarded (R146). -/
def smstepBody (w : EngFields) : Body := fun _ _ g s =>
  let d := w.d.toNat
  let c := w.c.toNat
  if d = c ∨ d + 1 = c ∨ c + 1 = d then .error csBAD_CODE
  else .ok
    { s := s
      g := eachLane (activeLanes g) (fun i h =>
        let x := softmaxStep (rv h i d) (rv h i (d + 1)) (rv h i w.a.toNat) (rv h i w.b.toNat)
        let po := rpo h i d || rpo h i (d + 1) || rpo h i w.a.toNat || rpo h i w.b.toNat
        wv i (c + 1) x.2.2.2 po (wv i c x.2.2.1 po (wv i (d + 1) x.2.1 po (wv i d x.1 po h)))) g
      goes := .on }

/-- SMSTEP (R162). -/
def execSmstep (at_ : Issue) (w : EngFields) (s : State) : Host.Outcome State Fault Refusal :=
  .next (issue .smstep at_ w (smstepBody w) s)

end Sys2Proof.Machine
end

