-- ==== Sys2Proof/Machine/EngineExact.lean ====
section
/-! DEFINITION. Engine instructions of the exact class (R154-R159). -/

namespace Sys2Proof.Machine

open Sys2Proof

/-! ### XMAC (R154, R155) -/

/-- One operand of an XMAC: format, whether scaled, its block length, elements taken, and whether a run covers two instructions. -/
structure XOp where
  fmt : Nat
  scaled : Bool
  n : Nat
  staged : Bool
  half : Bool
deriving DecidableEq, Repr

def xBlock (x : XOp) : Nat := blockLen x.fmt x.scaled

/-- Records the operand reads; single elements for an unscaled operand. -/
def xCount (x : XOp) : Nat := if xBlock x = 1 then x.n else max 1 (x.n / xBlock x)

/-- Bytes the operand reads. -/
def xBytes (x : XOp) : Nat := xCount x * recBytes x.fmt x.scaled

/-- Bytes that POSTINC advances by (R154): a record shared by two halves only after the second. -/
def xAdvance (x : XOp) : Nat := if x.staged && !x.half && xBlock x ≠ 1 then 0 else xBytes x

/-- The scale of a record read by two halves; none for a NaN block, 1 where the operand has no block (R44). -/
def recordScale (fmt : Nat) (scaled : Bool) (bs : List Byte) : Option FVal :=
  match blockLen fmt scaled with
  | 1 => some (.fin false 1 0)
  | _ => if fmt = 8 then scaleFlt fltE4M3 (nth 0 bs 32).toNat else scaleE8M0 (nth 0 bs (recBytes fmt scaled - 1)).toNat

/-- The 16 elements of a half, without their scale (R155). -/
def halfElems (x : XOp) (bs : List Byte) : List FVal :=
  if xBlock x = 1 then (loadRecords x.fmt x.scaled 16 bs).vals
  else
    let unit : Byte := if x.fmt = 8 then 0x38 else 127
    let l := (loadRecord x.fmt x.scaled (bs.set (recBytes x.fmt x.scaled - 1) unit)).vals
    if x.half then (l.drop 16).take 16 else l.take 16

/-- Code of the modifier that a stage remembers: formats and scaling of both operands. -/
def xFmts (imm : Nat) : Nat := bits imm 9 0

/-- Operands A and B of a modifier. -/
def xOps (imm : Nat) : XOp × XOp × Bool :=
  let r := (xmacPair (bits imm 3 0) (bit imm 8) (bits imm 7 4) (bit imm 9)).getD (16, 1)
  let staged := decide (r.2 = 2 * r.1)
  ({ fmt := bits imm 3 0, scaled := bit imm 8, n := r.1, staged := staged, half := bit imm 10 },
   { fmt := bits imm 7 4, scaled := bit imm 9, n := r.1, staged := staged, half := bit imm 10 }, staged)

/-- The exact sum that both halves of a run give, with the scales of the two records (R155). -/
def closeStage (sum : FVal) (sa sb : Option FVal) : FVal :=
  match sa, sb with
  | some x, some y => fvMul sum (fvMul x y)
  | _, _ => .nan

/-- One lane's XMAC on the bytes of its operands: the accumulator, and the BAD_TRIT, NAN_SCALE and TRUNCATE events (R47-R49, R64). -/
def xmacLane (anchor : Int) (imm : Nat) (a b : List Byte) (po : Bool) (acc : EngAcc) : EngAcc × Nat × Nat × Nat :=
  let x := xOps imm
  let poison := acc.acc.poison || po
  if x.2.2 then
    let part := runSum (products (halfElems x.1 a) (halfElems x.2.1 b))
    if bit imm 10 then
      let sum := match acc.stage with
        | some st => fvAdd st.sum part
        | none => part
      let sa := recordScale x.1.fmt x.1.scaled a
      let sb := recordScale x.2.1.fmt x.2.1.scaled b
      let e := accEnter anchor (closeStage sum sa sb) acc.acc
      ({ acc := { e.1 with poison := poison }, stage := none }, 0, b2n sa.isNone + b2n sb.isNone, b2n e.2)
    else ({ acc := { acc.acc with poison := poison }, stage := some { fmts := xFmts imm, sum := part } }, 0, 0, 0)
  else
    let la := loadRecords x.1.fmt x.1.scaled (xCount x.1) a
    let lb := loadRecords x.2.1.fmt x.2.1.scaled (xCount x.2.1) b
    let e := accEnterAll anchor (contributions (xBlock x.1) (xBlock x.2.1) la.vals lb.vals) acc.acc
    ({ acc := { e.1 with poison := poison }, stage := acc.stage }, la.badTrit + lb.badTrit, la.nanScale + lb.nanScale, e.2)

/-- The stage of an accumulator refuses an XMAC (R155). -/
def stageBad (imm : Nat) (acc : EngAcc) : Bool :=
  if (xOps imm).2.2 then
    match acc.stage with
    | some st => !bit imm 10 || st.fmts ≠ xFmts imm
    | none => bit imm 10
  else acc.stage.isSome

/-- The cause of the first fault of an XMAC in a lane, if any: a poisoned offset, the stage, the local range (R155, R163, R170). -/
def xmacFault (d : LaunchDesc) (w : EngFields) (g : Group) (i : Nat) : Option Nat :=
  let x := xOps w.imm.toNat
  if rpo g i w.a.toNat || rpo g i w.b.toNat then some csPOISONED
  else if stageBad w.imm.toNat (acv g i (w.d.toNat % 8)) then some csBAD_OPERAND
  else if !localOk d (rv g i w.a.toNat).toNat (xBytes x.1) || !localOk d (rv g i w.b.toNat).toNat (xBytes x.2.1) then some csBAD_OPERAND
  else none

/-- One lane of an XMAC: reads, accumulates, counts and advances. -/
def xmacStep (e : Nat) (run : EngineRun) (w : EngFields) (r : Group × State) (i : Nat) : Group × State :=
  let (g, s) := r
  let imm := w.imm.toNat
  let x := xOps imm
  let (a, s) := readLocal e (rv g i w.a.toNat).toNat (xBytes x.1) s
  let (b, s) := readLocal e (rv g i w.b.toNat).toNat (xBytes x.2.1) s
  let po := a.any (fun q => q.2) || b.any (fun q => q.2)
  let res := xmacLane run.desc.anchor imm (a.map (fun q => q.1)) (b.map (fun q => q.1)) po (acv g i (w.d.toNat % 8))
  let g := wac i (w.d.toNat % 8) res.1 g
  let up (k n : Nat) (g : Group) : Group := wv i k (rv g i k + BitVec.ofNat 32 n) (rpo g i k) g
  let g := if bit imm 11 then up w.b.toNat (xAdvance x.2.1) (up w.a.toNat (xAdvance x.1) g) else g
  (g, countStk e res.2.1 res.2.2.1 0 res.2.2.2 s)

/-- XMAC's own meaning. -/
def xmacBody (w : EngFields) : Body := fun e run g s =>
  let l := guarded_ g w
  match l.findSome? (xmacFault run.desc w g) with
  | some c => .error c
  | none =>
    let r := l.foldl (xmacStep e run w) (g, s)
    .ok { s := r.2, g := r.1, goes := .on }

/-- XMAC (R154, R155). -/
def execXmac (at_ : Issue) (w : EngFields) (s : State) : Host.Outcome State Fault Refusal := .next (issue .xmac at_ w (xmacBody w) s)

/-! ### XCLR, XRED, XEXIT -/

/-- XCLR: the accumulator as at launch start, its stage closed (R148, R155). -/
def execXclr (at_ : Issue) (w : EngFields) (s : State) : Host.Outcome State Fault Refusal :=
  .next (issue .xclr at_ w (onGroup (fun _ g => eachLane (guarded_ g w) (fun i h => wac i (w.d.toNat % 8) {} h) g)) s)

/-- XRED over the aligned runs of 2^k lanes: the lowest lane of each takes the merge of accA over its lanes that take part (R156;
DEDUCED, log entry 26). -/
def xredGroup (w : EngFields) (g : Group) : Group :=
  let l := guarded_ g w
  let n := 2 ^ bits w.imm.toNat 2 0
  let a := w.a.toNat % 8
  (List.range (32 / n)).foldl (fun h k =>
    match l.filter (fun i => i / n = k) with
    | [] => h
    | i :: r =>
      let m := r.foldl (fun m j => accMerge m (acv g j a).acc) (acv g i a).acc
      wac i (w.d.toNat % 8) { acc := m, stage := none } h) g

/-- XRED's own meaning: an open stage of accA, or of accD in a lane that takes part, faults (R155). -/
def xredBody (w : EngFields) : Body := fun _ _ g s =>
  let l := guarded_ g w
  if l.any (fun i => (acv g i (w.a.toNat % 8)).stage.isSome || (acv g i (w.d.toNat % 8)).stage.isSome) then .error csBAD_OPERAND
  else .ok { s := s, g := xredGroup w g, goes := .on }

/-- XRED (R156). -/
def execXred (at_ : Issue) (w : EngFields) (s : State) : Host.Outcome State Fault Refusal := .next (issue .xred at_ w (xredBody w) s)

/-- XEXIT's own meaning: the exit of accA under R51 to vD, accA cleared unless KEEP (R157), SATURATE counted (R50). -/
def xexitBody (w : EngFields) : Body := fun e run g s =>
  let l := guarded_ g w
  let imm := w.imm.toNat
  let a := w.a.toNat % 8
  let dst := bits imm 3 0
  let one (i : Nat) : Nat × Bool := accExit dst (bits imm 9 8) (laneBits run g w i) run.desc.anchor (acv g i a).acc
  if l.any (fun i => (acv g i a).stage.isSome) then .error csBAD_OPERAND
  else if coordPoison g w l then .error csPOISONED
  else .ok
    { s := countStk e 0 0 (countIf (fun i => (one i).2) l) 0 s
      g := eachLane l (fun i h =>
        let h := wv i w.d.toNat (regCode dst (one i).1) (acv g i a).acc.poison h
        if bit imm 11 then h else wac i a {} h) g
      goes := .on }

/-- XEXIT (R157). -/
def execXexit (at_ : Issue) (w : EngFields) (s : State) : Host.Outcome State Fault Refusal := .next (issue .xexit at_ w (xexitBody w) s)

/-! ### QBLK -/

/-- QBLK's own meaning: vA of the 32 lanes as one block, +0 where a lane does not take part, stored at the lead thread's vB (R158). -/
def qblkBody (w : EngFields) : Body := fun e run g s =>
  let l := guarded_ g w
  let imm := w.imm.toNat
  let fmt := bits imm 3 0
  match l.head? with
  | none => .ok { s := s, g := g, goes := .on }
  | some lead =>
    let off := (rv g lead w.b.toNat).toNat
    if rpo g lead w.b.toNat || coordPoison g w l then .error csPOISONED
    else if !localOk run.desc off (recBytes fmt false) then .error csBAD_OPERAND
    else
      let vals := (List.range 32).map (fun i =>
        if l.contains i then (fp32Val (rv g i w.a.toNat), laneBits run g w i) else (.fin false 0 0, 0))
      let r := storeBlock fmt (bits imm 9 8) vals
      let po := anyPoison g l w.a.toNat
      .ok { s := countStk e 0 0 r.2 0 (writeLocal e run.node off (r.1.map (fun b => (b, po))) s), g := g, goes := .on }

/-- QBLK (R158). -/
def execQblk (at_ : Issue) (w : EngFields) (s : State) : Host.Outcome State Fault Refusal := .next (issue .qblk at_ w (qblkBody w) s)

end Sys2Proof.Machine
end

