-- ==== Sys2Proof/Machine/EngineInteger.lean ====
section
/-! DEFINITION. Engine instructions of the integer class (R148, R151, R153). -/

namespace Sys2Proof.Machine

open Sys2Proof

/-- Operand B of the I class: vB, or IMM bits 23:0 sign-extended (R151), with its poison. -/
def operandB (g : Group) (w : EngFields) (lane : Nat) : BitVec 32 × Bool :=
  let imm := w.imm.toNat
  if bit imm 31 then (BitVec.ofInt 32 (signed 24 (bits imm 23 0)), false) else (rv g lane w.b.toNat, rpo g lane w.b.toNat)

/-- A guarded two-operand instruction: vD := f vA B in every lane that takes part (R147, R170). -/
def aluTwo (f : BitVec 32 → BitVec 32 → BitVec 32) (w : EngFields) : Body := onGroup (fun _ g =>
  eachLane (guarded_ g w) (fun i h =>
    let b := operandB h w i
    wv i w.d.toNat (f (rv h i w.a.toNat) b.1) (rpo h i w.a.toNat || b.2) h) g)

/-- IADD (R148). -/
def execIadd (at_ : Issue) (w : EngFields) (s : State) : Host.Outcome State Fault Refusal :=
  .next (issue .iadd at_ w (aluTwo (· + ·) w) s)

/-- IMUL (R148). -/
def execImul (at_ : Issue) (w : EngFields) (s : State) : Host.Outcome State Fault Refusal :=
  .next (issue .imul at_ w (aluTwo (· * ·) w) s)

/-- IMAD: unguarded, C is a source register (R146, R148). -/
def imadBody (w : EngFields) : Body := onGroup (fun _ g => eachLane (activeLanes g) (fun i h =>
  wv i w.d.toNat (rv h i w.a.toNat * rv h i w.b.toNat + rv h i w.c.toNat)
    (rpo h i w.a.toNat || rpo h i w.b.toNat || rpo h i w.c.toNat) h) g)

/-- IMAD (R148). -/
def execImad (at_ : Issue) (w : EngFields) (s : State) : Host.Outcome State Fault Refusal := .next (issue .imad at_ w (imadBody w) s)

/-- AND (R148). -/
def execAnd (at_ : Issue) (w : EngFields) (s : State) : Host.Outcome State Fault Refusal :=
  .next (issue .and_ at_ w (aluTwo (· &&& ·) w) s)

/-- OR (R148). -/
def execOr (at_ : Issue) (w : EngFields) (s : State) : Host.Outcome State Fault Refusal :=
  .next (issue .or_ at_ w (aluTwo (· ||| ·) w) s)

/-- XOR (R148). -/
def execXor (at_ : Issue) (w : EngFields) (s : State) : Host.Outcome State Fault Refusal :=
  .next (issue .xor_ at_ w (aluTwo (· ^^^ ·) w) s)

/-- SHL: by B mod 32 (R148). -/
def execShl (at_ : Issue) (w : EngFields) (s : State) : Host.Outcome State Fault Refusal :=
  .next (issue .shl at_ w (aluTwo (fun a b => a <<< (b.toNat % 32)) w) s)

/-- The shift of SHR: arithmetic under modifier bit 24 (R151). -/
def shrOp (imm : Nat) (a b : BitVec 32) : BitVec 32 := if bit imm 24 then a.sshiftRight (b.toNat % 32) else a >>> (b.toNat % 32)

/-- SHR (R148, R151). -/
def execShr (at_ : Issue) (w : EngFields) (s : State) : Host.Outcome State Fault Refusal :=
  .next (issue .shr at_ w (aluTwo (shrOp w.imm.toNat) w) s)

/-- MOVI: all 32 bits of IMM (R148). -/
def execMovi (at_ : Issue) (w : EngFields) (s : State) : Host.Outcome State Fault Refusal :=
  .next (issue .movi at_ w (onGroup (fun _ g => eachLane (guarded_ g w) (fun i h => wv i w.d.toNat w.imm false h) g)) s)

/-- SEL: unguarded, C is the selecting predicate; a poisoned predicate faults (R146, R170). -/
def selBody (w : EngFields) : Body := fun _ _ g s =>
  let c := w.c.toNat % 8
  if (activeLanes g).any (fun i => ppo g i c) then .error csPOISONED
  else
    let from_ (h : Group) (i : Nat) : Nat := if pv h i c then w.a.toNat else w.b.toNat
    .ok { s := s, g := eachLane (activeLanes g) (fun i h => wv i w.d.toNat (rv h i (from_ h i)) (rpo h i (from_ h i)) h) g, goes := .on }

/-- SEL (R148). -/
def execSel (at_ : Issue) (w : EngFields) (s : State) : Host.Outcome State Fault Refusal := .next (issue .sel at_ w (selBody w) s)

/-- The special values of R153, with the poison of an argument word. -/
def specialValue (e : Nat) (run : EngineRun) (g : Group) (lane sel : Nat) : Nat × Bool :=
  let t := threadIdx g lane
  let d := run.desc
  match sel with
  | 0 => (t, false)
  | 1 => (t % d.gx, false)
  | 2 => (t / d.gx % d.gy, false)
  | 3 => (t / (d.gx * d.gy), false)
  | 4 => (lane, false)
  | 5 => (g.j, false)
  | 6 => (run.order, false)
  | 7 => (e % 64, false)
  | 8 => (e / 64, false)
  | 9 => (e % 64 / 16, false)
  | 10 => (d.gx, false)
  | 11 => (d.gy, false)
  | 12 => (d.gz, false)
  | 13 => (run.total, false)
  | 14 => (d.localBase, false)
  | k =>
    let x := nth (0, false) run.args (k - 64)
    (x.1.toNat, x.2)

/-- SREG (R153). -/
def execSreg (at_ : Issue) (w : EngFields) (s : State) : Host.Outcome State Fault Refusal :=
  .next (issue .sreg at_ w (fun e run g s => .ok
    { s := s
      g := eachLane (guarded_ g w) (fun i h =>
        let x := specialValue e run g i (bits w.imm.toNat 7 0)
        wv i w.d.toNat (BitVec.ofNat 32 x.1) x.2 h) g
      goes := .on }) s)

end Sys2Proof.Machine
end

