-- ==== Sys2Proof/Machine/EngineMemory.lean ====
section
/-! DEFINITION. Engine instructions of the memory and exchange classes (R163-R168), the landing of their granules (R138) and the
sprout port (R191-R194). -/

namespace Sys2Proof.Machine

open Sys2Proof

/-! ### Loads and stores (R163, R164) -/

/-- Which memory an access names. -/
inductive Mem where
  | local_ | shared | device
deriving DecidableEq, Repr

/-- Width of an access in bytes. -/
def accessWidth (w : EngFields) : Nat := 2 ^ bits w.imm.toNat 25 24

/-- Offset or device address of a lane's access. -/
def accessAt (m : Mem) (g : Group) (w : EngFields) (i : Nat) : Nat :=
  match m with
  | .device => (rv g i w.a.toNat).toNat + ((rv g i (w.a.toNat + 1)).toNat % 2 ^ 16) * 2 ^ 32
  | _ => (rv g i w.a.toNat).toNat + bits w.imm.toNat 23 0

/-- Device address (or the model's place of group-shared memory) of an access on engine e. -/
def accessAddr (m : Mem) (e off : Nat) : Nat :=
  match m with
  | .local_ => addrLocal e + off
  | .shared => addrGroup (e / 16) + off
  | .device => off

/-- A window address in a node of a promised instance: windows are for best-effort graphs only (R128). DEDUCED (log entry 28): such an access
is refused as R37 refuses an address outside the pod's reach. -/
def windowDenied (s : State) (node : NodeRef) (a : Nat) : Bool :=
  match placeOf a, findInst s node.pod node.inst with
  | .window _ _, some i => i.promised
  | _, _ => false

/-- The cause of a fault of one lane's access, if any. -/
def accessFault (m : Mem) (write : Bool) (e : Nat) (run : EngineRun) (g : Group) (w : EngFields) (s : State) (i : Nat) : Option Nat :=
  let n := accessWidth w
  let off := accessAt m g w i
  if rpo g i w.a.toNat || (m = .device && rpo g i (w.a.toNat + 1)) then some csPOISONED
  else if off % n ≠ 0 then some csBAD_OPERAND
  else match m with
    | .local_ => if localOk run.desc off n then none else some csBAD_OPERAND
    | .shared => if off + n ≤ run.desc.sharedKib * 1024 then none else some csBAD_OPERAND
    | .device =>
      if windowDenied s run.node off then some csBAD_ADDRESS else rangeFault s run.node.pod (6 + e / 64) off n write

/-- A loaded value: the low bytes, sign-extended under bit 26 where narrow. -/
def loadValue (w : EngFields) (v : Nat) : Nat :=
  let n := accessWidth w
  if n < 4 ∧ bit w.imm.toNat 26 then unsigned 32 (signed (8 * n) v) else v

/-- One lane of a load. -/
def loadLane (m : Mem) (e : Nat) (run : EngineRun) (w : EngFields) (r : Group × State) (i : Nat) : Group × State :=
  let (g, s) := r
  let n := accessWidth w
  let a := accessAddr m e (accessAt m g w i)
  let (bs, s) := match m with
    | .device => readDevice run.node a n s
    | _ => fetchBytes a n s
  let x := bytesVal bs
  let v := loadValue w x.1
  let g := wv i w.d.toNat (BitVec.ofNat 32 v) x.2 g
  (if n = 8 then wv i (w.d.toNat + 1) (BitVec.ofNat 32 (v >>> 32)) x.2 g else g, s)

/-- One lane of a store. -/
def storeLane (m : Mem) (e : Nat) (run : EngineRun) (g : Group) (w : EngFields) (s : State) (i : Nat) : State :=
  let n := accessWidth w
  let b := w.b.toNat
  let v := (rv g i b).toNat + (if n = 8 then (rv g i (b + 1)).toNat * 2 ^ 32 else 0)
  let po := rpo g i b || (n = 8 && rpo g i (b + 1))
  writeDevice run.node (accessAddr m e (accessAt m g w i)) (poisonBytes n v po) false s

/-- A load's own meaning: every lane's checks before any effect (R171), lanes ascending. -/
def loadBody (m : Mem) (w : EngFields) : Body := fun e run g s =>
  let l := guarded_ g w
  match l.findSome? (accessFault m false e run g w s) with
  | some c => .error c
  | none =>
    let r := l.foldl (loadLane m e run w) (g, s)
    .ok { s := r.2, g := r.1, goes := .on }

/-- A store's own meaning: posted, landed at issue, lanes ascending (log entry 27). -/
def storeBody (m : Mem) (w : EngFields) : Body := fun e run g s =>
  let l := guarded_ g w
  match l.findSome? (accessFault m true e run g w s) with
  | some c => .error c
  | none => .ok { s := l.foldl (storeLane m e run g w) s, g := g, goes := .on }

/-- LDL (R163). -/
def execLdl (at_ : Issue) (w : EngFields) (s : State) : Host.Outcome State Fault Refusal := .next (issue .ldl at_ w (loadBody .local_ w) s)

/-- STL (R163). -/
def execStl (at_ : Issue) (w : EngFields) (s : State) : Host.Outcome State Fault Refusal := .next (issue .stl at_ w (storeBody .local_ w) s)

/-- LDS (R163). -/
def execLds (at_ : Issue) (w : EngFields) (s : State) : Host.Outcome State Fault Refusal := .next (issue .lds at_ w (loadBody .shared w) s)

/-- STS (R163). -/
def execSts (at_ : Issue) (w : EngFields) (s : State) : Host.Outcome State Fault Refusal := .next (issue .sts at_ w (storeBody .shared w) s)

/-- LDG (R164). -/
def execLdg (at_ : Issue) (w : EngFields) (s : State) : Host.Outcome State Fault Refusal := .next (issue .ldg at_ w (loadBody .device w) s)

/-- STG (R164). -/
def execStg (at_ : Issue) (w : EngFields) (s : State) : Host.Outcome State Fault Refusal := .next (issue .stg at_ w (storeBody .device w) s)

/-! ### GCOPY (R165) -/

/-- A granule on its way to engines. -/
def flightOf (node : NodeRef) (src : Nat) (what : Traffic) (engines : List Nat) (off chan : Nat) (bs : List (Byte × Bool)) : Flight :=
  { node := node, src := src, what := what, sprout := false, engines := engines, off := some off, bytes := bs.map (fun b => b.1),
    poisoned := bs.any (fun b => b.2), writes := [], chan := chan, count := 1 }

/-- Granules of a copy to local memory: each read and put in flight, latency-critical where the descriptor and the launch say so (R26,
R165). -/
def copyIn (run : EngineRun) (lc : Bool) (e loff chan : Nat) (n first : Nat) (s : State) : State :=
  (List.range n).foldl (fun s i =>
    let (bs, s) := readDevice run.node (64 * (first + i)) 64 s
    { s with flights := s.flights ++ [flightOf run.node e (if lc then .lcResponse else .other) [e] (loff + 64 * i) chan bs] }) s

/-- Granules of a copy to global memory: posted, landed at issue (log entry 27). -/
def copyOut (run : EngineRun) (e loff n first : Nat) (s : State) : State :=
  (List.range n).foldl (fun s i =>
    let (bs, s) := readLocal e (loff + 64 * i) 64 s
    writeDevice run.node (64 * (first + i)) bs false s) s

/-- GCOPY's own meaning (R165; what a bad descriptor gives is DEDUCED, log entry 28). No data moves between a window and device memory by
it (R284). -/
def gcopyBody (w : EngFields) : Body := fun e run g s =>
  let imm := w.imm.toNat
  let n := bits imm 11 0 + 1
  match (activeLanes g).head? with
  | none => .ok { s := s, g := g, goes := .on }
  | some lead =>
    let doff := (rv g lead w.a.toNat).toNat
    let loff := (rv g lead w.b.toNat).toNat
    if rpo g lead w.a.toNat || rpo g lead w.b.toNat || rpo g lead w.c.toNat then .error csPOISONED
    else if !localOk run.desc doff 128 || !localOk run.desc loff (64 * n) then .error csBAD_OPERAND
    else
      let (db, s1) := readLocal e doff 128 s
      let word := leNat (db.map (fun b => b.1))
      let t := tdParse word
      let span := tdGranules t
      let first := t.base / 64 + (rv g lead w.c.toNat).toNat
      if db.any (fun b => b.2) then .error csPOISONED
      else if !tdOk word || t.base % 64 ≠ 0 then .error csBAD_OPERAND
      else if t.space = 1 || tdWindow t || first < span.1 || span.1 + span.2 < first + n then .error csBAD_ADDRESS
      else match rangeFault s run.node.pod (6 + e / 64) (64 * first) (64 * n) (bit imm 12) with
        | some c => .error c
        | none =>
          .ok { s := if bit imm 12 then copyOut run e loff n first s1 else copyIn run (t.lc && run.desc.lc) e loff (bits imm 19 16) n first s1
                g := g, goes := .on }

/-- GCOPY (R165). -/
def execGcopy (at_ : Issue) (w : EngFields) (s : State) : Host.Outcome State Fault Refusal := .next (issue .gcopy at_ w (gcopyBody w) s)

/-! ### XCHG (R139, R142, R166) -/

/-- Engines of the destination set in a stack, fenced ones apart (R139, R143). -/
def destEngines (s : State) (imm st : Nat) : List Nat :=
  let k := bits imm 23 18
  let l := match bits imm 17 16 with
    | 0 => List.range 64
    | 1 => (List.range 16).map (fun e => 16 * k + e)
    | _ => [k]
  (l.map (fun e => 64 * st + e)).filter (fun e => !engineFenced s e)

/-- Bank groups of the destination set in a stack. -/
def destGroups (imm st : Nat) : List Nat :=
  let k := bits imm 23 18
  match bits imm 17 16 with
  | 0 => (List.range 4).map (fun g => 4 * st + g)
  | 1 => [4 * st + k]
  | _ => [4 * st + k / 16]

/-- The cause of an exchange to a stack, if it fails (R142, R476). -/
def destFault (s : State) (p e imm st : Nat) : Option Nat :=
  if stackFenced s st || (route s (6 + e / 64) (6 + st)).isNone then some csFENCED
  else if (destGroups imm st).any (fun g => !(getPod s p).cores.contains (32 + g)) then some csNOT_PERMITTED
  else none

/-- Granules of a block put in flight, each to every stack of the set (R139, R166). -/
def sendBlock (run : EngineRun) (e off n imm : Nat) (stks : List Nat) (s : State) : State :=
  (List.range n).foldl (fun s i =>
    let (bs, s) := readLocal e (off + 64 * i) 64 s
    { s with flights := s.flights ++ stks.map (fun st => flightOf run.node e .exchange (destEngines s imm st) (off + 64 * i) (bits imm 27 24) bs) }) s

/-- XCHG's own meaning. -/
def xchgBody (w : EngFields) : Body := fun e run g s =>
  let imm := w.imm.toNat
  match (guarded_ g w).head? with
  | none => .ok { s := s, g := g, goes := .on }
  | some lead =>
    let off := (rv g lead w.a.toNat).toNat
    let n := (rv g lead w.b.toNat).toNat
    let stks := onesOf 16 (bits imm 15 0)
    if rpo g lead w.a.toNat || rpo g lead w.b.toNat then .error csPOISONED
    else if stks.isEmpty || n = 0 || 4096 < n || off % 64 ≠ 0 || !localOk run.desc off (64 * n) then .error csBAD_OPERAND
    else match stks.findSome? (destFault s run.node.pod e imm) with
      | some c => .error c
      | none => .ok { s := sendBlock run e off n imm stks s, g := g, goes := .on }

/-- XCHG (R166). -/
def execXchg (at_ : Issue) (w : EngFields) (s : State) : Host.Outcome State Fault Refusal := .next (issue .xchg at_ w (xchgBody w) s)

/-- Two flights from one source bring bytes to one granule, so that they land in issue order (R293). -/
def sameGranule (f h : Flight) : Bool :=
  f.src = h.src && f.sprout = h.sprout
    && (if f.sprout then f.writes.any (fun q => h.writes.any (fun x => q.1 / 64 ≤ (x.1 + (x.2.length - 1)) / 64 && x.1 / 64 ≤ (q.1 + (q.2.length - 1)) / 64))
        else f.off = h.off && f.engines.any (fun e => h.engines.contains e))

/-- The flight at an index, when no earlier one must land before it. -/
def flightAt (s : State) (index : Nat) : Option Flight :=
  match s.flights[index]? with
  | some f => if (s.flights.take index).any (sameGranule f) then none else some f
  | none => none

/-- A granule lands whole in each of its engines and raises its channel's counter (R138, R140, R150). A flight that finds an engine or its
stack fenced gets an error response, and its node ends FAULTED (R34). -/
def landFlight (f : Flight) (off : Nat) (s : State) : State :=
  let s := f.engines.foldl (fun s e =>
    if engineFenced s e then s
    else addCounter e f.chan f.count (landPoisonable (addrLocal e + off) (f.bytes.map (fun b => (b, f.poisoned))) s)) s
  let s := if f.poisoned then notePoison f.node s else s
  if f.engines.any (engineFenced s) then faultNode f.node csFENCED s else s

/-- Landing of the flight at an index, when it is one that lands in local memory. -/
def exchangeLand (index : Nat) (s : State) : State :=
  match flightAt s index with
  | some f =>
    match f.off with
    | some off => landFlight f off { s with flights := s.flights.eraseIdx index }
    | none => s
  | none => s

def execExchangeLand (index : Nat) (s : State) : Host.Outcome State Fault Refusal := .next (exchangeLand index s)

/-! ### The sprout port -/

/-- SPRT's own meaning: the payload leaves for the port (R168). -/
def sprtBody (w : EngFields) : Body := fun e run g s =>
  let imm := w.imm.toNat
  let n := bits imm 15 8
  match (activeLanes g).head? with
  | none => .ok { s := s, g := g, goes := .on }
  | some lead =>
    let off := (rv g lead w.a.toNat).toNat
    if rpo g lead w.a.toNat || rpo g lead w.b.toNat || rpo g lead w.c.toNat then .error csPOISONED
    else if n = 0 || !localOk run.desc off (64 * n) then .error csBAD_OPERAND
    else
      let (bs, s) := readLocal e off (64 * n) s
      let p : PortWrite :=
        { node := run.node, src := 6 + e / 64, sprt := true, stream := (rv g lead w.b.toNat).toNat, pos := (rv g lead w.c.toNat).toNat,
          layer := bits imm 7 0, value := bit imm 16, pieces := [(0, bs)] }
      .ok { s := { s with portq := s.portq ++ [p] }, g := g, goes := .on }

/-- SPRT (R168). -/
def execSprt (at_ : Issue) (w : EngFields) (s : State) : Host.Outcome State Fault Refusal := .next (issue .sprt at_ w (sprtBody w) s)

/-- The port takes a waiting write: discarded at a sink, dropped with a fault, or counted and sent to its stack (R192, R193, R219). One
whose stack has no route left from its source gets an error response (R476). -/
def portTake (w : PortWrite) (s : State) : State :=
  match portCheck s w with
  | .sink n => modStream w.stream (fun e => { e with dropped := satAdd 0xFFFFFFFF e.dropped n }) s
  | .fault c => faultNode w.node c s
  | .write ws st n =>
    if ws.any (fun q => !reachable s w.src q.1) then faultNode w.node csFENCED s else
    let f : Flight :=
      { node := w.node, src := st, what := .other, sprout := true, engines := [], off := none, bytes := [], poisoned := ws.any (fun q => q.2.any (fun b => b.2)),
        writes := ws, chan := 15, count := if w.sprt then payloadGranules w else 0 }
    let s := countWindow w n s
    { s with flights := s.flights ++ [{ f with engines := [st] }] }

def sproutWrite (index : Nat) (s : State) : State :=
  match s.portq[index]? with
  | some w => portTake w { s with portq := s.portq.eraseIdx index }
  | none => s

/-- SPROUT_WRITE (R192, R193). -/
def execSproutWrite (index : Nat) (s : State) : Host.Outcome State Fault Refusal := .next (sproutWrite index s)

/-- The engines of a stack that run a node or another member of its gang (R194). -/
def gangEngines (s : State) (node : NodeRef) (st : Nat) : List Nat :=
  match findInst s node.pod node.inst with
  | none => []
  | some i =>
    match graphOf s i with
    | none => []
    | some g =>
      let ms := gangOf g.nodes node.node
      (List.range 64).filterMap (fun e => match SMap.get none s.engines (64 * st + e) with
        | some run => if run.node.pod = node.pod ∧ run.node.inst = node.inst ∧ ms.contains run.node.node then some (64 * st + e) else none
        | none => none)

/-- A sprout write is accepted by the holding stack's controller: its bytes land and counter 15 rises there (R194, R366). In a stack that
has been fenced it gets an error response, and its node ends FAULTED (R34). -/
def landSprout (f : Flight) (s : State) : State :=
  if f.engines.any (stackFenced s) then faultNode f.node csFENCED s
  else
    let s := f.writes.foldl (fun s q => landPoisonable q.1 q.2 s) s
    let s := if f.count = 0 then s
      else (f.engines.flatMap (gangEngines s f.node)).foldl (fun s e => addCounter e f.chan f.count s) s
    if f.poisoned then notePoison f.node s else s

def sproutLand (index : Nat) (s : State) : State :=
  match flightAt s index with
  | some f => if f.sprout then landSprout f { s with flights := s.flights.eraseIdx index } else s
  | none => s

/-- SPROUT_LAND (R194). -/
def execSproutLand (index : Nat) (s : State) : Host.Outcome State Fault Refusal := .next (sproutLand index s)

end Sys2Proof.Machine
end

