-- ==== Sys2Proof/Machine/HostPorts.lean ====
section
/-! DEFINITION. Host accesses through BAR2 and CXL.mem (R37, R295, R296, R337, R338, R346, R347, R365, R478), function and port resets
(R341), Bus Master Enable (R350), ATS (R349), IDE keys (R446) and port training (R469). -/

namespace Sys2Proof.Machine

open Sys2Proof

/-! ### Where an access goes (R346, R347) -/

/-- A piece of an access: device address and bytes; `csr` for the CSR range. -/
structure Piece where
  addr : Nat
  len : Nat
  csr : Bool
deriving DecidableEq, Repr

/-- What the owner PF's aperture may touch at an address (R181, R272, R346). -/
def ownerReach (s : State) (a : Nat) (write : Bool) : Bool :=
  let pl := placeOf a
  !placeFenced s pl && (match pl with
    | .stack st off => !(mapped s).any (fun r => r.2.lost && r.2.stks.contains st && r.2.off ≤ off && off < r.2.off + r.2.span)
    | .slice k _ => !write || !(k = 31 || k = 63 || (List.range 16).any (fun p => (getPod s p).graphSlices.contains k || (getPod s p).kvcSlices.contains k))
    | .tile _ _ => true
    | .local_ _ _ => true
    | _ => false)

/-- What a VF bound to pod p may touch at an address: the reach of p but its KV control area (R181, R270). -/
def vfReach (s : State) (p a : Nat) (write : Bool) : Bool :=
  (podAccess s p a write).isNone && (match placeOf a with
    | .slice k _ => !(getPod s p).kvcSlices.contains k
    | _ => true)

/-- Every granule of a range passes a check. -/
def everyGranule (a len : Nat) (ok : Nat → Bool) : Bool :=
  len ≠ 0 && (List.range ((a + len - 1) / 64 + 1 - a / 64)).all (fun i => ok (max a (64 * (a / 64 + i))))

/-- A live route leads from the hub of a function's port to the unit at an address (R476: with none, the access gets an error response). -/
def fnRouted (s : State) (fn a : Nat) : Bool := reachable s (4 + fnHub fn) a

/-- Memory that a function reaches at a device address (R346). -/
def fnReach (s : State) (fn a : Nat) (write : Bool) : Bool :=
  fnRouted s fn a && if isPF fn then s.owner = some fn && ownerReach s a write
  else match boundPod s fn with
    | some p => vfReach s p a write
    | none => false

/-- The device view: the whole access, or none where it is refused. -/
def viewPieces (s : State) (fn off len : Nat) (write : Bool) : Option (List Piece) :=
  if addrCsr < off + len ∧ off < addrCsr + 0x10000000 then
    if addrCsr ≤ off ∧ off + len ≤ addrCsr + 0x10000000 ∧ fnCsr s fn (off - addrCsr) len write then some [⟨off, len, true⟩] else none
  else if off + len ≤ 0x14000000000 ∧ everyGranule off len (fun a => fnReach s fn a write) then some [⟨off, len, false⟩]
  else none

/-- The pieces of a range of a region's linear view, a 4 KiB page at a time, by fuel. -/
def linearPieces (fuel : Nat) (r : Region) (i stop : Nat) : List Piece :=
  match fuel with
  | 0 => []
  | f + 1 =>
    if stop ≤ i then []
    else
      let n := min stop ((i / 4096 + 1) * 4096) - i
      ⟨linearAddr r i, n, false⟩ :: linearPieces f r (i + n) stop

/-- An aperture window of a VF: window offset w of window k (R347). -/
def aperPieces (s : State) (v p k w len : Nat) (write : Bool) : Option (List Piece) :=
  let a : Aper := SMap.get {} s.aper (16 * v + k)
  let check (l : List Piece) : Option (List Piece) :=
    if l.all (fun q => everyGranule q.addr q.len (fun x => fnRouted s (4 + v) x && vfReach s p x write)) then some l else none
  if (write && a.rdonly) || 4096 * a.len < w + len || 0x800000000 < w + len then none
  else match a.mode with
    | 1 => match getRegion s a.region with
      | some r => if r.pod = p && r.ready && a.base + w + len ≤ linearLen r then check (linearPieces (len / 4096 + 2) r (a.base + w) (a.base + w + len)) else none
      | none => none
    | 2 => check [⟨a.base + w, len, false⟩]
    | _ => none

/-- Where a function's access to its BAR2 goes; none where it is refused under R37. -/
def bar2Pieces (s : State) (fn off len : Nat) (write : Bool) : Option (List Piece) :=
  if !fnAlive s fn || len = 0 then none
  else if off < 0x14000000000 then viewPieces s fn off len write
  else if 4 ≤ fn ∧ 0x18000000000 ≤ off ∧ off < 0x18000000000 + 0x8000000000 then
    match boundPod s fn with
    | some p => aperPieces s (fn - 4) p ((off - 0x18000000000) / 0x800000000) ((off - 0x18000000000) % 0x800000000) len write
    | none => none
  else none

/-- The requester that a function is. -/
def fnReq (fn : Nat) : Requester := .fn fn

/-- The address lies in a peer window. -/
def inPeer (a : Nat) : Bool := match placeOf a with
  | .window _ _ => true
  | _ => false

/-- Free bytes: undefined values (R365). -/
def undefBytes (idx n : Nat) : List Byte := (List.range n).map (fun i => Config.freeByte (idx + i))

/-- One piece is read: its bytes and whether some granule is poisoned. What a partner returns is free (log entry 5). -/
def readPiece (q : Piece) (s : State) : List Byte × Bool × State :=
  if q.csr then
    let (bs, s) := csrReadBytes (q.addr - addrCsr) q.len s
    (bs, false, s)
  else if inPeer q.addr then (undefBytes s.freeIdx q.len, false, emit (.peerRead q.addr q.len) { s with freeIdx := s.freeIdx + q.len })
  else
    let (bs, s) := fetchBytes q.addr q.len s
    (bs.map (fun b => b.1), bs.any (fun b => b.2), s)

/-- Every piece in order. -/
def readPieces (l : List Piece) (s : State) : List Byte × Bool × State :=
  l.foldl (fun acc q =>
    let (bs, po, s) := readPiece q acc.2.2
    (acc.1 ++ bs, acc.2.1 || po, s)) ([], false, s)

/-- A read completes: with the bytes, or with EP set and undefined bytes where a granule is poisoned (R365). -/
def completeRead (fn : Nat) (l : List Piece) (s : State) : State :=
  let (bs, po, s) := readPieces l s
  if po then emit (.read (fnReq fn) (undefBytes s.freeIdx bs.length) true false) { s with freeIdx := s.freeIdx + bs.length }
  else emit (.read (fnReq fn) bs false false) s

/-- A request to a function that is not there: Unsupported Request for one that awaits a completion (PCIe, PRESUMED: log entry 12). -/
def noFunction (fn : Nat) (awaits : Bool) (s : State) : State := if fn < 20 && awaits then emit (.unsupported fn) s else s

/-- HOST_BAR2_READ. Every earlier posted write has landed already (R295). -/
def hostRead (fn off len : Nat) (attr : HostAttr) (s : State) : State :=
  if len = 0 then s
  else if !fnThere s fn then noFunction fn true s
  else match bar2Pieces s fn off len false with
    | some l => completeRead fn l s
    | none => refuseRead fn (fnPort fn) off attr.reqId false s

def execHostBar2Read (fn off len : Nat) (attr : HostAttr) (s : State) : Host.Outcome State Fault Refusal :=
  .next (hostRead fn off len attr s)

/-- One piece is written. -/
def writePiece (fn : Nat) (q : Piece) (bs : List Byte) (s : State) : State :=
  if q.csr then csrWriteBytes (fnReq fn) (q.addr - addrCsr) bs s
  else if inPeer q.addr then sendPeer q.addr bs false false s
  else landBytes q.addr bs s

/-- The pieces take their bytes in order. -/
def writePieces (fn : Nat) (l : List Piece) (bs : List Byte) (s : State) : State :=
  match l with
  | [] => s
  | q :: r => writePieces fn r (bs.drop q.len) (writePiece fn q (bs.take q.len) s)

/-- HOST_BAR2_WRITE: a posted write lands, or is dropped and counted. -/
def hostWrite (fn off : Nat) (bs : List Byte) (attr : HostAttr) (s : State) : State :=
  if bs.isEmpty || !fnThere s fn then s
  else match bar2Pieces s fn off bs.length true with
    | some l => writePieces fn l bs s
    | none => refuseWrite (fnPort fn) off attr.reqId false s

def execHostBar2Write (fn off : Nat) (bytes : List Byte) (attr : HostAttr) (s : State) : Host.Outcome State Fault Refusal :=
  .next (hostWrite fn off bytes attr s)

/-- An Unordered I/O write refused: Completer Abort, counted (R296, R348). -/
def refuseUio (fn off reqId : Nat) (s : State) : State :=
  let s := noteAer fn 15 s
  let p := getPort s (fnPort fn)
  emit (.writeAck fn true) (setPort (fnPort fn) (refuseNote off true false reqId { p with uioAbort := satAdd 0xFFFF p.uioAbort 1 }) s)

/-- UIO_WRITE: its completion follows the landing. -/
def uioWrite (fn off : Nat) (bs : List Byte) (attr : HostAttr) (s : State) : State :=
  if bs.isEmpty then s
  else if !fnThere s fn then noFunction fn true s
  else match bar2Pieces s fn off bs.length true with
    | some l => emit (.writeAck fn false) (writePieces fn l bs s)
    | none => refuseUio fn off attr.reqId s

def execUioWrite (fn off : Nat) (bytes : List Byte) (attr : HostAttr) (s : State) : Host.Outcome State Fault Refusal :=
  .next (uioWrite fn off bytes attr s)

/-- One piece of a write with EP set: every granule it touches is stored as poisoned (R365). -/
def poisonPiece (q : Piece) (s : State) : State :=
  if inPeer q.addr then sendPeer q.addr (List.replicate q.len 0) false true s
  else landPoisonable q.addr (List.replicate q.len (0, true)) s

/-- A write with EP set that is refused: to a register it counts as a dropped write; a UIO write completes
with Completer Abort and counts as one (R348, R365). -/
def refusePoisoned (fn off : Nat) (uio register : Bool) (attr : HostAttr) (s : State) : State :=
  if !uio then refuseWrite (fnPort fn) off attr.reqId false s
  else if register then refuseUio fn off attr.reqId (refuseWrite (fnPort fn) off attr.reqId false s)
  else refuseUio fn off attr.reqId s

/-- HOST_POISONED_WRITE. -/
def hostPoisoned (fn off len : Nat) (uio : Bool) (attr : HostAttr) (s : State) : State :=
  if len = 0 then s
  else if !fnThere s fn then noFunction fn uio s
  else
    let s := noteAer fn 12 s
    match bar2Pieces s fn off len true with
    | some l =>
      if l.any (fun q => q.csr) then refusePoisoned fn off uio true attr s
      else
        let s := l.foldl (fun s q => poisonPiece q s) s
        if uio then emit (.writeAck fn false) s else s
    | none => refusePoisoned fn off uio false attr s

def execHostPoisonedWrite (fn : Nat) (off : Nat) (len : Nat) (uio : Bool) (attr : HostAttr) (s : State) : Host.Outcome State Fault Refusal :=
  .next (hostPoisoned fn off len uio attr s)

/-! ### CXL.mem and AtomicOps -/

/-- 256 MiB, the unit of an HDM decoder's range. -/
def hdmUnit : Nat := 0x10000000

/-- The device address that a port's HDM decoders give a host range: the committed decoder that covers it whole, its range laid at the
device addresses after the skips and sizes of the decoders before it (R338; the layout is CXL's, PRESUMED: log entry 12). -/
def hdmMap (l : List Hdm) (before addr len : Nat) : Option Nat :=
  match l with
  | [] => none
  | d :: r =>
    if d.committed && hdmUnit * d.base ≤ addr && addr + len ≤ hdmUnit * (d.base + d.size) then
      some (before + hdmUnit * d.skip + (addr - hdmUnit * d.base))
    else hdmMap r (before + hdmUnit * (d.skip + d.size)) addr len

/-- Where a CXL.mem request of a port goes: what the port's PF reaches through its device view (R338). -/
def cxlPieces (s : State) (port addr len : Nat) (write : Bool) : Option (List Piece) :=
  if !fnAlive s port || len = 0 || 0x14000000000 ≤ addr then none else viewPieces s port addr len write

/-- The pieces of a CXL.mem request to a host address and the address that a refusal records: the device address, or the host's where
no decoder gives one (log entry 52). -/
def cxlRoute (s : State) (port addr len : Nat) (write : Bool) : Option (List Piece) × Nat :=
  match hdmMap (getPort s port).hdm 0 addr len with
  | some a => (cxlPieces s port a len write, a)
  | none => (none, addr)

/-- CXL_MEM_ACCESS to a host address, on a port in CXL mode: a write completes once it has landed; a refused request is counted. -/
def cxlAccess (port addr : Nat) (write : Option (List Byte)) (len : Nat) (s : State) : State :=
  if 4 ≤ port || !(getPort s port).cxl then s
  else match write with
    | none => if len = 0 then s else match cxlRoute s port addr len false with
      | (some l, _) => completeRead port l s
      | (none, a) => refuseRead port port a (freeReqId s) true { s with freeIdx := s.freeIdx + 1 }
    | some bs => if bs.isEmpty then s else match cxlRoute s port addr bs.length true with
      | (some l, _) => emit (.writeAck port false) (writePieces port l bs s)
      | (none, a) => emit (.writeAck port true) (refuseWrite port a (freeReqId s) true { s with freeIdx := s.freeIdx + 1 })

def execCxlMemAccess (port : Nat) (addr : Nat) (write : Option (List Byte)) (len : Nat) (s : State) : Host.Outcome State Fault Refusal :=
  .next (cxlAccess port addr write len s)

/-- ATOMICOP_REQUEST: Unsupported Request (R337). -/
def execAtomicOpRequest (fn : Nat) (s : State) : Host.Outcome State Fault Refusal :=
  .next (if fn < 20 then emit (.unsupported fn) (if fnThere s fn then noteAer fn 20 s else s) else s)

/-! ### Resets (R341) -/

/-- The partner ID of a function (R350). -/
def hostPartnerId (fn : Nat) : Nat := if fn < 4 then 16 + fn else fn - 4

/-- A function is an arrived host partner (R350). -/
def hostArrived (s : State) (fn : Nat) : Bool := (getFunc s fn).bme && (getPort s (fnPort fn)).linkUp

/-- A host partner that had arrived is lost: PARTNER_LOST without a window (R350). -/
def loseHost (fn : Nat) (s : State) : State := if hostArrived s fn then postDevice 0x09 (hostPartnerId fn) 0 s else s

/-- Every mailbox of a function goes back to its reset values; completions of commands acknowledged before are discarded. -/
def resetMailboxes (fn : Nat) (s : State) : State :=
  (List.range 4).foldl (fun s m =>
    if mbxExists ⟨fn, m⟩ then setMbx ⟨fn, m⟩ { epoch := (getMbx s ⟨fn, m⟩).epoch + 2 ^ 32 } s else s) s

/-- One function is reset: BAR0 and its capabilities at their reset values, mailboxes and event ring stopped. The event count stays
(R318), and so do the AER status and Max Payload Size, which PCIe excepts (log entry 12). -/
def resetFunction (fn : Nat) (s : State) : State :=
  let s := resetMailboxes fn (loseHost fn s)
  setFunc fn { seq := (getFunc s fn).seq, aer := (getFunc s fn).aer, mps := (getFunc s fn).mps } s

/-- The VFs that a PF has enabled go out of service: each is as after a reset when it is enabled again (SR-IOV). -/
def dropVfs (p : Nat) (s : State) : State :=
  (List.range 4).foldl (fun s k => if fnThere s (4 + 4 * p + k) then resetFunction (4 + 4 * p + k) s else s) s

/-- A Function Level Reset; of a PF it clears VF Enable too (R341). -/
def flr (fn : Nat) (s : State) : State := resetFunction fn (if isPF fn then dropVfs fn s else s)

/-- FUNCTION_LEVEL_RESET. -/
def execFunctionLevelReset (fn : Nat) (s : State) : Host.Outcome State Fault Refusal := .next (if fnThere s fn then flr fn s else s)

/-- PORT_RESET: every function of the port is reset, its IDE streams become Insecure; a Data Link Down loses added partners too
(R341, R352, R446). -/
def portReset (p : Nat) (linkDown : Bool) (s : State) : State :=
  if 4 ≤ p then s
  else
    let s := (portFns p).foldl (fun s fn => flr fn s) s
    let q := getPort s p
    let q := if linkDown then { q with linkUp := false, rate := 0, width := 0, cxl := false } else q
    let s := setPort p { q with ide := [] } s
    if linkDown then losePort p s else s

def execPortReset (port : Nat) (linkDown : Bool) (s : State) : Host.Outcome State Fault Refusal := .next (portReset port linkDown s)

/-- BUS_MASTER_ENABLE (R350). -/
def busMaster (fn : Nat) (on : Bool) (s : State) : State :=
  let f := getFunc s fn
  if !fnThere s fn || f.bme = on then s
  else if on then
    let s := setFunc fn { f with bme := true } s
    if (getPort s (fnPort fn)).linkUp then postDevice 0x08 (hostPartnerId fn) 0 s else s
  else
    let s := loseHost fn s
    stopFn fn (setFunc fn { getFunc s fn with bme := false } s)

def execBusMasterEnable (fn : Nat) (on : Bool) (s : State) : Host.Outcome State Fault Refusal := .next (busMaster fn on s)

/-- ATS_INVALIDATE: the translation is used no more, and the request completes (R349). -/
def execAtsInvalidate (fn : Nat) (page : Nat) (s : State) : Host.Outcome State Fault Refusal :=
  .next (if fnThere s fn then
    let f := getFunc s fn
    emit (.writeAck fn false) (setFunc fn { f with ats := f.ats.filter (fun p => p ≠ page) } s)
  else s)

/-! ### IDE and training -/

/-- Key slots of a stream: key set 0 or 1, posted, non-posted and completion sub-stream: 3 × set + sub-stream (R446). -/
def ideStore (slot : Nat) (key : BitVec 256) (i : Ide) : Ide :=
  let keys := SMap.set 0 i.keys slot key
  let whole (set : Nat) : Bool := (List.range 3).all (fun k => SMap.get 0 keys (3 * set + k) ≠ 0)
  { keys := keys, secure := whole 0 || whole 1 }

/-- IDE_KM: only inside an established SPDM session, and never in DEBUG_OPEN (R446, R451). -/
def ideKm (port stream slot : Nat) (key : BitVec 256) (session : Nat) (s : State) : State :=
  if port < 4 && stream < 4 && slot < 6 && lifecycle s ≠ 2 && s.sec.sessions.any (fun x => x.id = session && x.st = 1) then
    let p := getPort s port
    setPort port { p with ide := SMap.mod {} p.ide stream (ideStore slot key) } s
  else s

def execIdeKm (port stream : Nat) (keySet : Nat) (key : BitVec 256) (session : Nat) (s : State) : Host.Outcome State Fault Refusal :=
  .next (ideKm port stream keySet key session s)

/-- A port as its host trains it: at which of the rates and widths of R337, in which mode (CXL at 64 GT/s alone, R338) and whether
with Unordered I/O are free values (log entry 5). -/
def trained (i : Nat) (q : Port) : Port :=
  let rate := 1 + Config.freeId (i + 1) % 7
  { q with perst := false, linkUp := true, uio := Config.freeId i % 2 = 1, rate := rate,
           width := nth 16 [16, 8, 4, 2, 1] (Config.freeId (i + 2) % 5), cxl := rate = 6 && Config.freeId (i + 3) % 2 = 1 }

/-- PERST_N_DEASSERT: from 100 ms after t0, and once the boot has reached the host ports, the port trains (R333, R340, R469). -/
def perstRelease (p : Nat) (s : State) : State :=
  if p < 4 && 4 ≤ s.fw.stage && s.fw.t0 + 100000000 ≤ now s && !hubFenced s (p / 2) && !(getPort s p).linkUp then
    setPort p (trained s.freeIdx (getPort s p)) { s with freeIdx := s.freeIdx + 4 }
  else s

def execPerstNDeassert (port : Nat) (s : State) : Host.Outcome State Fault Refusal := .next (perstRelease port s)

/-! ### Register writes -/

/-- A write of an HDM decoder of a port: a committed decoder keeps its range. -/
def hdmStore (p k : Nat) (change : Hdm → Hdm) (s : State) : State :=
  let q := getPort s p
  setPort p { q with hdm := q.hdm.set k (change (nth {} q.hdm k)) } s

/-- A write of a capability register of a function that is there. The fields are those of PCIe, SR-IOV and CXL (PRESUMED, log entry
12); a value that R337 does not support is not taken. VF Enable cleared takes the VFs out of service; NumVFs is fixed while it is set. -/
def cfgStore (fn : Nat) (r : CfgReg) (v : Nat) (s : State) : State :=
  let f := getFunc s fn
  let range (change : Hdm → Hdm) (d : Hdm) : Hdm := if d.committed then d else change d
  match r with
  | .deviceControl =>
    setFunc fn { f with mps := if bits v 7 5 ≤ 2 then bits v 7 5 else f.mps, mrrs := if bits v 14 12 ≤ 5 then bits v 14 12 else f.mrrs } s
  | .deviceControl2 =>
    if isPF fn && [0, 1, 2, 5, 6, 9, 10, 13, 14].contains (bits v 3 0) then setFunc fn { f with cto := bits v 3 0 } s else s
  | .aerStatus => setFunc fn { f with aer := maskOf ((List.range 32).filter (fun b => bit f.aer b && !bit v b)) } s
  | .msixControl => setFunc fn { f with msixOn := bit v 15, msixMask := bit v 14 } s
  | .numVfs => if isPF fn && !f.vfEnable && bits v 15 0 ≤ 4 then setFunc fn { f with numVfs := bits v 15 0 } s else s
  | .sriovControl =>
    if !isPF fn then s
    else if bit v 0 then setFunc fn { f with vfEnable := true } s
    else
      let s := dropVfs fn s
      setFunc fn { getFunc s fn with vfEnable := false } s
  | .hdmBase k => if isPF fn && k < 2 then hdmStore fn k (range (fun d => { d with base := v })) s else s
  | .hdmSize k => if isPF fn && k < 2 then hdmStore fn k (range (fun d => { d with size := v })) s else s
  | .hdmSkip k => if isPF fn && k < 2 then hdmStore fn k (range (fun d => { d with skip := v })) s else s
  | .hdmControl k => if isPF fn && k < 2 then hdmStore fn k (fun d => { d with committed := bit v 9 }) s else s

/-- REGISTER_WRITE: a 32-bit write to the requesting function's BAR0 or capabilities, or to the CSR range. The capabilities answer on
a fenced port too; BAR0 does not (R478). -/
def registerWrite (req : Requester) (space : RegSpace) (off : Nat) (value : BitVec 32) (s : State) : State :=
  match space, req with
  | .csr, _ => csrReach req off 4 s (csrWriteBytes req off (leBytes 4 value.toNat))
  | .bar0, .fn f => if fnAlive s f then bar0Store f off value s else s
  | .config r, .fn f => if fnThere s f then cfgStore f r value.toNat s else s
  | _, .control => s

def execRegisterWrite (req : Requester) (space : RegSpace) (off : Nat) (value : BitVec 32) (s : State) : Host.Outcome State Fault Refusal :=
  .next (registerWrite req space off value s)

end Sys2Proof.Machine
end

