-- ==== Sys2Proof/Machine/Mgmt.lean ====
section
/-! DEFINITION. The management bus (R459, R460) and the JTAG port (R452, R453, R462). -/

namespace Sys2Proof.Machine

open Sys2Proof

/-! ### I3C common command codes (R460) -/

/-- The acorn answers on the bus while VAUX3 is in range. -/
def busReq (s : State) (body : State → State) : State := if s.pins.vaux3 then body s else s

/-- Send bytes on the bus. -/
def busOut (bs : List Byte) (s : State) : State := emit (.bus bs) s

/-- A two-byte value, most significant byte first as I3C sends it (PRESUMED; log entry 37). -/
def word16 (w : BitVec 16) : List Byte := [w.extractLsb' 8 8, w.extractLsb' 0 8]

/-- The provisioned ID, BCR and DCR of the part, as an assignment sends them. -/
def pidBytes : List Byte := (leBytes 6 Config.i3cPid.toNat).reverse

/-- A code directed at the part's dynamic address: not acknowledged in SMBus mode. -/
def inI3c (s : State) (body : State → State) : State :=
  busReq s (fun s => if s.mgmt.dyn.isSome then body s else emit .nack s)

/-- The part takes a dynamic address while it has none. -/
def assign (addr : Nat) (answer : List Byte) (s : State) : State :=
  busReq s (fun s =>
    if s.mgmt.dyn.isSome then emit .nack s
    else busOut answer { s with mgmt := { s.mgmt with dyn := some (addr % 128) } })

/-- ENTDAA: the part sends its identity and takes the address. -/
def execEntdaa (addr : Nat) (s : State) : Host.Outcome State Fault Refusal :=
  .next (assign addr (pidBytes ++ [Config.i3cBcr, Config.i3cDcr]) s)

/-- SETDASA: the part takes the address at its static address. -/
def execSetdasa (addr : Nat) (s : State) : Host.Outcome State Fault Refusal := .next (assign addr [] s)

/-- RSTDAA: back to SMBus mode. -/
def execRstdaa (s : State) : Host.Outcome State Fault Refusal :=
  .next (busReq s (fun s => { s with mgmt := { s.mgmt with dyn := none } }))

/-- ENEC. -/
def execEnec (mask : BitVec 8) (s : State) : Host.Outcome State Fault Refusal :=
  .next (inI3c s (fun s => { s with mgmt := { s.mgmt with events := s.mgmt.events ||| mask } }))

/-- DISEC. -/
def execDisec (mask : BitVec 8) (s : State) : Host.Outcome State Fault Refusal :=
  .next (inI3c s (fun s => { s with mgmt := { s.mgmt with events := s.mgmt.events &&& ~~~mask } }))

/-- GETPID. -/
def execGetpid (s : State) : Host.Outcome State Fault Refusal := .next (inI3c s (busOut pidBytes))

/-- GETBCR. -/
def execGetbcr (s : State) : Host.Outcome State Fault Refusal := .next (inI3c s (busOut [Config.i3cBcr]))

/-- GETDCR. -/
def execGetdcr (s : State) : Host.Outcome State Fault Refusal := .next (inI3c s (busOut [Config.i3cDcr]))

/-- GETSTATUS: two bytes whose bits the spec does not give, free values (log entry 5). -/
def execGetstatus (s : State) : Host.Outcome State Fault Refusal :=
  .next (inI3c s (fun s => busOut [Config.freeByte s.freeIdx, Config.freeByte (s.freeIdx + 1)] { s with freeIdx := s.freeIdx + 2 }))

/-- SETMWL. -/
def execSetmwl (len : BitVec 16) (s : State) : Host.Outcome State Fault Refusal :=
  .next (inI3c s (fun s => { s with mgmt := { s.mgmt with mwl := len } }))

/-- GETMWL. -/
def execGetmwl (s : State) : Host.Outcome State Fault Refusal := .next (inI3c s (fun s => busOut (word16 s.mgmt.mwl) s))

/-- SETMRL. -/
def execSetmrl (len : BitVec 16) (s : State) : Host.Outcome State Fault Refusal :=
  .next (inI3c s (fun s => { s with mgmt := { s.mgmt with mrl := len } }))

/-- GETMRL. -/
def execGetmrl (s : State) : Host.Outcome State Fault Refusal := .next (inI3c s (fun s => busOut (word16 s.mgmt.mrl) s))

/-! ### Register reads of either mode (R460) -/

/-- The status byte of command 0x01. -/
def statusByte (s : State) : Nat :=
  b2n (allReady s) + at_ 1 (b2n (s.thermal.dies.any (fun d => d.2.throttle))) + at_ 2 (b2n (s.thermal.dies.any (fun d => d.2.action)))
    + at_ 3 (b2n s.thermal.envOut) + at_ 4 (b2n s.thermal.trip) + at_ 5 (b2n s.pins.supply) + at_ 6 (leadHub s) + at_ 7 (b2n (lifecycle s = 2))

/-- MGMT_READ_PKG_TJ. -/
def execMgmtReadPkgTj (s : State) : Host.Outcome State Fault Refusal := .next (busReq s (fun s => busOut (leBytes 1 (wholeC (packageTj s))) s))

/-- MGMT_READ_STATUS. -/
def execMgmtReadStatus (s : State) : Host.Outcome State Fault Refusal := .next (busReq s (fun s => busOut (leBytes 1 (statusByte s)) s))

/-- MGMT_READ_POWER. -/
def execMgmtReadPower (s : State) : Host.Outcome State Fault Refusal := .next (busReq s (fun s => busOut (leBytes 2 s.power.powerW) s))

/-- MGMT_READ_CAP. -/
def execMgmtReadCap (s : State) : Host.Outcome State Fault Refusal := .next (busReq s (fun s => busOut (leBytes 2 s.power.capW) s))

/-- MGMT_READ_LIFECYCLE. -/
def execMgmtReadLifecycle (s : State) : Host.Outcome State Fault Refusal := .next (busReq s (fun s => busOut (leBytes 1 (lifecycle s)) s))

/-- MGMT_READ_DIE_TJ: command bytes 0x10 to 0x25; any other is not acknowledged. -/
def execMgmtReadDieTj (i : Nat) (s : State) : Host.Outcome State Fault Refusal :=
  .next (busReq s (fun s => if i < 22 then busOut (leBytes 1 (wholeC (indexTj s i))) s else emit .nack s))

/-! ### JTAG (R453, R462) -/

/-- The instruction that takes effect: EXTEST, CLAMP and HIGHZ only while RESET_N is asserted, INTERNAL_ACCESS only in DEBUG_OPEN; BYPASS
otherwise. -/
def jtagEffect (s : State) : Nat :=
  match s.jtag.ir with
  | 0x01 => 0x01
  | 0x02 => 0x02
  | 0x20 => if lifecycle s = 2 then 0x20 else 0xFF
  | k => if (k = 0x00 ∨ k = 0x03 ∨ k = 0x04) ∧ s.pins.resetN then k else 0xFF

/-- Who drives the boundary pins: 0 the part, 1 the boundary register, 2 nobody. -/
def jtagDrive (s : State) : Nat :=
  match jtagEffect s with
  | 0x00 => 1
  | 0x03 => 1
  | 0x04 => 2
  | _ => 0

/-- The 28 pins of the boundary register in order (R462), each with its input level and its output level where the model holds them. -/
def boundaryPins (s : State) : List (Option Bool × Option Bool) :=
  (List.range 4).map (fun p => (some (!(getPort s p).perst), none))
    ++ [(none, none), (none, none)]
    ++ (List.range 3).map (fun k => (some (bit s.mgmt.addrSel k), none))
    ++ [(none, some (!alertN s)), (none, some (!thermTripN s)), (some s.pins.pwrGood, none), (some (!s.pins.resetN), none)]
    ++ List.replicate 6 (none, none)
    ++ [(some s.pins.leadSel, none)]
    ++ (List.range 8).map (fun k => (none, some (gpio s k)))

/-- The captured cells, output enable, output and input of each pin; what the model does not hold is a free value (log entry 5). -/
def captured (s : State) : BitVec 84 :=
  BitVec.ofNat 84 (((boundaryPins s).zipIdx).map (fun q =>
    let free (k : Nat) : Nat := Config.freeId (s.freeIdx + 3 * q.2 + k) % 2
    at_ (3 * q.2) (free 0 + 2 * ((q.1.2.map b2n).getD (free 1)) + 4 * ((q.1.1.map b2n).getD (free 2))))).sum

/-- Load an instruction: the register it selects is captured and shifted out. -/
def loadIr (k : Nat) (s : State) : State :=
  if !s.pins.vaux3 then s
  else
    let s := { s with jtag := { s.jtag with ir := k } }
    match jtagEffect s with
    | 0x01 => emit (.jtag 0x0A1600D5 32) s
    | 0x00 => emit (.jtag (captured s).toNat 84) { s with freeIdx := s.freeIdx + 84 }
    | 0x02 => emit (.jtag (captured s).toNat 84) { s with freeIdx := s.freeIdx + 84 }
    | 0x20 => s
    | _ => emit (.jtag 0 1) s

/-- EXTEST. -/
def execExtest (s : State) : Host.Outcome State Fault Refusal := .next (loadIr 0x00 s)

/-- IDCODE. -/
def execIdcode (s : State) : Host.Outcome State Fault Refusal := .next (loadIr 0x01 s)

/-- SAMPLE_PRELOAD: the pins are sampled, and the boundary register is loaded. -/
def execSamplePreload (cells : BitVec 84) (s : State) : Host.Outcome State Fault Refusal :=
  .next (if s.pins.vaux3 then
    let t := loadIr 0x02 s
    { t with jtag := { t.jtag with boundary := cells } }
  else s)

/-- CLAMP. -/
def execClamp (s : State) : Host.Outcome State Fault Refusal := .next (loadIr 0x03 s)

/-- HIGHZ. -/
def execHighz (s : State) : Host.Outcome State Fault Refusal := .next (loadIr 0x04 s)

/-- INTERNAL_ACCESS: in DEBUG_OPEN it selects the IEEE 1687 network, whose instruments the spec does not give. -/
def execInternalAccess (s : State) : Host.Outcome State Fault Refusal := .next (loadIr 0x20 s)

/-- BYPASS. -/
def execBypass (s : State) : Host.Outcome State Fault Refusal := .next (loadIr 0xFF s)

/-- TRST_N_ASSERT: Test-Logic-Reset, in which IDCODE is selected (PRESUMED, IEEE 1149.1; log entry 16). -/
def execTrstNAssert (s : State) : Host.Outcome State Fault Refusal :=
  .next (if s.pins.vaux3 then { s with jtag := { s.jtag with ir := 0x01 } } else s)

end Sys2Proof.Machine
end

