-- ==== Sys2Proof/Machine/TileCmds.lean ====
section
/-! DEFINITION. Commands of the matrix tiles and the cluster vector unit: TILE_PASS, STATIONARY_FILL, BANK_EXIT, VECTOR_STEP. -/

namespace Sys2Proof.Machine

open Sys2Proof

/-! ### The drain into the sprout port (R192) -/

/-- The run's output descriptor is its node's sprout output. -/
def drainsToPort (s : State) (r : TileRun) : Bool := toPort (runTile r) (portOf s r.ref.node)

/-- The payload of one exit group for one position, kind, layer and row of the pool: (element index, its bytes with poison), and the
SATURATE events. An MX record goes as the bytes that the group's results hold (R116). -/
def drainPieces (t : TDesc) (items : List Item) : List (Nat × List (Byte × Bool)) × Nat :=
  let idx (it : Item) : Nat := (nth 0 it.coord 0).toNat
  if tdBlocked t then
    let one (k : Nat) : (Nat × List (Byte × Bool)) × Nat :=
      let mine := items.filter (fun it => idx it / 32 = k)
      let st := groupRecord t.fmt t.rnd (mine.map (fun it => (idx it % 32, it.val, 0)))
      ((32 * k, st.1.map (fun b => (b.2, mine.any (fun it => it.poison)))), st.2)
    let l := (dedup (items.map (fun it => idx it / 32))).map one
    (l.map (fun q => q.1), (l.map (fun q => q.2)).foldl (· + ·) 0)
  else
    let l := items.map (fun it =>
      let c := leaveCode t.fmt t.rnd 0 it.val
      ((idx it, (leBytes (tdUnit t) c.1).map (fun b => (b, it.poison))), c.2))
    (l.map (fun q => q.1), countIf (fun q => q.2) l)

/-- Stream and first position of a step row of the run's instance; a stream that no step holds where the row does not exist. -/
def rowStream (s : State) (node : NodeRef) (row : Nat) : Nat × Nat :=
  match (findInst s node.pod node.inst).bind (fun i => i.step.bind (fun st => st.rows[row]?)) with
  | some r => (r.stream, r.wp)
  | none => (2 ^ 32, 0)

/-- Send drained items to the port: one write for each position, kind, layer and row; SATURATE counted. -/
def drainPort (r : TileRun) (items : List Item) (s : State) : State :=
  let t := runO r
  let key (it : Item) : Coord := it.coord.drop 1
  let keys := items.foldl (fun l it => if l.contains (key it) then l else l ++ [key it]) ([] : List Coord)
  keys.foldl (fun s k =>
    let p := drainPieces t (items.filter (fun it => key it = k))
    let at_ (d : Nat) : Nat := (nth 0 k d).toNat
    let row := rowStream s r.ref.node (at_ 3)
    let w : PortWrite :=
      { node := r.ref.node, src := r.phys / 64, sprt := false, stream := row.1, pos := row.2 + at_ 0, layer := at_ 2, value := at_ 1 ≠ 0, pieces := p.1 }
    countMx (r.phys / 8) 0 0 p.2 0 { s with portq := s.portq ++ [w] }) s

/-! ### Running -/

/-- The run of a tile reference, when its node runs and no lower logical tile of the node still uses its physical tile (R87). -/
def activeRun (s : State) (ref : TileRef) : Option TileRun :=
  match s.tileRuns.find? (fun r => r.ref = ref) with
  | none => none
  | some r =>
    if isRunning s ref.node && !s.tileRuns.any (fun q => q.ref.node = ref.node && q.phys = r.phys && q.ref.tile < ref.tile && !q.ended)
    then some r else none

/-- One exit group to its destination: the sprout port, or the scratchpad, where a poisoned result is noted in the run (R192, R366). -/
def exitGroup (r : TileRun) (items : List Item) (s : State) : State :=
  if drainsToPort s r then drainPort r items s
  else
    let s := storeGroup r items s
    if items.any (fun it => it.poison) then
      { s with tileRuns := s.tileRuns.map (fun q => if q.ref = r.ref then { q with poisoned := true } else q) }
    else s

/-- A STREAM pass's first n slots, their results stored slot by slot (R74). -/
def streamOn (r : TileRun) (n : Nat) (s : State) : State :=
  let res := streamItems s r n
  res.1.foldl (fun s items => exitGroup r items s) (countMx (r.phys / 8) 0 0 0 res.2 s)

/-- One pass (R70, R71, R74), after the list's lines and the moving elements it reads. -/
def passOn (r : TileRun) (s : State) : State :=
  let t := runTile r
  let n := slotsPerPass t
  let s := moveLoads r r.pass n (fetchList r 1 n s)
  if t.stream then streamOn r n (putRun (advance { r with pass := r.pass + 1, tag := !r.tag }) (fetchList r 2 n s))
  else accumulate r s

/-- A pass whose list stops it at slot n: a stream stores the results of the slots before, and the node ends (R120). -/
def passCut (r : TileRun) (gen n cause : Nat) (s : State) : State :=
  let s := moveLoads r r.pass n (fetchList r gen n s)
  faultNode r.ref.node cause (if (runTile r).stream then streamOn r n s else s)

/-- TILE_PASS (R71, R120, R366). -/
def tilePass (ref : TileRef) (s : State) : State :=
  match activeRun s ref with
  | none => s
  | some r =>
    if !passReady r || nodeCancelled s ref.node then s
    else match listCut s r 1 r.pass, (if (runTile r).stream then listCut s r 2 r.pass else none) with
      | some c, _ => passCut r 1 c.1 c.2 s
      | none, some c => passCut r 2 c.1 c.2 s
      | none, none => passOn r s

def execTilePass (run : TileRef) (s : State) : Host.Outcome State Fault Refusal := .next (tilePass run s)

/-- STATIONARY_FILL (R78). -/
def stationaryFill (ref : TileRef) (s : State) : State :=
  match activeRun s ref with
  | none => s
  | some r =>
    if r.ended then s
    else match nextFill r with
      | some p => fillRegister r p s
      | none => s

def execStationaryFill (run : TileRef) (s : State) : Host.Outcome State Fault Refusal := .next (stationaryFill run s)

/-- The exit of a waiting bank to its destination (R74, R109, R110). -/
def exitOn (r : TileRun) (bank : Bool) (b : Nat) (s : State) : State :=
  let n := slotsPerPass (runTile r)
  if (runTile r).exit then rowsExit r bank b s
  else
    let s := fetchList r 2 n s
    (bankItems s r bank b n).foldl (fun s items => exitGroup r items s) (putRun (advance (popBank r bank)) s)

/-- An exit whose scatter list stops it at slot n: the exit groups before stand, and the node ends (R120). -/
def exitCut (r : TileRun) (bank : Bool) (b n cause : Nat) (s : State) : State :=
  let s := fetchList r 2 n s
  faultNode r.ref.node cause ((bankItems s r bank b n).foldl (fun s items => exitGroup r items s) s)

/-- BANK_EXIT: the oldest waiting bank (R74, R120, R366). -/
def bankExit (ref : TileRef) (s : State) : State :=
  match activeRun s ref with
  | none => s
  | some r =>
    match r.exits with
    | [] => s
    | e :: _ =>
      match listCut s r 2 e.2 with
      | some c => exitCut r e.1 e.2 c.1 c.2 s
      | none => exitOn r e.1 e.2 s

def execBankExit (run : TileRef) (s : State) : Host.Outcome State Fault Refusal := .next (bankExit run s)

/-! ### The vector unit (R88-R91) -/

/-- Sources of an operation. -/
def vecSources (op : VecOp) : Nat :=
  match op with
  | .fadd => 2
  | .fsub => 2
  | .fmul => 2
  | .fma => 3
  | .fmax => 2
  | .fmin => 2
  | .cmpLt => 2
  | _ => 1

/-- A descriptor names a tensor in one of the cluster's scratchpads. -/
def vecTd (s : State) (cluster : Nat) (q : Nat × BitVec 1024) : Bool :=
  q.1 < 8 && tdOk q.2.toNat && (tdParse q.2.toNat).space = 1 && !tileFenced s (8 * cluster + q.1)

/-- Extents of the result of an operation over a source. -/
def vecShape (op : VecOp) (ext : List Nat) : List Nat := if vecReduces op then ext.set 0 1 else ext

/-- A source of a vector step: its extents, and the lane at a coordinate with whether its conversion saturates. -/
structure VecSrc where
  ext : List Nat
  lane : Coord → Lane × Bool

/-- The sources of a step: drain rows first where it names a drain (R88). -/
def vecSrcs (s : State) (cluster : Nat) (v : VectorDesc) : List VecSrc :=
  let mem := v.srcs.map (fun q =>
    let td := tdParse q.2.toNat
    { ext := td.ext, lane := fun c => sourceLane s (addrTile (8 * cluster + q.1)) td c : VecSrc })
  match v.drain with
  | none => mem
  | some ref =>
    match s.tileRuns.find? (fun r => r.ref = ref) with
    | none => mem
    | some r =>
      let cols := maxNat (r.vrows.map (fun row => row.length))
      { ext := [cols, r.vrows.length, 1, 1, 1],
        lane := fun c => (nth (0#32, false) (nth [] r.vrows (nth 0 c 1).toNat) (nth 0 c 0).toNat, false) : VecSrc } :: mem

/-- The result of a step at a coordinate of its destination, and its SATURATE events. -/
def vecResult (op : VecOp) (srcs : List VecSrc) (c : Coord) : Lane × Nat :=
  let none_ : VecSrc := { ext := [], lane := fun _ => ((0#32, false), false) }
  if vecReduces op then
    let x := nth none_ srcs 0
    let row := (List.range (nth 1 x.ext 0)).map (fun i => x.lane (c.set 0 (Int.ofNat i)))
    (vecReduce op (row.map (fun q => q.1)), countIf (fun q => q.2) row)
  else
    let at_ (k : Nat) : Lane × Bool := (nth none_ srcs k).lane c
    (vecElem op (at_ 0).1 (at_ 1).1 (at_ 2).1, b2n (at_ 0).2 + b2n (at_ 1).2 + b2n (at_ 2).2)

/-- VECTOR_STEP on a cluster that runs a MATRIX node; a step whose descriptors do not fit each other does not occur (log entry 29). -/
def vectorStep (cluster : Nat) (v : VectorDesc) (s : State) : State :=
  match s.tileRuns.find? (fun r => r.ref.core = cluster && isRunning s r.ref.node) with
  | none => s
  | some run =>
    let srcs := vecSrcs s cluster v
    let td := tdParse v.dst.2.toNat
    let drainOk := match v.drain with
      | some ref => ref.core = cluster && s.tileRuns.any (fun r => r.ref = ref && !r.vrows.isEmpty)
      | none => true
    if !(drainOk && v.srcs.all (vecTd s cluster) && vecTd s cluster v.dst && isStore td.fmt td.scaled
        && srcs.length = vecSources v.op && srcs.all (fun x => vecShape v.op x.ext = td.ext)) then s
    else
      let res := (allCoords td.ext).map (fun c => (c, vecResult v.op srcs c))
      let items := res.map (fun q => { coord := q.1, val := .value (fp32Val q.2.1.1), poison := q.2.1.2 : Item })
      let addrs := v.srcs.flatMap (fun q =>
        let t := tdParse q.2.toNat
        (allCoords t.ext).flatMap (fun c => recAddrs t (addrTile (8 * cluster + q.1) + (elemAddr t c).1.toNat)))
      let ev := v.srcs.foldl (fun n q =>
        let t := tdParse q.2.toNat
        let e := recordEvents s t ((allCoords t.ext).map (fun c => addrTile (8 * cluster + q.1) + (elemAddr t c).1.toNat))
        (n.1 + e.1, n.2 + e.2)) (0, 0)
      let s := touch addrs s
      let st := storeAll (addrTile (8 * cluster + v.dst.1)) td items s
      let sat := (res.map (fun q => q.2.2)).foldl (· + ·) 0 + st.2
      let s := countMx cluster ev.1 ev.2 sat 0 st.1
      let s := match v.drain with
        | some ref => { s with tileRuns := s.tileRuns.map (fun r => if r.ref = ref then { r with vrows := [] } else r) }
        | none => s
      if items.any (fun it => it.poison) then notePoison run.ref.node s else s

def execVectorStep (cluster : Nat) (desc : VectorDesc) (s : State) : Host.Outcome State Fault Refusal := .next (vectorStep cluster desc s)

end Sys2Proof.Machine
end

