-- ==== Sys2Proof/Machine/NodeCmds.lean ====
section
/-! DEFINITION. Commands of nodes: their start and end (R249, R253, R256, R258), COPY (R190, R239, R297, R298, R301), SYNC (R240,
R302, R303, R307) and HOST_EVENT nodes (R238). -/

namespace Sys2Proof.Machine

open Sys2Proof

/-! ### Start and end -/

/-- NODE_START (R253). -/
def execNodeStart (node : NodeRef) (s : State) : Host.Outcome State Fault Refusal := .next (startPlanned node s)

/-- BEST_EFFORT_START (R256). -/
def execBestEffortStart (node : NodeRef) (s : State) : Host.Outcome State Fault Refusal := .next (startBestEffort node s)

/-- NODE_END (R249, R294). -/
def execNodeEnd (node : NodeRef) (s : State) : Host.Outcome State Fault Refusal := .next (completeNode node s)

/-- The banks of a node that wait to exit are drained (R258): one exit each of at most two banks for each tile. -/
def drainNode (ref : NodeRef) (s : State) : State :=
  let once (s : State) : State := (s.tileRuns.filter (fun r => r.ref.node = ref)).foldl (fun s r => bankExit r.ref s) s
  once (once s)

/-- A running node of a cancelled instance stops: MATRIX drains first; issued writes land first; no FINAL write follows (R258, R300). -/
def stopNode (ref : NodeRef) (s : State) : State :=
  if isRunning s ref && nodeCancelled s ref then
    let s := drainNode ref s
    if isRunning s ref && issuedLanded s ref then checkEnd ref.pod ref.inst (finishNode ref .part csCANCELLED s) else s
  else s

/-- NODE_STOPPED (R258). -/
def execNodeStopped (node : NodeRef) (s : State) : Host.Outcome State Fault Refusal := .next (stopNode node s)

/-! ### Copies (R239) -/

/-- Bytes of granules as a reader has them, by granule. -/
abbrev Fetched := SMap (List (Byte × Bool))

def fetchedByte (m : Fetched) (a : Nat) : Byte × Bool := nth (0, false) (SMap.get [] m (a / 64)) (a % 64)

/-- A DMA channel's read of a granule: read-ahead bytes it holds for the node, what a partner returns for a window (log entry 5), or
memory itself, never a mirror (R279, R301). -/
def dmaRead (ref : NodeRef) (g : Nat) (s : State) : List (Byte × Bool) × State :=
  match ((getPod s ref.pod).ahead.filter (fun a => a.node = ref)).findSome? (fun a => a.held.find? (fun h => h.1 = g)) with
  | some h => (h.2.1.map (fun b => (b, h.2.2)), s)
  | none =>
    match placeOf (64 * g) with
    | .window _ _ =>
      let (bs, s) := freeBytes 64 s
      (bs.map (fun b => (b, false)), emit (.peerRead (64 * g) 64) s)
    | _ =>
      let r := fetchGranule g s
      (oldView s ref (64 * g) (r.1.1.map (fun b => (b, r.1.2))), r.2)

/-- Read granules in order. -/
def dmaReadAll (ref : NodeRef) (gs : List Nat) (s : State) : Fetched × State :=
  gs.foldl (fun r g =>
    let x := dmaRead ref g r.2
    (SMap.put r.1 g x.1, x.2)) ([], s)

/-- Bytes of the record at an address, and its poison. -/
def fetchedRecord (m : Fetched) (a n : Nat) : List Byte × Bool :=
  let l := (List.range n).map (fun i => fetchedByte m (a + i))
  (l.map (fun b => b.1), l.any (fun b => b.2))

/-- A copy that moves records as they are: a block format, or one that is not a store format (R239; DEDUCED, log entry 30). -/
def copyVerbatim (t : TDesc) : Bool := tdBlocked t || !isStore t.fmt t.scaled

/-- The bytes a TENSOR copy writes for one coordinate (R57, R239). DESIGN CHOICE (log entry 30): R64 names no counter for the conversions
of a DMA channel, and none counts. -/
def copyCells (so do_ : Nat) (st dt : TDesc) (m : Fetched) (c : Coord) : List Cell :=
  let r := fetchedRecord m (coordAddr so st c) (tdUnit st)
  let a := coordAddr do_ dt c
  if copyVerbatim dt then cellsOf a r.1 r.2
  else
    let v := nth .nan (loadRecord st.fmt st.scaled r.1).vals 0
    cellsOf a (leBytes (tdUnit dt) (convertTo dt.fmt dt.rnd (if dt.rnd = 2 then itemBits dt c else 0) v).1) r.2

/-- Cut bytes into runs of consecutive addresses. -/
def joinCells (l : List Cell) : List (List Cell) :=
  l.foldr (fun c acc =>
    match acc with
    | (d :: r) :: t => if d.1 = c.1 + 1 then (c :: d :: r) :: t else [c] :: (d :: r) :: t
    | _ => [c] :: acc) []

/-- Send the bytes of one granule: landed, or written into a window (R289, R299). -/
def sendCells (ref : NodeRef) (final : Bool) (l : List Cell) (s : State) : State :=
  match l with
  | [] => s
  | c :: _ =>
    let s := if l.any (fun x => x.2.2) then notePoison ref s else s
    match placeOf c.1 with
    | .window _ _ =>
      (joinCells l).foldl (fun s run =>
        sendPeerOf ref (match run with | x :: _ => x.1 | [] => 0) (run.map (fun x => x.2.1)) final (run.any (fun x => x.2.2)) s) s
    | _ => landCellsAt (c.1 / 64) l s

/-- Send the bytes of a unit granule by granule. In the last unit of the walk, with FINAL, the last granule of the walk is held, or sent
at once when it is the only one (R297, R298). -/
def sendUnit (ref : NodeRef) (final : Bool) (gs unit : List Nat) (l : List Cell) (s : State) : State :=
  let mine (g : Nat) : List Cell := l.filter (fun c => c.1 / 64 = g)
  let last := gs.getLast?
  let isLast (g : Nat) : Bool := final && last = some g
  let s := (unit.filter (fun g => !isLast g || gs.length = 1)).foldl (fun s g => sendCells ref (isLast g) (mine g) s) s
  modNode ref (fun n => { n with
    units := n.units + 1
    work := gs.length ≤ unitLen * (n.units + 1)
    hold := if 1 < gs.length then (unit.find? isLast).map mine else none }) s

/-- The next 4 KiB unit of a copy (R258): `gs` are the destination's granules in walk order; the coordinates whose bytes lie in the unit's
granules are read and sent. -/
def copyUnit (ref : NodeRef) (final : Bool) (coords : List Coord) (src dst : Coord → List Nat) (cells : Fetched → Coord → List Cell)
    (s : State) : State :=
  let gs := dedup (coords.flatMap dst)
  let k := match getNode s ref with
    | some n => n.units
    | none => 0
  let unit := (gs.drop (unitLen * k)).take unitLen
  let cs := coords.filter (fun c => (dst c).any (fun g => unit.contains g))
  let (m, s) := dmaReadAll ref (dedup (cs.flatMap src)) s
  sendUnit ref final gs unit ((cs.flatMap (cells m)).filter (fun c => unit.contains (c.1 / 64))) s

/-- The cause of the first granule of a list that cannot be accessed. -/
def granulesFault (s : State) (p : Nat) (write : Bool) (gs : List Nat) : Option Nat :=
  gs.findSome? (fun g => rangeFault s p (4 + (getPod s p).hub) (64 * g) 64 write)

/-- A running COPY node of a mode that has a unit left to copy; none once its instance is cancelled (R258). -/
def copyReady (s : State) (ref : NodeRef) (gather : Bool) : Option (Inst × Graph × CopyBody) :=
  match runningKind s ref 3 with
  | none => none
  | some (i, g, r) =>
    let b := copyOf g r
    match i.nodes[ref.node]? with
    | some n => if b.gather = gather ∧ n.work = false ∧ i.cancelled = false then some (i, g, b) else none
    | none => none

/-- The granules of an element or record of a tensor. -/
def coordGranules (origin : Nat) (t : TDesc) (c : Coord) : List Nat := (recAddrs t (coordAddr origin t c)).map (fun a => a / 64)

/-- COPY_TENSOR's own meaning, one unit of the copy; every granule is checked before any flit leaves (R37, R239, R258, R300). -/
def copyTensor (ref : NodeRef) (s : State) : State :=
  match copyReady s ref false with
  | none => s
  | some (i, g, b) =>
    let st := nth (tdParse 0) g.bufs b.src
    let dt := nth (tdParse 0) g.bufs b.dst
    let so := copyOrigin i b b.peerSrc
    let do_ := copyOrigin i b b.peerDst
    let sg := tensorGranules so st
    let dg := tensorGranules do_ dt
    if st.space = 1 || dt.space = 1 then faultNode ref csBAD_ADDRESS s
    else match granulesFault s ref.pod false sg, granulesFault s ref.pod true dg with
      | some c, _ => faultNode ref c s
      | none, some c => faultNode ref c s
      | none, none =>
        copyUnit ref b.final (walkCoords dt) (coordGranules so st) (coordGranules do_ dt) (copyCells so do_ st dt) s

/-- COPY_TENSOR (R239). -/
def execCopyTensor (node : NodeRef) (s : State) : Host.Outcome State Fault Refusal := .next (copyTensor node s)

/-! ### KV_GATHER (R190) -/

/-- What a gather needs of its row's stream, its pool and page table: none for a sink row (R219), or the cause KV_RANGE or POISONED. -/
def gatherSource (s : State) (ref : NodeRef) (i : Inst) (b : CopyBody) (dt : TDesc) : Except Nat (Option (Region × List Pte)) :=
  match i.step.bind (fun st => st.rows[b.row]?) with
  | none => .error csKV_RANGE
  | some row =>
    let e := getStream s row.stream
    match poolOf s ref.pod e.pool, windowOf s ref.pod ref.inst row.stream with
    | some (_, r), some w =>
      if w.sink then .ok none
      else if r.layers ≤ b.l1 || tdExt dt 0 ≠ r.hdim || tdExt dt 2 ≠ r.heads || windowMark s w < b.posB then .error csKV_RANGE
      else if tablePoisoned s e then .error csPOISONED
      else if (List.range (b.posB - b.posA)).any (fun k => match entryAt e.pt (b.posA + k) with
          | some t => t.st ≠ .resident && t.st ≠ .shared
          | none => true) then .error csKV_RANGE
      else if tdBlocked dt && dt.fmt ≠ r.fmt then .error csKV_RANGE
      else if !tdBlocked dt && !isStore dt.fmt dt.scaled then .error csKV_RANGE
      else .ok (some (r, e.pt))
    | _, _ => .error csKV_RANGE

/-- Device address of the head vector that a destination coordinate names. -/
def gatherAddr (r : Region) (pt : List Pte) (b : CopyBody) (c : Coord) : Nat :=
  let at_ (d : Nat) : Nat := (nth 0 c d).toNat
  let pos := b.posA + at_ 1
  match entryAt pt pos with
  | some t => kvAddr r t.first t.sizeExp t.frame pos (b.l0 + at_ 4) (at_ 2) (at_ 3 ≠ 0) (elemByte r.fmt (at_ 0))
  | none => 0

/-- The granules of the pool that a destination coordinate reads. -/
def gatherGranules (r : Region) (pt : List Pte) (b : CopyBody) (c : Coord) : List Nat :=
  let a := gatherAddr r pt b c
  [a / 64, (a + recBytes r.fmt false - 1) / 64]

/-- The bytes a gather writes for one coordinate: converted under R57, MXFP4 records as they are (DEDUCED, log entry 30); no counter
counts the conversions (DESIGN CHOICE, log entry 30). -/
def gatherCells (r : Region) (pt : List Pte) (b : CopyBody) (do_ : Nat) (dt : TDesc) (m : Fetched) (c : Coord) : List Cell :=
  let x := fetchedRecord m (gatherAddr r pt b c) (recBytes r.fmt false)
  let a := coordAddr do_ dt c
  if tdBlocked dt then cellsOf a x.1 x.2
  else
    let v := nth .nan (loadRecord r.fmt false x.1).vals ((nth 0 c 0).toNat % blockLen r.fmt false)
    cellsOf a (leBytes (tdUnit dt) (convertTo dt.fmt dt.rnd (if dt.rnd = 2 then itemBits dt c else 0) v).1) x.2

/-- KV_GATHER's own meaning, one unit of the copy; its walk is a descriptor-mode one, which keeps no state (R186, R189). A sink row's part
copies nothing (R219). -/
def kvGather (ref : NodeRef) (s : State) : State :=
  match copyReady s ref true with
  | none => s
  | some (i, g, b) =>
    let dt := nth (tdParse 0) g.bufs b.dst
    let do_ := copyOrigin i b b.peerDst
    match gatherSource s ref i b dt with
    | .error c => faultNode ref c s
    | .ok none => modNode ref (fun n => { n with work := true }) (undefineGranules ref.pod (tensorGranules do_ dt) s)
    | .ok (some (r, pt)) =>
      let sg := dedup ((walkCoords dt).flatMap (gatherGranules r pt b))
      if dt.space = 1 then faultNode ref csBAD_ADDRESS s
      else match granulesFault s ref.pod false sg, granulesFault s ref.pod true (tensorGranules do_ dt) with
        | some c, _ => faultNode ref c s
        | none, some c => faultNode ref c s
        | none, none =>
          copyUnit ref b.final (walkCoords dt) (gatherGranules r pt b) (coordGranules do_ dt) (gatherCells r pt b do_ dt) s

/-- KV_GATHER (R190). -/
def execKvGather (node : NodeRef) (s : State) : Host.Outcome State Fault Refusal := .next (kvGather node s)

/-- FINAL_WRITE: the held write goes once every other write is acknowledged, unless the instance is cancelled (R298); where its address
is refused by then, the node ends with that cause and no FINAL write is sent (R300). -/
def finalWrite (ref : NodeRef) (s : State) : State :=
  if !isRunning s ref || nodeCancelled s ref then s
  else match getNode s ref with
    | none => s
    | some n =>
      match n.hold with
      | some l =>
        if !n.unacked.isEmpty then s
        else match granulesFault s ref.pod true (dedup (l.map (fun c => c.1 / 64))) with
          | some c => faultNode ref c s
          | none => sendCells ref true l (modNode ref (fun n => { n with hold := none }) s)
      | none => s

def execFinalWrite (node : NodeRef) (s : State) : Host.Outcome State Fault Refusal := .next (finalWrite node s)

/-! ### Read-ahead (R301) -/

/-- Predecessors that must have ended before read-ahead: all but JOIN, WAIT_LAND and HOST_EVENT nodes. -/
def aheadPreds (g : Graph) (n : Nat) : List Nat :=
  (predsOf g n).filter (fun q =>
    let r := nodeRec g q
    !(r.kind = 6 || (r.kind = 5 && ((syncOf g r).mode = 0 || (syncOf g r).mode = 3))))

/-- The DMA channel of a COPY node not yet started: the one planned for it, or for a best-effort node the one it would take now (R256). -/
def aheadChannel (s : State) (i : Inst) (g : Graph) (node : Nat) (n : NodeRun) : Option Nat :=
  if i.promised then n.cores.head?
  else ((bestEffortCores s i g (nodeRec g node).gang).bind (fun l => (l.find? (fun m => m.1 = node)).map (fun m => m.2.cores))).bind List.head?

/-- The channel of a planned COPY node whose source may be fetched ahead, with the source's granules. -/
def aheadPlan (s : State) (ref : NodeRef) : Option (Nat × List Nat) :=
  match findInst s ref.pod ref.inst with
  | none => none
  | some i =>
    match graphOf s i, i.nodes[ref.node]? with
    | some g, some n =>
      let r := nodeRec g ref.node
      let b := copyOf g r
      if !i.cancelled && r.kind = 3 && !b.gather && n.st = .notStarted
          && (aheadPreds g ref.node).all (fun q => match i.nodes[q]? with | some m => !live m | none => true) then
        match aheadChannel s i g ref.node n with
        | some c => some (c, tensorGranules (copyOrigin i b b.peerSrc) (nth (tdParse 0) g.bufs b.src))
        | none => none
      else none
    | _, _ => none

/-- Granules a channel holds. -/
def aheadHeld (v : Pod) (chan : Nat) : Nat := ((v.ahead.filter (fun a => a.chan = chan)).map (fun a => a.held.length)).foldl (· + ·) 0

/-- Fetch the next granule of the walk that is not held, outside every active ACQUIRE, within 64 KiB a node and 256 KiB a channel. -/
def readAhead (ref : NodeRef) (s : State) : State :=
  match aheadPlan s ref with
  | none => s
  | some (chan, gs) =>
    let v := getPod s ref.pod
    let mine := match v.ahead.find? (fun a => a.node = ref) with
      | some a => a
      | none => { node := ref, chan := chan, held := [] }
    match gs.find? (fun g => !mine.held.any (fun h => h.1 = g) && !acquired s ref.pod (64 * g)
        && (rangeFault s ref.pod (4 + v.hub) (64 * g) 64 false).isNone) with
    | none => s
    | some g =>
      if 1024 ≤ mine.held.length || 4096 ≤ aheadHeld v chan then s
      else
        let (x, s) := fetchGranule g s
        let l := oldView s ref (64 * g) (x.1.map (fun b => (b, x.2)))
        let a := { mine with held := mine.held ++ [(g, l.map (fun b => b.1), l.any (fun b => b.2))] }
        modPod ref.pod (fun v => { v with ahead := v.ahead.filter (fun q => q.node ≠ ref) ++ [a] }) s

/-- DMA_READ_AHEAD (R301). -/
def execDmaReadAhead (node : NodeRef) (s : State) : Host.Outcome State Fault Refusal := .next (readAhead node s)

/-! ### SYNC and HOST_EVENT nodes -/

/-- A node that does its work at once ends DONE. -/
def endAtOnce (ref : NodeRef) (s : State) : State := checkEnd ref.pod ref.inst (finishNode ref .done csNONE s)

/-- A running SYNC node of a mode, with its body. -/
def syncReady (s : State) (ref : NodeRef) (mode : Nat) : Option SyncBody :=
  match runningKind s ref 5 with
  | none => none
  | some (_, g, r) => if (syncOf g r).mode = mode then some (syncOf g r) else none

/-- SYNC_JOIN (R240). -/
def execSyncJoin (node : NodeRef) (s : State) : Host.Outcome State Fault Refusal :=
  .next (if (syncReady s node 0).isSome then endAtOnce node s else s)

/-- Read-ahead in a range is discarded (R302). -/
def discardAhead (addr len : Nat) (v : Pod) : Pod :=
  { v with ahead := v.ahead.map (fun a => { a with held := a.held.filter (fun h => !(decide (addr ≤ 64 * h.1) && decide (64 * h.1 < addr + len))) }) }

/-- ACQUIRE: an entry, or ACQUIRE_FULL with all 16 active (R302, R303). -/
def syncAcquire (ref : NodeRef) (s : State) : State :=
  match syncReady s ref 1 with
  | none => s
  | some b =>
    let v := getPod s ref.pod
    if 16 ≤ v.acquires.length then faultNode ref csACQUIRE_FULL s
    else
      let v := discardAhead b.addr b.len v
      endAtOnce ref (setPod ref.pod { v with acquires := v.acquires ++ [{ inst := ref.inst, addr := b.addr, len := b.len }] } s)

def execSyncAcquire (node : NodeRef) (s : State) : Host.Outcome State Fault Refusal := .next (syncAcquire node s)

/-- RELEASE: the oldest entry of the instance with the same range goes (R303). -/
def syncRelease (ref : NodeRef) (s : State) : State :=
  match syncReady s ref 2 with
  | none => s
  | some b =>
    let a : Acquire := { inst := ref.inst, addr := b.addr, len := b.len }
    endAtOnce ref (modPod ref.pod (fun v => { v with acquires := v.acquires.erase a }) s)

def execSyncRelease (node : NodeRef) (s : State) : Host.Outcome State Fault Refusal := .next (syncRelease node s)

/-- SYNC_WAIT_LAND: the node begins to wait (R240). -/
def execSyncWaitLand (node : NodeRef) (s : State) : Host.Outcome State Fault Refusal :=
  .next (if (syncReady s node 3).isSome then modNode node (fun n => { n with waiting := true }) s else s)

/-- The landing counter of a waiting WAIT_LAND node is armed and has reached its count (R307). -/
def landReached (s : State) (ref : NodeRef) (b : SyncBody) : Bool :=
  let c := SMap.get {} s.land (16 * ref.pod + b.chan)
  c.armed && b.count ≤ c.count && (match getNode s ref with | some n => n.waiting | none => false)

/-- WAIT_LAND_END (R307). -/
def waitLandEnd (ref : NodeRef) (s : State) : State :=
  match syncReady s ref 3 with
  | some b => if landReached s ref b then endAtOnce ref s else s
  | none => s

def execWaitLandEnd (node : NodeRef) (s : State) : Host.Outcome State Fault Refusal := .next (waitLandEnd node s)

/-- HOST_EVENT: the event with VALUE, instance and node ID, and the end of the node (R238, R326). -/
def hostEvent (ref : NodeRef) (s : State) : State :=
  match runningKind s ref 6 with
  | none => s
  | some (i, _, r) => endAtOnce ref (postPod ref.pod 0x0E r.value (i.num + at_ 32 ref.node) s)

def execHostEventNode (node : NodeRef) (s : State) : Host.Outcome State Fault Refusal := .next (hostEvent node s)

end Sys2Proof.Machine
end

