-- ==== Sys2Proof/Machine/Partners.lean ====
section
/-! DEFINITION. Partners on the switch (R350-R354) and the transfer of ownership (R344, R345). -/

namespace Sys2Proof.Machine

open Sys2Proof

/-! ### PARTNER_ADD (R351) -/

def spPartnerAdd : Spec :=
  { op := 0x50, src := .own, podRule := .mustNot, flag := false, reads := false,
    fields := [(79, 64), (81, 80), (83, 82), (84, 84), (159, 96)] }

/-- A port can reach partners: in service and up. -/
def portUp (s : State) (p : Nat) : Bool := !portFenced s p && (getPort s p).linkUp

def partnerAdd (sub : Submission) (tok : CmdTok) (s : State) : State :=
  let e := sub.entry
  let id := ent e 79 64
  let kind := ent e 81 80
  let port := ent e 83 82
  let probe := ent e 159 96
  guarded spPartnerAdd false sub tok (32 ≤ id && id ≤ 95 && (kind = 1 || kind = 2) && probe % 4 = 0) true s (fun s =>
    if (getPartner s id).state ≠ .absent || !portUp s port then only sub tok stNOT_PERMITTED 0 0 s
    else
      let p : Partner := { state := .probing, kind := kind, port := port, uio := bit e.toNat 84, probe := probe, completer := 0, tok := some tok }
      postFirst tok 0 (emit (.probe id probe) (setPartner id p s)))

/-- PARTNER_ADD. -/
def execPartnerAdd (sub : Submission) (s : State) : Host.Outcome State Fault Refusal :=
  .next (runCmd spPartnerAdd (fun _ => true) sub s (partnerAdd sub))

/-- The FINAL completion of a partner's command. -/
def partnerFinal (p : Partner) (st : Status) (s : State) : State :=
  match p.tok with
  | some tok => postFinal tok st 0 0 s
  | none => s

/-- PROBE_COMPLETE: ACTIVE with its completer recorded, or free again (R351). -/
def probeComplete (id : Nat) (ok : Bool) (completer : Nat) (s : State) : State :=
  let p := getPartner s id
  if p.state ≠ .probing then s
  else if ok then
    partnerFinal p stOK (postDevice 0x08 id p.kind (setPartner id { p with state := .active, completer := completer % 2 ^ 16, tok := none } s))
  else partnerFinal p stPARTNER_GONE (setPartner id {} s)

def execProbeComplete (partner : Nat) (ok : Bool) (completer : Nat) (s : State) : Host.Outcome State Fault Refusal :=
  .next (probeComplete partner ok completer s)

/-! ### Timeouts and containment (R352) -/

/-- The oldest park or ship over a partner's windows, by its stream. -/
def senderOver (s : State) (id : Nat) : Option Nat :=
  s.cmds.findSome? (fun c => match senderOf c with
    | some (i, w, _, _) => if (partnerWindows s id).contains w then some i else none
    | none => none)

/-- The pod holds a window of the partner. -/
def podOver (s : State) (id p : Nat) : Bool := (partnerWindows s id).any (fun w => (getWindow s w).pod = p)

/-- The request that timed out fails: its node ends FAULTED with PARTNER_GONE, or the park or ship it belongs to ends so (R300). -/
def failRequest (id : Nat) (node : Option NodeRef) (s : State) : State :=
  match node with
  | some ref => if podOver s id ref.pod then faultNode ref csPARTNER_GONE (failWrite (partnerWindows s id).contains ref s) else s
  | none => match senderOver s id with
    | some i => stopStreamWork i stPARTNER_GONE s
    | none => s

/-- COMPLETION_TIMEOUT: the request fails; an ACTIVE partner becomes CONFIRMING and is probed, while one that confirms or is
removed already stays as it is. The PF of its port notes the timeout. -/
def completionTimeout (id : Nat) (node : Option NodeRef) (s : State) : State :=
  let p := getPartner s id
  if p.state = .active then
    emit (.probe id p.probe) (setPartner id { p with state := .confirming } (failRequest id node (noteAer p.port 14 s)))
  else if p.state = .confirming || p.state = .removing then failRequest id node (noteAer p.port 14 s)
  else s

def execCompletionTimeout (partner : Nat) (node : Option NodeRef) (s : State) : Host.Outcome State Fault Refusal :=
  .next (completionTimeout partner node s)

/-- CONFIRM_PROBE_RESULT. -/
def confirmResult (id : Nat) (ok : Bool) (s : State) : State :=
  let p := getPartner s id
  if p.state ≠ .confirming then s
  else if ok then setPartner id { p with state := .active } s
  else losePartner id s

def execConfirmProbeResult (partner : Nat) (ok : Bool) (s : State) : Host.Outcome State Fault Refusal := .next (confirmResult partner ok s)

/-- A partner's windows are unmapped and unfenced. -/
def dropWindows (id : Nat) (s : State) : State :=
  (partnerWindows s id).foldl (fun s w =>
    setWindow w {} { s with fences := s.fences.filter (fun f => f.1 ≠ .window w) }) s

/-- CONTAINMENT_NOTICE: a completer other than the one recorded reports an error. A removal that began in this cycle still finds the
partner LOST, and ends as one of a LOST partner does (R352). -/
def containment (id completer : Nat) (s : State) : State :=
  let p := getPartner s id
  if p.completer = completer then s
  else match p.state with
    | .active => losePartner id s
    | .confirming => losePartner id s
    | .removing => if p.removeAt = now s then partnerFinal p stOK (setPartner id {} (dropWindows id (losePartner id s))) else s
    | _ => s

def execContainmentNotice (partner : Nat) (completer : Nat) (s : State) : Host.Outcome State Fault Refusal :=
  .next (containment partner completer s)

/-! ### PARTNER_REMOVE (R354) -/

/-- Some PARKED entry lies in a window. -/
def parkedIn (s : State) (w : Nat) : Bool :=
  s.streams.any (fun q => q.2.state ≠ .free && q.2.pt.any (fun t => t.st = .parked && windowOfAddr (4096 * t.park) = w))

/-- A removal without FORCE must wait (R354). -/
def removeBlocked (s : State) (id : Nat) : Bool :=
  (partnerWindows s id).any (fun w => jobCount s (getWindow s w).pod ≠ 0 || parkedIn s w)

def spPartnerRemove : Spec := { op := 0x51, src := .own, podRule := .mustNot, flag := true, reads := false, fields := [(79, 64)] }

/-- LOST to ABSENT: windows unmapped and unfenced, both completions posted. -/
def removeLost (id : Nat) (tok : CmdTok) (s : State) : State :=
  postFinal tok stOK 0 0 (setPartner id {} (dropWindows id (postFirst tok 0 s)))

def partnerRemove (sub : Submission) (tok : CmdTok) (s : State) : State :=
  let e := sub.entry
  let id := ent e 79 64
  let force := entFlag e
  guarded spPartnerRemove false sub tok true ((getPartner s id).state ≠ .absent) s (fun s =>
    if !force && removeBlocked s id then only sub tok stNOT_PERMITTED 0 0 s
    else match (getPartner s id).state, force with
      | .lost, _ => removeLost id tok s
      | .active, false => postFirst tok 0 (setPartner id { getPartner s id with state := .removing, tok := some tok, removeAt := now s } s)
      | .active, true => removeLost id tok (losePartner id s)
      | .confirming, true => removeLost id tok (losePartner id s)
      | _, _ => only sub tok stNOT_PERMITTED 0 0 s)

/-- PARTNER_REMOVE. -/
def execPartnerRemove (sub : Submission) (s : State) : Host.Outcome State Fault Refusal :=
  .next (runCmd spPartnerRemove (fun _ => true) sub s (partnerRemove sub))

/-- Nothing is outstanding to a partner. -/
def drainedOf (s : State) (id : Nat) : Bool :=
  (senderOver s id).isNone && (partnerWindows s id).all (fun w => (windowNodes s w).isEmpty)

/-- PARTNER_DRAINED. -/
def partnerDrained (id : Nat) (s : State) : State :=
  let p := getPartner s id
  if p.state = .removing && drainedOf s id then partnerFinal p stOK (setPartner id {} (dropWindows id s)) else s

def execPartnerDrained (partner : Nat) (s : State) : Host.Outcome State Fault Refusal := .next (partnerDrained partner s)

/-! ### Ownership (R344, R345) -/

def spOwner : Spec :=
  { op := 0x81, src := .mgmt, podRule := .mustNot, flag := false, reads := false, fields := [(65, 64), (67, 66), (95, 80), (191, 128)] }

/-- MODE of OWNER_TRANSFER. -/
def ownerMode (e : BitVec 512) : Nat := ent e 65 64

/-- Nanoseconds of an offer's life. -/
def offerLife : Nat := 10000000000

/-- OFFER; MODE 3 fails here too. -/
def ownerOffer (sub : Submission) (tok : CmdTok) (s : State) : State :=
  let e := sub.entry
  guarded spOwner false sub tok (ownerMode e = 0) true s (fun s =>
    if s.owner ≠ some sub.mbx.fn then only sub tok stNOT_OWNER 0 0 s
    else only sub tok stOK 0 0 { s with offer := some (ent e 67 66, ent e 95 80, now s) })

/-- OWNER_OFFER. -/
def execOwnerOffer (sub : Submission) (s : State) : Host.Outcome State Fault Refusal :=
  .next (runCmd spOwner (fun e => ownerMode e = 0 || ownerMode e = 3) sub s (ownerOffer sub))

/-- An offer to a function under a code stands now. -/
def offerStands (s : State) (fn code : Nat) : Bool :=
  match s.offer with
  | some (p, c, t) => p = fn && c = code && now s < t + offerLife
  | none => false

def ownerAccept (sub : Submission) (tok : CmdTok) (s : State) : State :=
  guarded spOwner false sub tok true true s (fun s =>
    if offerStands s sub.mbx.fn (ent sub.entry 95 80) then only sub tok stOK 0 0 { s with owner := some sub.mbx.fn, offer := none }
    else only sub tok stNOT_PERMITTED 0 0 s)

/-- OWNER_ACCEPT. -/
def execOwnerAccept (sub : Submission) (s : State) : Host.Outcome State Fault Refusal :=
  .next (runCmd spOwner (fun e => ownerMode e = 1) sub s (ownerAccept sub))

/-- The owner cannot act: its port is fenced or down, its hub out of service, or there is none (R344, R345). -/
def ownerGone (s : State) : Bool :=
  match s.owner with
  | some o => !portUp s (fnPort o)
  | none => true

def ownerClaim (sub : Submission) (token : BitVec 4096) (tok : CmdTok) (s : State) : State :=
  guarded spOwner false sub tok true true s (fun s =>
    if ownerGone s && tokenOk s 2 (fnPort sub.mbx.fn) token then only sub tok stOK 0 0 { s with owner := some sub.mbx.fn, offer := none }
    else only sub tok stNOT_PERMITTED 0 0 s)

/-- OWNER_CLAIM with the token read from host memory. -/
def execOwnerClaim (sub : Submission) (token : BitVec 4096) (s : State) : Host.Outcome State Fault Refusal :=
  .next (runCmd spOwner (fun e => ownerMode e = 2) sub s (ownerClaim sub token))

/-- OFFER_LAPSE: 10 s after its completion an offer is gone. -/
def execOfferLapse (s : State) : Host.Outcome State Fault Refusal :=
  .next (match s.offer with
    | some (_, _, t) => if t + offerLife ≤ now s then { s with offer := none } else s
    | none => s)

end Sys2Proof.Machine
end

