-- ==== Sys2Proof/Machine/Pods.lean ====
section
/-! DEFINITION. Pods: POD_CREATE and its AMEND flag (R262, R321), POD_DESTROY and POD_FREED (R263), quota (R264), moving cores (R265),
binding (R342, R343) and the pending walk mode (R189). -/

namespace Sys2Proof.Machine

open Sys2Proof

/-! ### POD_CREATE -/

def spCreate : Spec :=
  { op := 0x10, src := .own, podRule := .must, flag := true, reads := false,
    fields := [(95, 64), (159, 96), (223, 160), (234, 224), (239, 235), (240, 240), (319, 256), (383, 320), (399, 384), (416, 400),
      (455, 448), (487, 464), (507, 488)] }

/-- Cores named by masks of clusters and bank groups. -/
def coreMask (clusters groups : Nat) : List Nat := onesOf 32 clusters ++ (onesOf 64 groups).map (fun g => 32 + g)

/-- The next output of the DRBG (R444, R447). -/
def drawKey (s : State) : BitVec 256 × State :=
  (Config.drbg s.sec.drbgDraws, { s with sec := { s.sec with drbgDraws := s.sec.drbgDraws + 1, drbgReq := s.sec.drbgReq + 1 } })

/-- A core cannot be given to a new pod (R262). -/
def coreTaken (s : State) (c : Nat) : Bool :=
  (podOfCore s c).isSome || coreFenced s c || (List.range 16).any (fun p => (getPod s p).marked.any (fun m => m.1 = c))

/-- A slice cannot be given to a new pod (R262, R277). -/
def sliceTaken (s : State) (k : Nat) : Bool := k = 31 || k = 63 || (podOfSlice s k).isSome || sliceFenced s k

/-- The field rules of R321 with AMEND 0. -/
def createFields (e : BitVec 512) : Bool :=
  let sl := ent e 223 160
  let gs := ent e 319 256
  let ks := ent e 383 320
  1 ≤ ent e 234 224 && ent e 234 224 ≤ 1024 && 1 ≤ ent e 239 235 && ent e 239 235 ≤ 16 && (gs ||| ks) &&& sl = (gs ||| ks) && gs &&& ks = 0
    && ent e 416 400 = 0 && ent e 455 448 = 0 && ent e 487 464 = 0 && ent e 507 488 = 0

/-- Shares of all pods (R262). -/
def shareSum (s : State) : Nat := ((List.range 16).map (fun p => (getPod s p).share)).foldl (· + ·) 0

def podCreate (sub : Submission) (tok : CmdTok) (s : State) : State :=
  let e := sub.entry
  let p := entPod e
  guarded spCreate true sub tok (createFields e) true s (fun s =>
    let old := getPod s p
    let cores := coreMask (ent e 95 64) (ent e 159 96)
    let slices := onesOf 64 (ent e 223 160)
    if old.state ≠ .free then only sub tok stNOT_PERMITTED 0 0 s
    else if 16 < shareSum s + ent e 239 235 then only sub tok stBAD_ARG 0 0 s
    else if cores.any (coreTaken s) || slices.any (sliceTaken s) then only sub tok stNO_CORES 0 0 s
    else
      let (k, s) := drawKey s
      let v : Pod :=
        { state := .created, walk := bit e.toNat 240, share := ent e 239 235, quota := ent e 234 224, cores := cores, slices := slices,
          graphSlices := onesOf 64 (ent e 319 256), kvcSlices := onesOf 64 (ent e 383 320), slotFirst := ent e 399 384, key := some k,
          boundaryAt := now s, jhead := old.jhead, journal := old.journal }
      only sub tok stOK 0 0 (setPod p v s))

/-- POD_CREATE with AMEND 0. -/
def execPodCreate (sub : Submission) (s : State) : Host.Outcome State Fault Refusal :=
  .next (runCmd spCreate (fun e => !entFlag e) sub s (podCreate sub))

/-- The field rules of R321 with AMEND 1. -/
def amendFields (e : BitVec 512) : Bool :=
  ent e 95 64 = 0 && ent e 159 96 = 0 && ent e 223 160 = 0 && ent e 234 224 = 0 && ent e 239 235 = 0 && ent e 319 256 = 0 && ent e 383 320 = 0
    && ent e 399 384 + ent e 416 400 ≤ 65536 && ent e 416 400 ≤ 65536 && (ent e 416 400 ≠ 0 || ent e 455 448 = 0)

/-- The adapter area lies in a COLUMN_STRIPE region of the pod (R321). -/
def areaOk (s : State) (p region aoff slots : Nat) : Bool :=
  match getRegion s region with
  | some r => r.pod = p && r.mode = 2 && 4096 * (aoff + slots) ≤ linearLen r
  | none => false

/-- The adapter and prefix fields change. -/
def amendChanges (v : Pod) (e : BitVec 512) : Bool :=
  v.slotFirst ≠ ent e 399 384 || v.slots ≠ ent e 416 400 || v.aregion ≠ ent e 455 448 || v.aoff ≠ ent e 487 464 || v.nodes ≠ ent e 507 488

/-- Another pod that is not FREE has slots of a range (R222). -/
def slotsMeet (s : State) (p first n : Nat) : Bool :=
  (List.range 16).any (fun q => q ≠ p && (getPod s q).state ≠ .free
    && decide (max first (getPod s q).slotFirst < min (first + n) ((getPod s q).slotFirst + (getPod s q).slots)))

/-- NODES × 384 bytes fit in the KV control area beside what page tables and counts hold there (R226, R321). -/
def nodesFit (v : Pod) (n : Nat) : Bool :=
  384 * n + 4 * rcTop v ≤ kvcLen v && (n = v.nodes || v.kvcUsed.all (fun q => 384 * n ≤ q.1))

/-- The prefix index shrinks to n nodes: a node at or past n goes, with those below it and its name for its page set, and the nodes that
stay are linked again (DESIGN CHOICE, log entry 68). -/
def cutNodes (p n : Nat) (s : State) : State :=
  let v := getPod s p
  let gone (k : Nat) : Bool := (pfxPath (v.pfx.length + 1) v k [k]).any (fun x => decide (n ≤ x))
  let (out, kept) := v.pfx.partition (fun q => gone q.1)
  if out.isEmpty then s
  else
    let w := kept.foldl (fun w q => linkChildren w q.1 ((childrenOf v q.1).filter (fun c => !gone c))) { v with pfx := kept }
    (out.filter (fun q => q.2.state = 1)).foldl (fun s q => rcDown p q.2.pool
      { first := q.2.first, sizeExp := q.2.sizeExp, st := .shared, frame := q.2.frame, rc := q.2.rc, park := 0 } s) (setPod p w s)

def podAmend (sub : Submission) (tok : CmdTok) (s : State) : State :=
  let e := sub.entry
  let p := entPod e
  let slots := ent e 416 400
  guarded spCreate false sub tok (amendFields e) (slots = 0 || (getRegion s (ent e 455 448)).isSome) s (fun s =>
    let v := getPod s p
    let changes := amendChanges v e
    if changes && jobCount s p ≠ 0 then only sub tok stNOT_PERMITTED 0 0 s
    else if slots ≠ 0 && !areaOk s p (ent e 455 448) (ent e 487 464) slots then only sub tok stBAD_ARG 0 0 s
    else if slotsMeet s p (ent e 399 384) slots || !nodesFit v (ent e 507 488) then only sub tok stNO_PAGES 0 0 s
    else
      let w := bit e.toNat 240
      only sub tok stOK 0 0 (modPod p (fun v =>
        { v with walkPend := if w = v.walk then none else some w, slotFirst := ent e 399 384, slots := slots, aregion := ent e 455 448,
                 aoff := ent e 487 464, nodes := ent e 507 488 }) (cutNodes p (ent e 507 488) s)))

/-- POD_CREATE with AMEND 1. -/
def execPodCreateAmend (sub : Submission) (s : State) : Host.Outcome State Fault Refusal :=
  .next (runCmd spCreate entFlag sub s (podAmend sub))

/-- WALK_MODE_APPLY: a pending walk mode takes effect with the job count zero (R189). -/
def walkModeApply (p : Nat) (s : State) : State :=
  let v := getPod s p
  match v.walkPend with
  | some w => if jobCount s p = 0 then setPod p { v with walk := w, walkPend := none } s else s
  | none => s

def execWalkModeApply (pod : Nat) (s : State) : Host.Outcome State Fault Refusal := .next (walkModeApply pod s)

/-! ### Quota (R264) -/

def spQuota : Spec := { op := 0x12, src := .own, podRule := .must, flag := false, reads := false, fields := [(74, 64)] }

def podSetQuota (sub : Submission) (tok : CmdTok) (s : State) : State :=
  let q := ent sub.entry 74 64
  guarded spQuota false sub tok (1 ≤ q && q ≤ 1024) true s (fun s =>
    only sub tok stOK 0 0 (modPod (entPod sub.entry) (fun v => { v with quota := q }) s))

def execPodSetQuota (sub : Submission) (s : State) : Host.Outcome State Fault Refusal :=
  .next (runCmd spQuota (fun _ => true) sub s (podSetQuota sub))

/-! ### Moving cores (R265) -/

def spMove : Spec :=
  { op := 0x13, src := .own, podRule := .must, flag := false, reads := false, fields := [(95, 64), (159, 96), (163, 160), (164, 164)] }

def podMoveCores (sub : Submission) (tok : CmdTok) (s : State) : State :=
  let e := sub.entry
  let p := entPod e
  let dest := if bit e.toNat 164 then some (ent e 163 160) else none
  guarded spMove false sub tok true (!podMissing s dest) s (fun s =>
    let v := getPod s p
    let cores := coreMask (ent e 95 64) (ent e 159 96)
    if cores.any (fun c => !v.cores.contains c || v.marked.any (fun m => m.1 = c)) then only sub tok stBAD_ARG 0 0 s
    else if podBlocked s dest then only sub tok stNOT_PERMITTED 0 0 s
    else if cores.isEmpty then postFinal tok stOK 0 0 (postFirst tok 0 s)
    else
      let c : PendingCmd := { tok := tok, work := .moveCores p cores }
      let s := setPod p { v with marked := v.marked ++ cores.map (fun c => (c, dest)) } s
      postFirst tok 0 { s with cmds := s.cmds ++ [c] })

def execPodMoveCores (sub : Submission) (s : State) : Host.Outcome State Fault Refusal :=
  .next (runCmd spMove (fun _ => true) sub s (podMoveCores sub))

/-- A core has a planned interval or a running best-effort node. -/
def coreHeld (s : State) (p c : Nat) : Bool :=
  (planOf s p).any (fun sl => sl.cores.contains c) || (heldCores s p).contains c

/-- A moved core's memories hold no value (R265, R285). -/
def forgetCore (c : Nat) (s : State) : State :=
  if c < 32 then forget (addrTile (8 * c)) (8 * 0x4000000) s
  else forget (addrGroup (c - 32)) 0x40000 (forget (addrLocal (16 * (c - 32))) (16 * 0x400000) s)

/-- The moves that wait for a core are one core shorter; those with none left post OK. -/
def coreMoved (p c : Nat) (s : State) : State :=
  let left (w : Work) : Work := match w with
    | .moveCores q l => if q = p then .moveCores q (l.filter (fun x => x ≠ c)) else w
    | _ => w
  let cmds := s.cmds.map (fun x => { x with work := left x.work })
  let done (x : PendingCmd) : Bool := match x.work with
    | .moveCores _ l => l.isEmpty
    | _ => false
  (cmds.filter done).foldl (fun s x => postFinal x.tok stOK 0 0 s) { s with cmds := cmds.filter (fun x => !done x) }

/-- A marked core leaves its pod and joins its destination, if that is then CREATED or BOUND (R265). -/
def moveCore (p c : Nat) (dest : Option Nat) (s : State) : State :=
  let v := getPod s p
  let s := setPod p { v with cores := v.cores.filter (fun x => x ≠ c), marked := v.marked.filter (fun m => m.1 ≠ c) } s
  let s := match dest with
    | some d =>
      let w := getPod s d
      if w.state = .created || w.state = .bound then setPod d { w with cores := insertNat c w.cores } s else s
    | none => s
  coreMoved p c (forgetCore c s)

/-- CORE_MOVE: the last node planned on a marked core, and any best-effort node on it, has ended (R265). -/
def execCoreMove (core : Nat) (s : State) : Host.Outcome State Fault Refusal :=
  .next (match (List.range 16).findSome? (fun p => ((getPod s p).marked.find? (fun m => m.1 = core)).map (fun m => (p, m.2))) with
    | some (p, dest) => if coreHeld s p core then s else moveCore p core dest s
    | none => s)

/-! ### Binding (R342, R343) -/

def spBind : Spec := { op := 0x14, src := .own, podRule := .must, flag := false, reads := false, fields := [(67, 64), (68, 68)] }

def podBind (sub : Submission) (tok : CmdTok) (s : State) : State :=
  let p := entPod sub.entry
  let vf := ent sub.entry 67 64
  guarded spBind false sub tok true true s (fun s =>
    let v := getPod s p
    let hub := fnHub (4 + vf)
    if v.state ≠ .created || (boundPod s (4 + vf)).isSome || (hub ≠ v.hub && jobCount s p ≠ 0 && !hubFenced s v.hub) then
      only sub tok stNOT_PERMITTED 0 0 s
    else only sub tok stOK 0 0 (setPod p { v with state := .bound, vf := some vf, hub := hub } s))

/-- POD_BIND with BIND 1. -/
def execPodBind (sub : Submission) (s : State) : Host.Outcome State Fault Refusal :=
  .next (runCmd spBind (fun e => bit e.toNat 68) sub s (podBind sub))

def podUnbind (sub : Submission) (tok : CmdTok) (s : State) : State :=
  let p := entPod sub.entry
  let vf := ent sub.entry 67 64
  guarded spBind false sub tok true true s (fun s =>
    let v := getPod s p
    if v.state ≠ .bound || v.vf ≠ some vf then only sub tok stNOT_PERMITTED 0 0 s
    else only sub tok stOK 0 0 (stopFn (4 + vf) (setPod p { v with state := .created, vf := none } s)))

/-- POD_BIND with BIND 0. -/
def execPodUnbind (sub : Submission) (s : State) : Host.Outcome State Fault Refusal :=
  .next (runCmd spBind (fun e => !bit e.toNat 68) sub s (podUnbind sub))

/-! ### POD_DESTROY (R263) -/

/-- POD_DESTROY alone may name a DESTROYING or FENCED pod (R323 row 8). -/
def spDestroy : Spec := { op := 0x11, src := .own, podRule := .must, flag := false, reads := true, fields := [] }

def podDestroy (sub : Submission) (tok : CmdTok) (s : State) : State :=
  let p := entPod sub.entry
  guarded spDestroy false sub tok true true s (fun s =>
    let v := getPod s p
    if v.state = .destroying then only sub tok stNOT_PERMITTED 0 0 s
    else
      let s := { s with fences := s.fences.filter (fun f => f.1 ≠ .pod p) }
      let s := postFirst tok 0 (setPod p { v with state := .destroying, destroyTok := some tok } s)
      (podInsts s p).foldl (fun s i => cancelInst p i.num s) s)

def execPodDestroy (sub : Submission) (s : State) : Host.Outcome State Fault Refusal :=
  .next (runCmd spDestroy (fun _ => true) sub s (podDestroy sub))

/-- A pending command goes with its pod: its status, if it is one of the pod's graphs or streams (R206, R234). -/
def freedStatus (s : State) (p : Nat) (w : Work) : Option Status :=
  let mine (i : Nat) : Option Status := if (getStream s i).pod = p && (getStream s i).state ≠ .free then some stCANCELLED else none
  match w with
  | .graphLoad q _ => if q = p then some stCANCELLED else none
  | .graphUnload q _ => if q = p then some stOK else none
  | .openInbound i => mine i
  | .park i _ _ _ => mine i
  | .unpark i _ => mine i
  | .ship i _ _ _ => mine i
  | _ => none

/-- The pod's pending commands post their FINAL completions. -/
def endPodCmds (p : Nat) (s : State) : State :=
  let gone := s.cmds.filterMap (fun c => (freedStatus s p c.work).map (fun st => (c.tok, st)))
  gone.foldl (fun s c => postFinal c.1 c.2 0 0 s) { s with cmds := s.cmds.filter (fun c => (freedStatus s p c.work).isNone) }

/-- Every stream entry of a pod is reset and its page frames are free (R204, R206). -/
def resetStreams (p : Nat) (s : State) : State :=
  { s with streams := s.streams.filter (fun e => !(e.2.pod = p && e.2.state ≠ .free)),
           regions := s.regions.map (fun q => (q.1, q.2.map (fun r => if r.pod = p && r.mode = 3 then { r with used := [] } else r))) }

/-- POD_FREED: the job count of a DESTROYING pod is 0 (R263). -/
def podFreed (p : Nat) (s : State) : State :=
  let v := getPod s p
  if v.state ≠ .destroying || jobCount s p ≠ 0 then s
  else
    let s := v.marked.foldl (fun s m => moveCore p m.1 m.2 s) s
    let s := resetStreams p (pwuBoundary p (endPodCmds p s))
    let s := { s with graphs := s.graphs.filter (fun g => g.pod ≠ p) }
    let s := match v.destroyTok with
      | some tok => postFinal tok stOK 0 0 s
      | none => s
    let s := match v.vf with
      | some vf => stopFn (4 + vf) s
      | none => s
    setPod p { jhead := v.jhead, journal := v.journal } s

def execPodFreed (pod : Nat) (s : State) : Host.Outcome State Fault Refusal := .next (podFreed pod s)

end Sys2Proof.Machine
end

