-- ==== Sys2Proof/Machine/Regions.lean ====
section
/-! DEFINITION. REGION_MAP, mirrors, REGION_UNMAP, MEM_FILL and their completion (R266-R272, R278, R281, R286, R287), WINDOW_MAP
(R283). -/

namespace Sys2Proof.Machine

open Sys2Proof

/-! ### IDs and ranges -/

/-- Region and mirror IDs that are free (R266). -/
def freeIds (s : State) : List Nat := (List.range 256).filter (fun i => (getRegion s i).isNone && (getMirror s i).isNone)

/-- A free ID: the spec does not say which (log entry 5). -/
def takeId (s : State) : Option (Nat × State) :=
  match freeIds s with
  | [] => none
  | a :: r => some (nth a (a :: r) (Config.freeId s.freeIdx % (r.length + 1)), { s with freeIdx := s.freeIdx + 1 })

/-- The stacks of a mode and selector (R267); POSITION_STRIPE takes every unfenced stack. -/
def modeStacks (s : State) (mode sel : Nat) : List Nat :=
  match mode with
  | 0 => [sel]
  | 1 => (List.range 4).map (fun i => 4 * sel + i)
  | 2 => List.range 16
  | _ => (List.range 16).filter (fun st => !stackFenced s st)

/-- Two ranges of offsets share a byte. -/
def rangesMeet (a n b m : Nat) : Bool := a < b + m && b < a + n

/-- Holder map at mapping: each residue's own stack or the next unfenced one (R178). -/
def freshHolder (s : State) : List Nat :=
  (List.range 16).map (fun r => (((List.range 16).map (fun i => (r + i) % 16)).find? (fun st => !stackFenced s st)).getD r)

/-- The byte ranges, by device address, that a region owns in unfenced stacks. -/
def regionRanges (s : State) (r : Region) : List (Nat × Nat) :=
  (r.stks.filter (fun st => !stackFenced s st)).map (fun st => (addrStack st r.off, r.span))

/-! ### REGION_MAP (R268, R269) -/

def spMap : Spec :=
  { op := 0x20, src := .own, podRule := .mustNot, flag := false, reads := false,
    fields := [(65, 64), (67, 66), (71, 68), (75, 72), (79, 76), (80, 80), (119, 96), (152, 128), (183, 160), (191, 184), (196, 192),
      (198, 197), (200, 199), (255, 208), (283, 256), (293, 288)] }

/-- HDIM of its code. -/
def hdimOf (c : Nat) : Nat := 64 * 2 ^ c

/-- The region a REGION_MAP asks for. -/
def mapRegion (s : State) (e : BitVec 512) : Region :=
  let mode := ent e 67 66
  let base : Region :=
    { pod := ent e 71 68, mode := mode, stks := modeStacks s mode (ent e 75 72), off := 4096 * ent e 119 96,
      span := 4096 * ent e 152 128, lost := false, filled := false, ready := true, pool := ent e 200 199, fmt := ent e 79 76,
      layers := 0, heads := 0, hdim := 0, frames := 0, holder := [], used := [] }
  if mode = 3 then
    let r := { base with layers := ent e 191 184 + 1, heads := ent e 196 192 + 1, hdim := hdimOf (ent e 198 197), frames := ent e 183 160,
                         holder := freshHolder s }
    { r with span := roundUp 4096 (r.frames * frameBytes r) }
  else base

/-- The field rules of R268 and R174 for KIND 0. -/
def mapFields (s : State) (e : BitVec 512) : Bool :=
  let mode := ent e 67 66
  let sel := ent e 75 72
  let r := mapRegion s e
  ent e 65 64 = 0 && ent e 255 208 = 0 && ent e 283 256 = 0 && ent e 293 288 = 0
    && (mode = 0 || (mode = 1 && sel < 4) || (mode ≥ 2 && sel = 0))
    && (if mode = 3 then
          (r.fmt = 3 || r.fmt = 7) && ent e 198 197 < 3 && (r.fmt = 3 || ent e 198 197 ≠ 0) && ent e 152 128 = 0 && 1 ≤ r.frames
        else ent e 79 76 = 0 && ent e 200 160 = 0 && 1 ≤ ent e 152 128 && ent e 152 128 ≤ 16777216)
    && r.off + r.span ≤ 2 ^ 36

/-- The field rules of R268 and R278 for KIND 1. -/
def mirrorFields (e : BitVec 512) : Bool :=
  ent e 65 64 = 1 && ent e 67 66 = 0 && ent e 80 72 = 0 && ent e 119 96 = 0 && ent e 152 128 = 0 && ent e 200 160 = 0
    && ent e 255 208 % 64 = 0 && ent e 283 256 % 64 = 0 && 64 ≤ ent e 283 256 && ent e 283 256 ≤ 134217728

/-- A map's home status (R269), none where it succeeds. -/
def mapRefused (s : State) (r : Region) : Option Status :=
  let ranges (st : Nat) : Nat := countIf (fun q => q.2.stks.contains st) (mapped s)
  if (getPod s r.pod).state = .destroying || (getPod s r.pod).state = .fenced then some stNOT_PERMITTED
  else if r.mode = 3 && (poolOf s r.pod r.pool).isSome then some stBAD_ARG
  else if (freeIds s).isEmpty || r.stks.any (fun st => 64 ≤ ranges st)
      || (mapped s).any (fun q => q.2.stks.any (fun st => r.stks.contains st) && rangesMeet q.2.off q.2.span r.off r.span) then
    some stNO_PAGES
  else if r.stks.isEmpty || (r.mode ≠ 3 && r.stks.any (stackFenced s)) then some stFENCED
  else if r.mode = 3 && jobCount s r.pod ≠ 0 then some stNOT_PERMITTED
  else none

/-- VALUE1 of a map. -/
def mapValue (r : Region) : Nat := if r.mode = 3 then frameBytes r else 0

/-- REGION_MAP of a region. -/
def regionMap (sub : Submission) (tok : CmdTok) (s : State) : State :=
  let e := sub.entry
  guarded spMap false sub tok (mapFields s e) ((getPod s (ent e 71 68)).state ≠ .free) s (fun s =>
    let r := mapRegion s e
    match mapRefused s r, takeId s with
    | some st, _ => only sub tok st 0 0 s
    | none, none => only sub tok stNO_PAGES 0 0 s
    | none, some (id, s) =>
      if bit e.toNat 80 then
        let r := { r with ready := false }
        postFirst tok 0
          { setRegion id (some r) s with cmds := s.cmds ++ [{ tok := tok, work := .fill (regionRanges s r) 0 none (some id) }] }
      else only sub tok stOK id (mapValue r) (setRegion id (some r) s))

/-- REGION_MAP with KIND 0, and with the invalid KINDs 2 and 3. -/
def execRegionMap (sub : Submission) (s : State) : Host.Outcome State Fault Refusal :=
  .next (runCmd spMap (fun e => ent e 65 64 ≠ 1) sub s (regionMap sub))

/-! ### Mirrors (R278) -/

/-- The source of a mirror lies whole in one region of the pod. -/
def mirrorSource (s : State) (p src len : Nat) : Bool :=
  match placeOf src with
  | .stack st off => (mapped s).any (fun q => q.2.pod = p && !q.2.lost && q.2.ready && q.2.stks.contains st && q.2.off ≤ off
      && off + len ≤ q.2.off + q.2.span)
  | _ => false

/-- A slice holds a mirror that has not been removed (R278, R281). -/
def sliceMirror (s : State) (k : Nat) : Option Mirror := ((declared s).find? (fun m => m.2.slice = k && !m.2.removed)).map (fun m => m.2)

def mirrorDeclare (sub : Submission) (tok : CmdTok) (s : State) : State :=
  let e := sub.entry
  let p := ent e 71 68
  guarded spMap false sub tok (mirrorFields e) ((getPod s p).state ≠ .free) s (fun s =>
    let m : Mirror := { pod := p, src := ent e 255 208, len := ent e 283 256, slice := ent e 293 288, removed := false }
    if (getPod s p).state = .destroying || (getPod s p).state = .fenced then only sub tok stNOT_PERMITTED 0 0 s
    else if !mirrorSource s p m.src m.len || !(getPod s p).slices.contains m.slice || (sliceMirror s m.slice).isSome then
      only sub tok stBAD_ARG 0 0 s
    else if jobCount s p ≠ 0 then only sub tok stNOT_PERMITTED 0 0 s
    else match takeId s with
      | none => only sub tok stNO_PAGES 0 0 s
      | some (id, s) => only sub tok stOK id 0 (setMirror id (some m) s))

/-- REGION_MAP with KIND 1. -/
def execMirrorDeclare (sub : Submission) (s : State) : Host.Outcome State Fault Refusal :=
  .next (runCmd spMap (fun e => ent e 65 64 = 1) sub s (mirrorDeclare sub))

/-! ### REGION_UNMAP (R271, R281) -/

def spUnmap : Spec := { op := 0x21, src := .own, podRule := .mustNot, flag := false, reads := false, fields := [(71, 64)] }

/-- The unmap of a region is refused (R271). -/
def unmapRefused (s : State) (id : Nat) (r : Region) : Bool :=
  let v := getPod s r.pod
  (jobCount s r.pod ≠ 0 && !r.lost) || (r.mode = 3 && !r.used.isEmpty) || (v.state ≠ .free && v.slots ≠ 0 && v.aregion = id)
    || (declared s).any (fun m => !m.2.removed && m.2.pod = r.pod && (match placeOf m.2.src with
      | .stack st off => r.stks.contains st && r.off ≤ off && off < r.off + r.span
      | _ => false))

/-- An ID of a mirror, or of a region whose map has completed and whose unmap has not begun. -/
def unmappable (s : State) (id : Nat) : Bool :=
  match getRegion s id with
  | some r => r.ready
  | none => (getMirror s id).isSome

def regionUnmap (sub : Submission) (tok : CmdTok) (s : State) : State :=
  let id := ent sub.entry 71 64
  guarded spUnmap false sub tok true (unmappable s id) s (fun s =>
    match getRegion s id, getMirror s id with
    | some r, _ =>
      if unmapRefused s id r then only sub tok stNOT_PERMITTED 0 0 s
      else
        postFirst tok 0
          { setRegion id (some { r with ready := false }) s with
            cmds := s.cmds ++ [{ tok := tok, work := .fill (regionRanges s r) 0 (some id) none }] }
    | none, some m =>
      if jobCount s m.pod ≠ 0 && !m.removed then only sub tok stNOT_PERMITTED 0 0 s
      else postFinal tok stOK 0 0 (postFirst tok 0 (setMirror id none s))
    | none, none => only sub tok stUNKNOWN_ID 0 0 s)

def execRegionUnmap (sub : Submission) (s : State) : Host.Outcome State Fault Refusal :=
  .next (runCmd spUnmap (fun _ => true) sub s (regionUnmap sub))

/-! ### MEM_FILL (R287) -/

def spFill : Spec :=
  { op := 0x22, src := .pod, podRule := .either, flag := false, reads := false, fields := [(111, 64), (159, 112), (223, 160)] }

/-- Slices that are never filled: those of the firmware, and every pod's graph store and KV control area. -/
def keptSlice (s : State) (k : Nat) : Bool :=
  k = 31 || k = 63 || (List.range 16).any (fun p => (getPod s p).graphSlices.contains k || (getPod s p).kvcSlices.contains k)

/-- The part of a range of device addresses that lies in a stack: first address and bytes. -/
def stackPart (a len st : Nat) : Nat × Nat :=
  let lo := max a (addrStack st 0)
  (lo, min (a + len) (addrStack (st + 1) 0) - lo)

/-- A range from a stack address cut at the ends of the stacks; any other range whole. -/
def fillParts (a len : Nat) : List (Nat × Nat) :=
  match placeOf a with
  | .stack _ _ => ((List.range 16).map (stackPart a len)).filter (fun q => q.2 ≠ 0)
  | _ => [(a, len)]

/-- A range of stack addresses lies whole in a region, in as many of its stacks as it reaches. -/
def inRegion (r : Region) (a len : Nat) : Bool :=
  a + len ≤ addrStack 16 0 && (List.range 16).all (fun st =>
    let q := stackPart a len st
    q.2 = 0 || (r.stks.contains st && addrStack st r.off ≤ q.1 && q.1 + q.2 ≤ addrStack st (r.off + r.span)))

/-- A range of stack addresses that lies in a region covers it whole. -/
def coversRegion (r : Region) (a len : Nat) : Bool :=
  inRegion r a len && r.stks.all (fun st => a ≤ addrStack st r.off && addrStack st (r.off + r.span) ≤ a + len)

/-- A range lies whole in one region, slice, scratchpad or local memory that the issuer may fill: a pod, or none for the owner (R287). -/
def fillReach (s : State) (who : Option Nat) (a len : Nat) : Bool :=
  let pod (f : Nat → Bool) : Bool := match who with | some p => f p | none => true
  match placeOf a with
  | .stack _ _ =>
    (fillParts a len).all (fun q => !placeFenced s (placeOf q.1)) &&
      (mapped s).any (fun q => pod (fun p => q.2.pod = p) && q.2.ready && !q.2.lost && inRegion q.2 a len)
  | .slice k off => !sliceFenced s k && off + len ≤ 0x8000000 && !keptSlice s k && pod (fun p => (getPod s p).slices.contains k)
  | .tile n off => !tileFenced s n && off + len ≤ 0x4000000 && pod (fun p => (getPod s p).cores.contains (n / 8))
  | .local_ e off => !engineFenced s e && off + len ≤ 0x400000 && pod (fun p => (getPod s p).cores.contains (32 + e / 16))
  | _ => false

/-- The region that a fill covers whole, if any (R286). -/
def wholeRegion (s : State) (a len : Nat) : Option Nat :=
  match placeOf a with
  | .stack _ _ => ((mapped s).find? (fun q => coversRegion q.2 a len)).map (fun q => q.1)
  | _ => none

def memFill (sub : Submission) (tok : CmdTok) (s : State) : State :=
  let e := sub.entry
  let a := ent e 111 64
  let len := ent e 159 112
  guarded spFill false sub tok (a % 64 = 0 && len % 64 = 0 && 64 ≤ len && len ≤ 2 ^ 40) true s (fun s =>
    if !fillReach s (cmdPod sub) a len then only sub tok stNOT_PERMITTED 0 0 s
    else
      let c : PendingCmd := { tok := tok, work := .fill (fillParts a len) (BitVec.ofNat 64 (ent e 223 160)) none (wholeRegion s a len) }
      postFirst tok 0 { s with cmds := s.cmds ++ [c] })

def execMemFill (sub : Submission) (s : State) : Host.Outcome State Fault Refusal :=
  .next (runCmd spFill (fun _ => true) sub s (memFill sub))

/-! ### The end of a fill -/

/-- The pattern over one range, granule by granule. -/
def fillRange (pattern : BitVec 64) (q : Nat × Nat) (s : State) : State :=
  (List.range (q.2 / 64)).foldl (fun s i =>
    landGranule (q.1 / 64 + i) (BitVec.allOnes 64) ((List.range 64).map (fun k => pattern.extractLsb' (8 * (k % 8)) 8)) s) s

/-- Ranges whose unit is still in service. -/
def liveRanges (s : State) (l : List (Nat × Nat)) : List (Nat × Nat) := l.filter (fun q => !placeFenced s (placeOf q.1))

/-- The ranges of a fill still cover a region whole. -/
def filledWhole (s : State) (id : Nat) (ranges : List (Nat × Nat)) : Bool :=
  wholeRegion s ((ranges.head?.map (fun q => q.1)).getD 0) ((ranges.map (fun q => q.2)).sum) = some id

/-- FILL_COMPLETE: the last byte is written; the region is mapped, marked as written, or freed (R268, R271, R286, R287). A map whose
fill a fence stops has failed and maps nothing (R269). -/
def fillComplete (index : Nat) (s : State) : State :=
  match s.cmds[index]? with
  | none => s
  | some c =>
    match c.work with
    | .fill ranges pattern unmap mark =>
      let live_ := liveRanges s ranges
      let s := live_.foldl (fun s q => fillRange pattern q s) { s with cmds := s.cmds.eraseIdx index }
      match unmap with
      | some id => postFinal c.tok stOK 0 0 (setRegion id none s)
      | none =>
        if live_.length ≠ ranges.length then
          postFinal c.tok stFENCED 0 0 (if c.tok.opcode = 0x20 then setRegion (mark.getD 0) none s else s)
        else match (mark.filter (fun id => c.tok.opcode = 0x20 || filledWhole s id ranges)).bind (getRegion s) with
          | some r =>
            let s := setRegion (mark.getD 0) (some { r with ready := true, filled := true }) s
            if c.tok.opcode = 0x20 then postFinal c.tok stOK (mark.getD 0) (mapValue r) s else postFinal c.tok stOK 0 0 s
          | none => postFinal c.tok stOK 0 0 s
    | _ => s

def execFillComplete (index : Nat) (s : State) : Host.Outcome State Fault Refusal := .next (fillComplete index s)

/-! ### WINDOW_MAP (R283) -/

def spWindow : Spec :=
  { op := 0x52, src := .own, podRule := .mustNot, flag := false, reads := false,
    fields := [(69, 64), (73, 70), (75, 74), (95, 80), (159, 96), (188, 160)] }

/-- The partner of an ID is added (R351, R352). -/
def partnerKnown (s : State) (id : Nat) : Bool :=
  let st := (getPartner s id).state
  st ≠ .absent && st ≠ .probing

def windowMap (sub : Submission) (tok : CmdTok) (s : State) : State :=
  let e := sub.entry
  let w := ent e 69 64
  let access := ent e 75 74
  let len := ent e 188 160
  let fieldsOk := access < 3 && ent e 159 96 % 4096 = 0 && 1 ≤ len && len ≤ 2 ^ 28
  guarded spWindow false sub tok fieldsOk (partnerKnown s (ent e 95 80) && (getPod s (ent e 73 70)).state ≠ .free) s (fun s =>
    let p := ent e 73 70
    let old := getWindow s w
    if ((getPod s p).state = .destroying || (getPod s p).state = .fenced) then only sub tok stNOT_PERMITTED 0 0 s
    else if old.access ≠ 0 && jobCount s old.pod ≠ 0 then only sub tok stNOT_PERMITTED 0 0 s
    else if access = 0 then only sub tok stOK 0 0 (setWindow w {} s)
    else only sub tok stOK 0 0 (setWindow w { pod := p, access := access, partner := ent e 95 80, busBase := ent e 159 96, len := 4096 * len } s))

def execWindowMap (sub : Submission) (s : State) : Host.Outcome State Fault Refusal :=
  .next (runCmd spWindow (fun _ => true) sub s (windowMap sub))

end Sys2Proof.Machine
end

