-- ==== Sys2Proof/Machine/Spdm.lean ====
section
/-! DEFINITION. The SPDM responder (R445): twelve requests, eight sessions, six measurements. Response and error codes are those of SPDM
(PRESUMED, DSP0274; log entry 35). -/

namespace Sys2Proof.Machine

open Sys2Proof

/-- A response sent. -/
def spdmOut (code : Nat) (body : List Byte) (s : State) : State := emit (.spdm code body) s

/-- ERROR with an error code. -/
def spdmError (e : Nat) (s : State) : State := spdmOut 0x7F [BitVec.ofNat 8 e] s

/-- InvalidRequest, InvalidSession, UnexpectedRequest, Unspecified, SessionLimitExceeded. -/
def seInvalidRequest : Nat := 0x01
def seInvalidSession : Nat := 0x02
def seUnexpected : Nat := 0x04
def seUnspecified : Nat := 0x05
def seSessionLimit : Nat := 0x0A

/-- A request reaches the responder once the firmware runs; in DEBUG_OPEN it gets Unspecified, before its place in the negotiation
UnexpectedRequest. -/
def spdmReq (open_ : Bool) (need : Nat) (s : State) (body : State → State) : State :=
  if s.fw.stage < 5 then s
  else if !open_ && lifecycle s = 2 then spdmError seUnspecified s
  else if s.sec.spdm < need then spdmError seUnexpected s
  else body s

/-- The bytes of a value, lowest first. -/
def vecBytes (n : Nat) (w : BitVec n) : List Byte := leBytes (n / 8) w.toNat

/-- The certificate chain of slot 0, and its digest. -/
def chain (s : State) : List Byte := Config.certChain s.sec.cdi1
def chainDigest (s : State) : List Byte := vecBytes 384 (Config.sha384 (chain s))

/-- The signature of the Alias key over some bytes. -/
def signed384 (s : State) (bs : List Byte) : List Byte := vecBytes 768 (Config.aliasSign s.sec.cdi1 (Config.sha384 bs))

/-- GET_VERSION: the negotiation begins anew. -/
def execGetVersion (s : State) : Host.Outcome State Fault Refusal :=
  .next (spdmReq true 0 s (fun s => spdmOut 0x04 [0x13] { s with sec := { s.sec with spdm := 1 } }))

/-- GET_CAPABILITIES. -/
def execGetCapabilities (s : State) : Host.Outcome State Fault Refusal :=
  .next (spdmReq true 1 s (fun s => spdmOut 0x61 [] { s with sec := { s.sec with spdm := max 2 s.sec.spdm } }))

/-- NEGOTIATE_ALGORITHMS: bits 0 to 3 of the operand offer ECDSA P-384, SHA-384, ECDHE secp384r1 and AES-256-GCM (the model's own
operand); the part takes all four or none. -/
def execNegotiateAlgorithms (algs : BitVec 32) (s : State) : Host.Outcome State Fault Refusal :=
  .next (spdmReq false 2 s (fun s =>
    if algs.extractLsb' 0 4 = 0xF#4 then spdmOut 0x63 [0x0F] { s with sec := { s.sec with spdm := 3 } } else spdmError seInvalidRequest s))

/-- GET_DIGESTS: slot 0. -/
def execGetDigests (s : State) : Host.Outcome State Fault Refusal :=
  .next (spdmReq false 3 s (fun s => spdmOut 0x01 (chainDigest s) s))

/-- GET_CERTIFICATE: slot 0 only. -/
def execGetCertificate (slot off len : Nat) (s : State) : Host.Outcome State Fault Refusal :=
  .next (spdmReq false 3 s (fun s =>
    if slot ≠ 0 ∨ (chain s).length ≤ off then spdmError seInvalidRequest s else spdmOut 0x02 (((chain s).drop off).take len) s))

/-- CHALLENGE: the chain's digest, the nonce, and a signature over both. -/
def execChallenge (nonce : BitVec 256) (s : State) : Host.Outcome State Fault Refusal :=
  .next (spdmReq false 3 s (fun s =>
    let bs := chainDigest s ++ vecBytes 256 nonce
    spdmOut 0x03 (bs ++ signed384 s bs) s))

/-- The hash in the current owner key slot, 0 where none is blown. -/
def ownerHash (s : State) : BitVec 384 := (s.sec.owners.getLast?).getD 0

/-- Measurement k of R445. -/
def measurement (s : State) (k : Nat) : List Byte :=
  match k with
  | 1 => vecBytes 384 Config.romHash
  | 2 => vecBytes 384 (bankOf s s.fw.bank).hash
  | 3 => leBytes 4 (fwVerNow s) ++ leBytes 1 (bankOf s s.fw.bank).svn
  | 4 => leBytes 4 s.power.planVer
  | 5 => leBytes 1 (lifecycle s) ++ leBytes 1 s.sec.dbgCount ++ leBytes 1 (rollback s)
  | 6 => vecBytes 384 (ownerHash s)
  | _ => []

/-- GET_MEASUREMENTS: index 0 asks for their number, 1 to 6 for one, 0xFF for all (PRESUMED, DSP0274; log entry 35). -/
def execGetMeasurements (index : Nat) (nonce : BitVec 256) (s : State) : Host.Outcome State Fault Refusal :=
  .next (spdmReq false 3 s (fun s =>
    if 6 < index ∧ index ≠ 0xFF then spdmError seInvalidRequest s
    else
      let bs := (if index = 0 then [6] else if index = 0xFF then [1, 2, 3, 4, 5, 6].flatMap (measurement s) else measurement s index)
        ++ vecBytes 256 nonce
      spdmOut 0x60 (bs ++ signed384 s bs) s))

/-- KEY_EXCHANGE: a session begins its handshake; the part's ephemeral key is a free value; a ninth session is turned away. -/
def execKeyExchange (pub : BitVec 768) (s : State) : Host.Outcome State Fault Refusal :=
  .next (spdmReq false 3 s (fun s =>
    if 8 ≤ s.sec.sessions.length then spdmError seSessionLimit s
    else
      let id := s.sec.nextSession
      let bs := leBytes 4 id ++ (List.range 96).map (fun i => Config.freeByte (s.freeIdx + i))
      spdmOut 0x64 (bs ++ signed384 s (vecBytes 768 pub ++ bs))
        { s with freeIdx := s.freeIdx + 96,
                 sec := { s.sec with nextSession := id + 1, sessions := s.sec.sessions ++ [{ id := id, st := 0, keys := 0 }] } }))

/-- A request inside a session of a given state. -/
def inSession (id st : Nat) (s : State) (body : State → State) : State :=
  spdmReq false 3 s (fun s => if s.sec.sessions.any (fun x => x.id = id && x.st = st) then body s else spdmError seInvalidSession s)

/-- Change a session. -/
def modSession (id : Nat) (f : Session → Session) (s : State) : State :=
  { s with sec := { s.sec with sessions := s.sec.sessions.map (fun x => if x.id = id then f x else x) } }

/-- FINISH: the session is established. -/
def execFinish (session : Nat) (s : State) : Host.Outcome State Fault Refusal :=
  .next (inSession session 0 s (fun s => spdmOut 0x65 [] (modSession session (fun x => { x with st := 1 }) s)))

/-- HEARTBEAT. -/
def execHeartbeat (session : Nat) (s : State) : Host.Outcome State Fault Refusal :=
  .next (inSession session 1 s (fun s => spdmOut 0x68 [] s))

/-- KEY_UPDATE. -/
def execKeyUpdate (session : Nat) (s : State) : Host.Outcome State Fault Refusal :=
  .next (inSession session 1 s (fun s => spdmOut 0x69 [] (modSession session (fun x => { x with keys := x.keys + 1 }) s)))

/-- END_SESSION. -/
def execEndSession (session : Nat) (s : State) : Host.Outcome State Fault Refusal :=
  .next (inSession session 1 s (fun s =>
    spdmOut 0x6C [] { s with sec := { s.sec with sessions := s.sec.sessions.filter (fun x => x.id ≠ session) } }))

end Sys2Proof.Machine
end

