-- ==== Sys2Proof/Machine/Steps.lean ====
section
/-! DEFINITION. Steps: BATCH_STEP (R210-R213, R221, R247, R251, R252), the stages of a boundary (R216, R217), release and the end of a
step (R208, R221). -/

namespace Sys2Proof.Machine

open Sys2Proof

/-! ### BATCH_STEP -/

def spStep : Spec :=
  { op := 0x44, src := .pod, podRule := .must, flag := false, reads := false,
    fields := [(95, 64), (143, 96), (156, 144), (191, 160), (221, 192), (255, 224), (303, 256), (367, 320), (383, 368), (403, 384), (415, 404),
      (447, 416)] }

/-- A range of addresses lies in the pod's last-level slices and starts at a multiple of 64 (R210). -/
def inSlices (s : State) (p a n : Nat) : Bool :=
  a % 64 = 0 && n ≠ 0 && (match placeOf a, placeOf (a + n - 1) with
    | .slice k _, .slice m _ => (List.range (m + 1 - k)).all (fun j => (getPod s p).slices.contains (k + j))
    | _, _ => false)

/-- The field rules of R210. -/
def stepFields (s : State) (p : Nat) (e : BitVec 512) : Bool :=
  let n := ent e 156 144
  1 ≤ n && n ≤ 4096 && ent e 221 192 < podPeriod s p && 1 ≤ ent e 255 224 && inSlices s p (ent e 143 96) (8 * n)
    && inSlices s p (ent e 303 256) (16 * n) && inSlices s p (ent e 367 320) (2 * n)

/-- A row of a step list (R211). -/
def rowParse (w : Nat) : StepRow :=
  { stream := bits w 15 0, action := bits w 17 16, n := bits w 43 32, gen := bits w 63 48,
    kind := match bits w 17 16 with | 0 => 0 | 1 => 1 | _ => 3, wp := 0, adapterV := false, adapterAddr := 0, result := stOK, chained := false }

/-- The rules of R211 and R212 for a list. -/
def listOk (ws : List Nat) : Bool :=
  ws.all (fun w => bits w 17 16 ≠ 3 && bits w 31 18 = 0 && bits w 47 44 = 0
    && (if bits w 17 16 = 2 then bits w 43 32 = 0 else 1 ≤ bits w 43 32 && bits w 43 32 ≤ 2048))
    && (dedup (ws.map (fun w => bits w 15 0))).length = ws.length

/-- Largest bytes one stack copies for a whole page set of a size (R195). -/
def copyBytes (r : Region) (exp : Nat) : Nat :=
  maxNat ((List.range 16).flatMap (fun k => (List.range 16).map (fun st =>
    (heldBy r (k * pageP exp) exp st).length * pageM exp * frameBytes r)))

/-- Largest SIZE_EXP in use in a pool: over the tables of its streams and the page sets its prefix nodes name (R221). -/
def largestExp (s : State) (p pool : Nat) : Nat :=
  maxNat ((s.streams.filter (fun q => q.2.pod = p && q.2.state ≠ .free && q.2.pool = pool)).flatMap (fun q => q.2.pt.map (fun t => t.sizeExp))
    ++ ((getPod s p).pfx.filter (fun q => q.1 ≠ 0 && q.2.state = 1 && q.2.pool = pool)).map (fun q => q.2.sizeExp))

/-- C of R221 in ns: the copy bound of R195 for the pools of a step's streams. The copy runs at the stack clock, which stays at 1.0 GHz
whatever the issue floor (R123). -/
def copyBound (s : State) (p : Nat) (rows : List StepRow) : Nat :=
  maxNat ((dedup (rows.map (fun r => (getStream s r.stream).pool))).map (fun pool => match poolOf s p pool with
    | some (_, r) => if largestExp s p pool = 0 then 2000 else 2000 + ceilDiv (copyBytes r (largestExp s p pool)) 500
    | none => 2000))

/-- Stage 3-5 terms of a step, ns (R221). -/
def stageTerms (s : State) (p : Nat) (st : StepInfo) : Nat :=
  30 * st.rows.length + 200 * st.allocPs + 20 * st.allocFr + copyBound s p st.rows * st.copyMax + 2000 + 20 * st.rows.length

/-- Steps of a pod accepted for a boundary and not yet staged, in acceptance order. -/
def stepsFor (s : State) (p b : Nat) : List Inst :=
  (podInsts s p).filter (fun i => match i.step with
    | some st => st.boundary = b && !st.staged
    | none => false)

/-- TB of R221. -/
def stageTime (s : State) (p : Nat) (st : StepInfo) : Nat :=
  46080 + 1000 + stageTerms s p st
    + ((stepsFor s p st.boundary).map (fun i => match i.step with | some x => stageTerms s p x | none => 0)).foldl (· + ·) 0

/-- Boundaries from the pod's last processed one to a number, and the time they count from: before boundary 0, the edge or instant
one period before it (R251). -/
def boundaryAhead (s : State) (p b : Nat) : Nat × Nat :=
  let v := getPod s p
  match v.boundary with
  | some n => (b - n, v.boundaryAt)
  | none => (b + 1, if v.follow then s.clock.bj else v.anchor)

/-- Chain predecessors of a list of rows for a boundary (R252). -/
def chainPreds (s : State) (p b : Nat) (rows : List StepRow) : List Nat :=
  (podInsts s p).filterMap (fun i => match i.step with
    | some st =>
      if st.boundary < b && rows.any (fun r => r.action = 0 && st.rows.any (fun q => q.stream = r.stream)) then some i.num else none
    | none => none)

/-- Planned completion of an instance of the pod. -/
def plannedEnd (s : State) (p num : Nat) : Nat :=
  match findInst s p num with
  | some i => maxNat (i.nodes.map (fun n => n.fin))
  | none => 0

/-- The step a BATCH_STEP asks for, before its release offset is known. -/
def stepInfo (s : State) (p : Nat) (e : BitVec 512) (rows : List StepRow) : StepInfo :=
  let st : StepInfo :=
    { boundary := ent e 191 160, offset := ent e 221 192, deadline := ent e 255 224, rowtab := ent e 303 256, results := ent e 367 320,
      allocPs := ent e 383 368, allocFr := ent e 403 384, copyMax := ent e 415 404, relOff := 0,
      walkE := (rows.map (fun r => (getStream s r.stream).pt.length)).foldl (· + ·) 0 + ent e 383 368, rows := rows, staged := false, relAt := 0,
      released := false, preds := chainPreds s p (ent e 191 160) rows, oldSlots := [] }
  { st with relOff := max (ent e 221 192) (stageTime s p st) }

/-- Steps of a pod that have not ended. -/
def podSteps (s : State) (p : Nat) : Nat := countIf (fun i => i.step.isSome) (podInsts s p)

/-- The decision on a BATCH_STEP (R212, R251, R252). -/
def decideStep (sub : Submission) (tok : CmdTok) (p : Nat) (g : Graph) (st : StepInfo) (s : State) : State :=
  let (k, tb) := boundaryAhead s p st.boundary
  let period := podPeriod s p
  let slew := podSlew s p
  let first := tb + k * (period - slew) + st.relOff
  let last := tb + k * (period + slew) + st.relOff
  let t0 := (st.preds.map (plannedEnd s p)).foldl max (max last (now s))
  let w : WalkIn := { e := st.walkE, rows := st.rows.length, tb := tb, period := period, slew := slew }
  if 64 ≤ podSteps s p || (getPod s p).quota ≤ jobCount s p then only sub tok stREFUSED_QUOTA 0 0 s
  else match tentative s p g t0 (some w) with
    | none => only sub tok stREFUSED_DEADLINE (earliest none) 0 s
    | some slots =>
      if completionOf slots ≤ first + st.deadline then
        admitInst
          { pod := p, num := 0, graph := g.id, tok := tok, promised := true, release := last, deadline := first + st.deadline,
            nodes := slots.map (fun sl => freshNode sl.cores sl.start sl.fin), step := some st, peers := [], cancelled := false, late := none,
            floors := planFloors s p slots, sources := podSources s p } s
      else only sub tok stREFUSED_DEADLINE (earliest (some slots)) 0 s

def batchStep (sub : Submission) (tok : CmdTok) (s : State) : State :=
  let e := sub.entry
  let p := podOf sub
  let n := ent e 156 144
  guarded spStep false sub tok (stepFields s p e) (getGraph s p (ent e 95 64)).isSome s (fun s =>
    match getGraph s p (ent e 95 64) with
    | none => s
    | some g =>
      if g.peer || !podReaches s p (ent e 143 96) (8 * n) false || !podReaches s p (ent e 303 256) (16 * n) true
          || !podReaches s p (ent e 367 320) (2 * n) true then only sub tok stNOT_PERMITTED 0 0 s
      else
        let (bs, s) := fetchBytes (ent e 143 96) (8 * n) s
        let ws := (List.range n).map (fun k => leNat (((bs.drop (8 * k)).take 8).map (fun b => b.1)))
        let late := match (getPod s p).boundary with
          | some b => decide (ent e 191 160 ≤ b)
          | none => false
        if bs.any (fun b => b.2) then only sub tok stPOISONED 0 0 s
        else if !listOk ws || late then only sub tok stBAD_ARG 0 0 s
        else decideStep sub tok p g (stepInfo s p e (ws.map rowParse)) s)

/-- BATCH_STEP. -/
def execBatchStep (sub : Submission) (s : State) : Host.Outcome State Fault Refusal :=
  .next (runCmd spStep (fun _ => true) sub s (batchStep sub))

/-! ### Stage 1: cancels and leaves (R216) -/

/-- What stage 1 may still take at a boundary. -/
structure Quota where
  streams : Nat
  entries : Nat
deriving DecidableEq, Repr

/-- Take one stream out if the limit allows: whether it is FREE now, and what is left. A stream past the limit waits, and those after it
wait too. A table longer than the whole limit gives up its last 4,096 entries and waits with the others (R216; DEDUCED, log entry 33). -/
def takeStream (q : Quota) (i : Nat) (s : State) : Bool × Quota × State :=
  let n := (getStream s i).pt.length
  if q.streams = 0 then (false, q, s)
  else if n ≤ q.entries then (true, { streams := q.streams - 1, entries := q.entries - n }, freeStream i s)
  else (false, { streams := 0, entries := 0 }, if q.entries = 4096 then dropEntries i 4096 s else s)

/-- The LEAVE of a stream: its result, and what it does (R217). One past the limit of R216 waits for a later boundary. -/
def leaveStream (p i gen : Nat) (q : Quota) (s : State) : Status × Quota × State :=
  let e := getStream s i
  if e.state = .free || e.pod ≠ p || e.gen ≠ gen then (stUNKNOWN_ID, q, s)
  else if e.state = .closing then (stOK, q, s)
  else if e.work ≠ .idle then (stOK, q, stopStream i stCANCELLED stOK s)
  else if e.busy then (stOK, q, closeStream i stOK s)
  else match takeStream q i s with
    | (true, q, s) => (stOK, q, s)
    | (false, q, s) => (stOK, q, modPod p (fun v => { v with leaves := v.leaves.filter (fun x => x ≠ (i, gen)) ++ [(i, gen)] }) s)

/-- Set row k of a step. -/
def setRow (p num k : Nat) (r : StepRow) (s : State) : State := modStep p num (fun st => { st with rows := st.rows.set k r }) s

/-- The LEAVE rows of one step in list order. -/
def leaveRows (i : Inst) (q : Quota) (s : State) : Quota × State :=
  match i.step with
  | none => (q, s)
  | some st => (st.rows.zipIdx).foldl (fun acc x =>
      if x.1.kind = 3 then
        let (res, q, s) := leaveStream i.pod x.1.stream x.1.gen acc.1 acc.2
        (q, setRow i.pod i.num x.2 { x.1 with result := res } s)
      else acc) (q, s)

/-- CLOSING streams of a pod that are not BUSY, in the order they became CLOSING. -/
def closingOrder (s : State) (p : Nat) : List Nat :=
  let l := s.streams.filter (fun q => q.2.pod = p && q.2.state = .closing && !q.2.busy)
  (sortNat (l.map (fun q => q.2.closeSeq))).filterMap (fun n => (l.find? (fun q => q.2.closeSeq = n)).map (fun q => q.1))

/-- Leaves that an earlier boundary left waiting, then this boundary's LEAVE entries, then CLOSING streams (R216). -/
def stage1 (p : Nat) (steps : List Inst) (s : State) : State :=
  let waits := (getPod s p).leaves
  let s := modPod p (fun v => { v with leaves := [] }) s
  let (q, s) := waits.foldl (fun acc x => (leaveStream p x.1 x.2 acc.1 acc.2).2) (({ streams := 128, entries := 4096 } : Quota), s)
  let (q, s) := steps.foldl (fun acc i => leaveRows i acc.1 acc.2) (q, s)
  ((closingOrder s p).foldl (fun acc i => (takeStream acc.1 i acc.2).2) (q, s)).2

/-! ### Stage 2: chaff (R196, R216, R224, R447) -/

/-- Every frame and table on the pod's chaff list becomes free. -/
def freeChaff (p : Nat) (s : State) : State :=
  let v := getPod s p
  let s := v.chaff.foldl (fun s c => modPool p c.1 (giveFrames [(c.2.1, c.2.2.1)]) s) s
  modPod p (fun v => { v with chaff := [], chaffTables := [], kvcUsed := v.kvcUsed.filter (fun q => !v.chaffTables.contains q) }) s

/-- Device address of an adapter slot of a pod, if its area is mapped (R222). -/
def adapterAddr (s : State) (p slot : Nat) : Option Nat :=
  let v := getPod s p
  match getRegion s v.aregion with
  | some r => if r.pod = p && r.mode = 2 && v.slotFirst ≤ slot && slot < v.slotFirst + v.slots then
      some (linearAddr r (4096 * (v.aoff + (slot - v.slotFirst)))) else none
  | none => none

/-- The steps of a pod that an earlier boundary released keep reading the image that a slot holds now (R224). -/
def keepSlot (p a : Nat) (s : State) : State :=
  let img := (fetchBytes a 4096 s).1
  { s with insts := s.insts.map (fun i => match i.step with
      | some st =>
        if i.pod = p && st.staged && !st.oldSlots.any (fun o => o.1 = a) then { i with step := some { st with oldSlots := st.oldSlots ++ [(a, img)] } }
        else i
      | none => i) }

/-- Staged adapter images take effect (R224). -/
def applyAdapters (p : Nat) (s : State) : State :=
  let s := (getPod s p).staged.foldl (fun s q => match adapterAddr s p q.1 with
    | some a => if podReaches s p a 4096 true then landBytes a q.2 (keepSlot p a s) else s
    | none => s) s
  modPod p (fun v => { v with staged := [] }) s

/-- The pod key is replaced where nothing is parked or on its way (R447). -/
def rotateKey (p : Nat) (s : State) : State :=
  let mine (q : Nat × Stream) : Bool := q.2.pod = p && q.2.state ≠ .free
  if s.streams.any (fun q => mine q && (q.2.pt.any (fun t => t.st = .parked) || q.2.work ≠ .idle)) then s
  else
    let (k, s) := drawKey s
    modPod p (fun v => { v with key := some k, parkTop := [] }) s

def stage2 (p : Nat) (s : State) : State := rotateKey p (applyAdapters p (freeChaff p s))

/-! ### Stages 3 and 4: growth and joins (R214, R217) -/

/-- Live rows of the pod's windows: of staged steps and of the steps of this boundary already decided, with a step's own rows so far. -/
def shareOk (s : State) (p : Nat) (done : List Nat) : Bool :=
  let rows := (podInsts s p).flatMap (fun i => match i.step with
    | some st => if st.staged || done.contains i.num then st.rows.filter rowLive else []
    | none => [])
  let g := countIf (fun c => 32 ≤ c) (getPod s p).cores
  rows.length ≤ 256 * g && (List.range 16).all (fun k =>
    (rows.map (fun r => match poolOf s p (getStream s r.stream).pool with
      | some (_, x) => countIf (fun j => holderOf x ((r.wp + j) / 16 % 16) = k) (List.range r.n) * x.layers * 2
      | none => 0)).foldl (· + ·) 0 ≤ 16384 * g)

/-- The first position of a row of a BUSY stream: the end of the latest window of a step of an earlier boundary (R214); none where it
cannot be chained. -/
def chainFrom (s : State) (p b stream : Nat) : Option Nat :=
  let l := stepsOn s p stream
  let at_ (q : Inst × StepRow) : Nat := match q.1.step with | some st => st.boundary | none => b
  if l.all (fun q => at_ q < b) then (l.find? (fun q => l.all (fun x => at_ x ≤ at_ q))).map (fun q => q.2.wp + q.2.n)
  else none

/-- WP that a sink row records. -/
def sinkWp (s : State) (p stream : Nat) : Nat :=
  let e := getStream s stream
  if e.state ≠ .free && e.pod = p then e.wp else 0

/-- The row's stream as the boundary finds it. -/
def rowGone (s : State) (p : Nat) (r : StepRow) : Bool :=
  let e := getStream s r.stream
  e.state = .free || e.state = .closing || e.pod ≠ p || e.gen ≠ r.gen

/-- Entries that keep a stream out of a step. -/
def badTable (e : Stream) : Bool := e.pt.any (fun t => t.st = .parked || t.st = .lost)

/-- One CONTINUE row: the row as decided with the budget left, or the status that refuses the step (R217). -/
def continueRow (p b : Nat) (earlier : List Nat) (r : StepRow) (bud : Budget) (s : State) : Except Status (StepRow × Budget × State) :=
  let e := getStream s r.stream
  if rowGone s p r then .ok ({ r with kind := 2, result := stCANCELLED, wp := sinkWp s p r.stream }, bud, s)
  else if e.state ≠ .resident || earlier.contains r.stream || badTable e then .error stNOT_PERMITTED
  else
    let first := if e.busy then chainFrom s p b r.stream else some e.wp
    match first with
    | none => .error stNOT_PERMITTED
    | some f =>
      match windowPages r.stream f r.n bud s with
      | (true, bud, s) => .ok ({ r with wp := f, chained := e.busy }, bud, s)
      | _ => .error stNO_PAGES

/-- A decided CONTINUE row takes its place; a chained one adds the steps it is chained to (R214, R252). -/
def continueSet (p num k : Nat) (r : StepRow) (s : State) : State :=
  let s := setRow p num k r s
  if r.chained then
    let before := (stepsOn s p r.stream).map (fun q => q.1.num)
    modStep p num (fun st => { st with preds := dedup (st.preds ++ before) }) s
  else s

/-- The CONTINUE rows of a step in list order. -/
def continueRows (p b num : Nat) (earlier : List Nat) (rows : List (StepRow × Nat)) (bud : Budget) (s : State) : Except Status (Budget × State) :=
  match rows with
  | [] => .ok (bud, s)
  | x :: rest =>
    if x.1.action ≠ 0 then continueRows p b num earlier rest bud s
    else match continueRow p b earlier x.1 bud s with
      | .error st => .error st
      | .ok (r, bud, s) => continueRows p b num earlier rest bud (continueSet p num x.2 r s)

/-- A whole step is refused: it ends with a status (R217). -/
def refuseStep (p num : Nat) (st : Status) (s : State) : State :=
  match findInst s p num with
  | some i => endStep p num st (cancelNodes p num (List.range i.nodes.length) csCANCELLED s)
  | none => s

/-- What stages 3 and 4 carry from step to step: streams named so far, steps decided, and each step's budget. -/
structure Acc3 where
  named : List Nat
  done : List (Nat × Budget)
deriving DecidableEq, Repr

/-- Rows of a step before stage 3 count no join yet: join rows stand as leaves until stage 4 decides them. -/
def holdJoins (p num : Nat) (s : State) : State :=
  modStep p num (fun st => { st with rows := st.rows.map (fun r => if r.action = 1 then { r with kind := 2, wp := sinkWp s p r.stream } else r) }) s

/-- Stage 3 for one step. -/
def growStep (p b : Nat) (i : Inst) (acc : Acc3 × State) : Acc3 × State :=
  match i.step with
  | none => acc
  | some st =>
    let names := acc.1.named ++ st.rows.map (fun r => r.stream)
    let s := holdJoins p i.num acc.2
    let rows := match findInst s p i.num with
      | some x => (match x.step with | some y => y.rows | none => [])
      | none => []
    match continueRows p b i.num acc.1.named rows.zipIdx { ps := st.allocPs, fr := st.allocFr, cp := st.copyMax } s with
    | .error e => ({ acc.1 with named := names }, refuseStep p i.num e acc.2)
    | .ok (bud, s) =>
      if shareOk s p (acc.1.done.map (fun d => d.1) ++ [i.num]) then ({ named := names, done := acc.1.done ++ [(i.num, bud)] }, s)
      else ({ acc.1 with named := names }, refuseStep p i.num stNO_PAGES acc.2)

/-- One JOIN row as stage 4 decides it (R217): the row, the budget left, and the state. -/
def joinRow (p num : Nat) (done : List Nat) (k : Nat) (r : StepRow) (bud : Budget) (s : State) : Budget × State :=
  let e := getStream s r.stream
  let sink (st : Status) (s : State) : State := setRow p num k { r with kind := 2, result := st, wp := sinkWp s p r.stream } s
  if rowGone s p r then (bud, sink stCANCELLED s)
  else if e.state ≠ .open_ || e.inbound then (bud, sink stNOT_PERMITTED s)
  else match windowPages r.stream e.wp r.n bud s with
    | (true, bud, s') =>
      let s' := setRow p num k { r with kind := 1, wp := e.wp } (modStream r.stream (fun e => { e with state := .resident }) s')
      if shareOk s' p done then (bud, s') else (bud, sink stNO_PAGES s)
    | (false, bud, _) => (bud, sink stNO_PAGES s)

/-- The JOIN rows of a step in list order. -/
def joinRows (p : Nat) (done : List Nat) (num : Nat) (bud : Budget) (s : State) : State :=
  match (findInst s p num).bind (fun i => i.step) with
  | none => s
  | some st => ((st.rows.zipIdx).foldl (fun acc x => if x.1.action = 1 then joinRow p num done x.2 x.1 acc.1 acc.2 else acc) (bud, s)).2

/-- Frames for every PARKED entry of a stream, in table order, or none (R199). -/
def allocParked (p pool : Nat) (l : List Pte) (s : State) : Option (List Nat × State) :=
  match l with
  | [] => some ([], s)
  | t :: rest =>
    match allocSet p pool t.first t.sizeExp s with
    | none => none
    | some (x, s) => (allocParked p pool rest s).map (fun r => (x.frame :: r.1, r.2))

/-- The allocation of one unpark: frames, or the command alone refused (R199). -/
def unparkAlloc (c : PendingCmd) (i : Nat) (s : State) : State :=
  let e := getStream s i
  match allocParked e.pod e.pool (e.pt.filter (fun t => t.st = .parked)) s with
  | some (l, s) => { s with cmds := s.cmds.map (fun x => if x = c then { x with work := .unpark i (some l) } else x) }
  | none => postFinal c.tok stNO_PAGES 0 0 (modStream i (fun e => { e with work := .idle }) { s with cmds := s.cmds.erase c })

/-- The allocation of one inbound open (R231). -/
def inboundAlloc (c : PendingCmd) (i : Nat) (s : State) : State :=
  let e := getStream s i
  let s := { s with cmds := s.cmds.erase c }
  match growTo i e.inLen freeBudget s with
  | (true, _, s) => postFinal c.tok stOK (openValue s i) e.ptAddr (modStream i (fun e => { e with inReady := true, tail := tailIndex e.pt 0 }) s)
  | (false, _, _) => postFinal c.tok stNO_PAGES 0 0 (freeStream i s)

/-- Unpark allocations, then inbound allocations, of a pod in command order (R216 stage 4). -/
def pendingAllocs (p : Nat) (s : State) : State :=
  let mine (i : Nat) : Bool := (getStream s i).pod = p && (getStream s i).state ≠ .free
  let s1 := s.cmds.foldl (fun s c => match c.work with
    | .unpark i none => if mine i then unparkAlloc c i s else s
    | _ => s) s
  s.cmds.foldl (fun s c => match c.work with
    | .openInbound i => if mine i then inboundAlloc c i s else s
    | _ => s) s1

/-! ### Stage 5: release (R191, R220, R221) -/

/-- The window a row loads, with the page-table entries that cover it and the holder map of their pool (R191, R219). -/
def rowWindow (s : State) (p num k : Nat) (r : StepRow) : Window :=
  let e := getStream s r.stream
  { pod := p, inst := num, row := k, stream := r.stream, first := r.wp, n := r.n, sink := r.kind = 2, counts := [],
    entries := if r.kind = 2 then [] else e.pt.filter (fun t => t.first < r.wp + r.n && r.wp < t.first + pageP t.sizeExp),
    holder := match poolOf s p e.pool with
      | some (_, x) => x.holder
      | none => [] }

/-- A row with its adapter slot's address (R220). -/
def withAdapter (s : State) (p : Nat) (r : StepRow) : StepRow :=
  let e := getStream s r.stream
  match (if r.kind ≠ 3 && e.state ≠ .free && e.pod = p && e.gen = r.gen then e.adapter.bind (adapterAddr s p) else none) with
  | some a => { r with adapterV := true, adapterAddr := a }
  | none => r

/-- Stage 5 for one step at a boundary's time. -/
def releaseStep (p num t : Nat) (s : State) : State :=
  match (findInst s p num).bind (fun i => i.step) with
  | none => s
  | some st =>
    let rows := st.rows.map (withAdapter s p)
    let at_ := t + st.relOff
    let s := modInst p num (fun i =>
      { i with release := at_, deadline := at_ + st.deadline, step := some { st with rows := rows, staged := true, relAt := at_ } }) s
    let windows := (rows.zipIdx).filterMap (fun q => if q.1.kind = 3 then none else some (rowWindow s p num q.2 q.1))
    let s := { s with sprout := s.sprout ++ windows }
    let s := (rows.zipIdx).foldl (fun s q => writeRow st q.2 q.1 s) s
    (rows.filter rowLive).foldl (fun s r => setBusy p r.stream (modStream r.stream (fun e => { e with stepInst := num }) s)) s

/-! ### A boundary (R215, R216) -/

/-- The time of a boundary of a pod that has fallen due and waits, if any (R398). -/
def dueTime (s : State) (p : Nat) : Option Nat :=
  let v := getPod s p
  if v.follow then v.due.head?
  else if v.anchor + v.periodUs * 1000 ≤ now s then some (v.anchor + v.periodUs * 1000) else none

/-- The boundary is taken: number, time, and a configuration that waited for it (R215, R400). -/
def countBoundary (p t : Nat) (s : State) : State :=
  modPod p (fun v => { v with boundary := some (match v.boundary with | some b => (b + 1) % 2 ^ 32 | none => 0), boundaryAt := t,
                              due := if v.follow then v.due.drop 1 else v.due, anchor := t }) s

/-- A pod's pending configuration takes effect at its boundary (R400). -/
def applySync (p t : Nat) (s : State) : State :=
  modPod p (fun v => match v.syncPend with
    | some (f, m, u) => { v with follow := f, mult := m, periodUs := u, syncPend := none, edges := 0, anchor := t, due := [] }
    | none => v) s

/-- The five stages of a boundary of a pod (R216). -/
def runBoundary (p t : Nat) (s : State) : State :=
  let s := countBoundary p t (pwuBoundary p s)
  let b := (getPod s p).boundary.getD 0
  let steps := (stepsFor s p b).filter (fun i => !i.cancelled && !allEnded i)
  let s := stage2 p (stage1 p steps s)
  let (acc, s) := steps.foldl (fun acc i => growStep p b i acc) (({ named := [], done := [] } : Acc3), s)
  let s := pendingAllocs p s
  let nums := acc.done.map (fun d => d.1)
  let s := acc.done.foldl (fun s d => joinRows p nums d.1 d.2 s) s
  let s := nums.foldl (fun s n => releaseStep p n t s) s
  applySync p t s

/-- POD_BOUNDARY: the oldest boundary that waits is processed, with the pod's hub in service. -/
def podBoundary (p : Nat) (s : State) : State :=
  if (getPod s p).state = .free || hubFenced s (getPod s p).hub then s
  else match dueTime s p with
    | some t => runBoundary p t s
    | none => s

def execPodBoundary (pod : Nat) (s : State) : Host.Outcome State Fault Refusal := .next (podBoundary pod s)

/-! ### Release and end -/

/-- STEP_RELEASE: a staged step's time has come (R221). -/
def stepRelease (p num : Nat) (s : State) : State :=
  match (findInst s p num).bind (fun i => i.step) with
  | some st => if st.staged && !st.released && st.relAt ≤ now s then modStep p num (fun st => { st with released := true }) s else s
  | none => s

def execStepRelease (pod inst : Nat) (s : State) : Host.Outcome State Fault Refusal := .next (stepRelease pod inst s)

/-- STEP_END: every node of a step has ended or can never start (R208, R244). -/
def stepEnd (p num : Nat) (s : State) : State :=
  match findInst s p num with
  | some i => if i.step.isSome && allEnded i then endStep p num (statusOf i (now s)) s else s
  | none => s

def execStepEnd (pod inst : Nat) (s : State) : Host.Outcome State Fault Refusal := .next (stepEnd pod inst s)

end Sys2Proof.Machine
end

