-- ==== Sys2Proof/Machine/TimeSync.lean ====
section
/-! DEFINITION. Device time (R394-R397), the tone's source (R390), the frame and its references (R398-R408). -/

namespace Sys2Proof.Machine

open Sys2Proof

/-! ### TIME_SET and TIME_GET (R395-R397) -/

def leap (y : Nat) : Bool := y % 4 = 0 && (y % 100 ≠ 0 || y % 400 = 0)

def mdays (m y : Nat) : Nat := if m = 2 then (if leap y then 29 else 28) else if [4, 6, 9, 11].contains m then 30 else 31

/-- Days from 2000-01-01 to a date. -/
def daysTo (y m d : Nat) : Nat :=
  ((List.range (y - 2000)).map (fun i => if leap (2000 + i) then 366 else 365)).foldl (· + ·) 0
    + ((List.range (m - 1)).map (fun i => mdays (i + 1) y)).foldl (· + ·) 0 + d - 1

/-- The count of a TIME_SET value (R396). -/
def timeValue (e : BitVec 512) : Nat :=
  let secs := ((daysTo (ent e 79 64) (ent e 83 80) (ent e 88 84) * 24 + ent e 93 89) * 60 + ent e 99 94) * 60 + ent e 105 100
  (secs * 1000000000 + ent e 141 112) / 10 * 10

/-- Every field of TIME_SET lies in its range (R395). -/
def timeFields (e : BitVec 512) : Bool :=
  let y := ent e 79 64
  let m := ent e 83 80
  let d := ent e 88 84
  2000 ≤ y && y ≤ 2399 && 1 ≤ m && m ≤ 12 && 1 ≤ d && d ≤ mdays m y && ent e 93 89 ≤ 23 && ent e 99 94 ≤ 59 && ent e 105 100 ≤ 59
    && ent e 141 112 ≤ 999999999

def spTimeSet : Spec :=
  { op := 0x03, src := .own, podRule := .mustNot, flag := false, reads := false,
    fields := [(79, 64), (83, 80), (88, 84), (93, 89), (99, 94), (105, 100), (141, 112)] }

/-- A time of the old count on the new one, within 64 bits. -/
def shiftT (old new t : Nat) : Nat := min (2 ^ 64 - 1) (t + new - old)

/-- A node's planned interval moves. -/
def shiftNode (f : Nat → Nat) (n : NodeRun) : NodeRun := { n with start := f n.start, fin := f n.fin, startedAt := f n.startedAt }

/-- An instance's release, deadline and intervals move. -/
def shiftInst (f : Nat → Nat) (i : Inst) : Inst :=
  { i with release := f i.release, deadline := f i.deadline, nodes := i.nodes.map (shiftNode f),
           step := i.step.map (fun st => { st with relAt := f st.relAt }) }

/-- A pod's boundaries move. -/
def shiftPod (f : Nat → Nat) (v : Pod) : Pod := { v with boundaryAt := f v.boundaryAt, anchor := f v.anchor, due := v.due.map f }

/-- The frame and what was timed for it move. -/
def shiftClock (f : Nat → Nat) (c : Clock) : Clock :=
  { c with bj := f c.bj, next := f c.next, levelAt := f c.levelAt, prevAt := f c.prevAt,
           ref0 := { c.ref0 with edges := c.ref0.edges.map f }, ref1 := { c.ref1 with edges := c.ref1.edges.map f } }

/-- Every time that a promise, a boundary or a duration is counted from moves with the counter; records keep theirs (R397). -/
def shiftTimes (old new : Nat) (s : State) : State :=
  let f := shiftT old new
  { s with
    insts := s.insts.map (shiftInst f)
    pods := s.pods.map (fun q => (q.1, shiftPod f q.2))
    clock := shiftClock f s.clock
    offer := s.offer.map (fun o => (o.1, o.2.1, f o.2.2))
    hubA := { s.hubA with flitAt := f s.hubA.flitAt, wireAt := f s.hubA.wireAt }
    hubB := { s.hubB with flitAt := f s.hubB.flitAt, wireAt := f s.hubB.wireAt }
    leakAt := f s.leakAt
    partners := s.partners.map (fun q => (q.1, { q.2 with removeAt := if q.2.state = .removing then f q.2.removeAt else q.2.removeAt }))
    ecc := s.ecc.map (fun q => (q.1, { q.2 with ovf24 := q.2.ovf24.map f }))
    dies := s.dies.map (fun q => (q.1, { q.2 with hotAt := if q.2.hot then f q.2.hotAt else q.2.hotAt, xbarAt := f q.2.xbarAt }))
    fw := { s.fw with t0 := f s.fw.t0, restartAt := f s.fw.restartAt }
    thermal := { s.thermal with steady := s.thermal.steady.map (fun q => (q.1, q.2.map f)) } }

/-- Both counters are set, and everything counted from device time moves with them (R397). -/
def setTime (t : Nat) (s : State) : State :=
  let s1 := shiftTimes (now s) t s
  { s1 with clock := { s1.clock with timeA := t, timeB := t } }

def timeSet (sub : Submission) (tok : CmdTok) (s : State) : State :=
  guarded spTimeSet false sub tok (timeFields sub.entry) true s (fun s => only sub tok stOK 0 0 (setTime (timeValue sub.entry) s))

/-- TIME_SET. -/
def execTimeSet (sub : Submission) (s : State) : Host.Outcome State Fault Refusal :=
  .next (runCmd spTimeSet (fun _ => true) sub s (timeSet sub))

def spTimeGet : Spec := { op := 0x04, src := .any, podRule := .mustNot, flag := false, reads := true, fields := [] }

def timeGet (sub : Submission) (tok : CmdTok) (s : State) : State :=
  guarded spTimeGet false sub tok true true s (fun s => only sub tok stOK (now s) 0 s)

/-- TIME_GET. -/
def execTimeGet (sub : Submission) (s : State) : Host.Outcome State Fault Refusal :=
  .next (runCmd spTimeGet (fun _ => true) sub s (timeGet sub))

/-! ### The tone's source (R390) -/

/-- The lowest-numbered port of the lead hub whose REFCLK is qualified; none while the tone runs in holdover. -/
def toneSource (s : State) : Option Nat := [2 * leadHub s, 2 * leadHub s + 1].find? (fun p => (getPort s p).refclk)

/-- REFCLK_QUALIFIED. -/
def execRefclkQualified (port : Nat) (s : State) : Host.Outcome State Fault Refusal :=
  .next (if port < 4 then setPort port { getPort s port with refclk := true } s else s)

/-- REFCLK_LOST. -/
def execRefclkLost (port : Nat) (s : State) : Host.Outcome State Fault Refusal :=
  .next (if port < 4 then setPort port { getPort s port with refclk := false } s else s)

/-! ### The active reference (R405, R406) -/

/-- A pod holds an accepted step that has not ended. -/
def holdsStep (s : State) (p : Nat) : Bool := s.insts.any (fun i => i.pod = p && i.step.isSome)

/-- A pod that exists and follows the frame. -/
def follows (s : State) (p : Nat) : Bool := (getPod s p).state ≠ .free && (getPod s p).follow

/-- Some pod that follows the frame holds an accepted step. -/
def frameHeld (s : State) : Bool := (List.range 16).any (fun p => follows s p && holdsStep s p)

/-- Half the window of a frame edge (R402). -/
def halfWindow (s : State) : Nat := if frameHeld s then s.clock.f / 4 else s.clock.f / 2

/-- The best qualified reference: 0 is best, 2 is always qualified. -/
def bestRef (c : Clock) : Nat := if c.ref0.state = .qualified then 0 else if c.ref1.state = .qualified then 1 else 2

/-- The active reference follows the best; a change posts REF_CHANGE, and may let the new one place the next edge (R405, R406). -/
def chooseRef (s : State) : State :=
  let old := s.clock.active
  let new := bestRef s.clock
  if new = old then s
  else
    let c := { s.clock with active := new, switching := new ≠ 2, jumpPend := new ≠ 2 && !frameHeld s }
    postDevice 0x06 (new + 4 * old) (now s) { s with clock := c }

/-! ### Judging a frame (R402, R403) -/

/-- Edges of a reference inside the window of the last frame edge. -/
def edgesIn (w bj : Nat) (edges : List Nat) : List Nat := edges.filter (fun e => bj ≤ e + w && e ≤ bj + w)

/-- A reference after a frame that was clean for it or not. -/
def judgeRef (clean : Bool) (r : Ref) : Ref :=
  match r.state, clean with
  | .unqualified, true => if r.count + 1 = 8 then { r with state := .qualified, count := 8, bad := 0 } else { r with count := r.count + 1 }
  | .unqualified, false => { r with count := 0 }
  | .qualified, true => { r with bad := 0 }
  | .qualified, false => if r.bad + 1 = 4 then { r with state := .unqualified, count := 0, bad := 0 } else { r with bad := r.bad + 1 }
  | _, _ => r

/-- The phase that one edge gives; 0 for a frame that is not clean. -/
def phaseOf (bj : Nat) (edges : List Nat) : Int :=
  match edges with
  | [e] => (e : Int) - bj
  | _ => 0

/-- A phase within F/100 either way. -/
def clampPull (f : Nat) (x : Int) : Int := max (-((f / 100 : Nat) : Int)) (min ((f / 100 : Nat) : Int) x)

/-- Edges of the active reference in the window; none for the internal timer. -/
def activeEdges (w : Nat) (c : Clock) : List Nat :=
  match c.active with
  | 0 => edgesIn w c.bj c.ref0.edges
  | 1 => edgesIn w c.bj c.ref1.edges
  | _ => []

/-- The next frame edge is placed from the phase of the active reference (R402); a switch slews while that phase exceeds F/100. -/
def placeNext (w : Nat) (switched : Bool) (c : Clock) : Clock :=
  let es := activeEdges w c
  let x := phaseOf c.bj es
  let pull := clampPull c.f x
  { c with next := ((c.bj + c.f : Nat) + pull).toNat, pull := pull, judged := true,
           phase := if c.active = 2 then 0 else if es.length = 1 then x else c.phase,
           switching := if switched then c.active ≠ 2 && decide (c.f / 100 < x.natAbs) else c.switching }

/-- FRAME_WINDOW_CLOSE: each reference is judged, the active one may change, and the next edge is placed. -/
def windowClose (s : State) : State :=
  let c := s.clock
  let w := halfWindow s
  if !c.running || c.judged || now s < c.bj + w then s
  else
    let r0 := judgeRef ((edgesIn w c.bj c.ref0.edges).length = 1) c.ref0
    let r1 := judgeRef ((edgesIn w c.bj c.ref1.edges).length = 1) c.ref1
    let s := chooseRef { s with clock := { c with ref0 := r0, ref1 := r1 } }
    { s with clock := placeNext w (s.clock.active ≠ c.active) s.clock }

def execFrameWindowClose (s : State) : Host.Outcome State Fault Refusal := .next (windowClose s)

/-! ### Frame edges (R398, R400, R402, R407) -/

/-- A USE bit turns a reference off or on (R403). -/
def useRef (use : Bool) (r : Ref) : Ref :=
  if !use then { state := .disabled } else if r.state = .disabled then {} else r

/-- A pending DEVICE configuration takes effect at a frame edge. -/
def applyDevice (s : State) : State :=
  match s.clock.devPend with
  | none => s
  | some (f, us, uh, ed) =>
    let c := s.clock
    let c := { c with f := f, useSync := us, useHost := uh, edgeFall := ed, devPend := none, ref0 := useRef us c.ref0, ref1 := useRef uh c.ref1 }
    chooseRef { s with clock := c }

/-- Every MULT-th frame edge is a boundary of a pod that follows the frame, the first one after its configuration included. -/
def edgePod (t : Nat) (v : Pod) : Pod :=
  if v.state ≠ .free && v.follow then
    { v with due := if v.edges % v.mult = 0 then v.due ++ [t] else v.due, edges := v.edges + 1 }
  else v

/-- FRAME_EDGE: edge j + 1 at the time placed for it. -/
def frameEdge (s : State) : State :=
  let c := s.clock
  if !c.running || !c.judged || now s < c.next then s
  else
    let t := c.next
    let old := t - c.f
    let keep (r : Ref) : Ref := { r with edges := r.edges.filter (fun e => old ≤ e) }
    let c := { c with bj := t, j := c.j + 1, judged := false, stepOut := true, ref0 := keep c.ref0, ref1 := keep c.ref1,
                      switching := c.switching && decide (c.f / 100 < c.phase.natAbs) }
    let s := applyDevice { s with clock := c }
    { s with clock := { s.clock with next := t + s.clock.f }, pods := s.pods.map (fun q => (q.1, edgePod t q.2)) }

def execFrameEdge (s : State) : Host.Outcome State Fault Refusal := .next (frameEdge s)

/-- STEP_OUT_END: 1 µs after the frame edge. -/
def execStepOutEnd (s : State) : Host.Outcome State Fault Refusal :=
  .next (if s.clock.stepOut && s.clock.bj + 1000 ≤ now s then { s with clock := { s.clock with stepOut := false } } else s)

/-! ### Edges of the references (R401, R404, R406) -/

/-- The active reference has an edge at a time: it places the next frame edge there if R406 lets it. -/
def jumpTo (k e : Nat) (s : State) : State :=
  let c := s.clock
  if c.jumpPend && c.active = k && !frameHeld s && c.judged && c.bj < e then
    { s with clock := { c with next := e, pull := (e : Int) - c.bj - c.f, jumps := satAdd 0xFF c.jumps 1, jumpPend := false } }
  else s

/-- The level that STEP_SYNC shows at a frame edge. -/
def edgeLevel (c : Clock) : Bool := !c.edgeFall

/-- STEP_SYNC_EDGE: a transition now. A level held for less than 100 ns never was; an edge of reference 0 follows at least 1 µs at the
other level. -/
def syncEdge (level : Bool) (s : State) : State :=
  let c := s.clock
  let t := now s
  if c.level = level then s
  else if t < c.levelAt + 100 then
    { s with clock := { c with level := level, levelAt := c.prevAt, ref0 := { c.ref0 with edges := c.ref0.edges.filter (fun e => e ≠ c.levelAt) } } }
  else
    let edge := level = edgeLevel c && c.levelAt + 1000 ≤ t && !c.ignore && c.useSync
    let r := if edge then { c.ref0 with edges := c.ref0.edges ++ [t] } else c.ref0
    let s := { s with clock := { c with level := level, levelAt := t, prevAt := c.levelAt, ref0 := r } }
    if edge then jumpTo 0 t s else s

def execStepSyncEdge (level : Bool) (s : State) : Host.Outcome State Fault Refusal := .next (syncEdge level s)

/-- SYNC_STUCK: more than 4 × F at the edge level (R403, R404). -/
def syncStuck (s : State) : State :=
  let c := s.clock
  if c.level = edgeLevel c && c.levelAt + 4 * c.f < now s && c.ref0.state ≠ .stuck && c.ref0.state ≠ .disabled then
    chooseRef (postDevice 0x07 0 0 { s with clock := { c with ref0 := { state := .stuck } } })
  else s

def execSyncStuck (s : State) : Host.Outcome State Fault Refusal := .next (syncStuck s)

/-- STEP_SYNC_UNSTUCK: 1 µs at the other level ends STUCK and the power-up ignore (R403, R404). -/
def syncUnstuck (s : State) : State :=
  let c := s.clock
  if c.level ≠ edgeLevel c && c.levelAt + 1000 ≤ now s && (c.ref0.state = .stuck || c.ignore) then
    { s with clock := { c with ignore := false, ref0 := if c.ref0.state = .stuck then {} else c.ref0 } }
  else s

def execStepSyncUnstuck (s : State) : Host.Outcome State Fault Refusal := .next (syncUnstuck s)

/-! ### SYNC_CONFIG (R399, R400) -/

def spSync : Spec :=
  { op := 0x72, src := .ownOrPod, podRule := .either, flag := false, reads := false,
    fields := [(65, 64), (66, 66), (67, 67), (68, 68), (69, 69), (99, 80), (113, 104), (147, 128), (255, 192)] }

/-- MODE of SYNC_CONFIG. -/
def syncMode (e : BitVec 512) : Nat := ent e 65 64

/-- The pod fields are 0: DEVICE and STAMP. -/
def noPodFields (e : BitVec 512) : Bool := ent e 69 69 = 0 && ent e 113 104 = 0 && ent e 147 128 = 0
/-- The device fields are 0: POD and STAMP. -/
def noDeviceFields (e : BitVec 512) : Bool := ent e 68 66 = 0 && ent e 99 80 = 0

/-- A period from 1 ms to 1 s. -/
def periodOk (ns : Nat) : Bool := 1000000 ≤ ns && ns ≤ 1000000000

/-- DEVICE would break the rules for some pod that follows the frame, its pending configuration included. -/
def deviceBlocked (s : State) (f : Nat) : Bool :=
  frameHeld s || (List.range 16).any (fun p =>
    let v := getPod s p
    v.state ≠ .free && ((v.follow && !periodOk (v.mult * f)) || (match v.syncPend with
      | some (true, m, _) => !periodOk (m * f)
      | _ => false)))

/-- MODE 0; MODE 3 fails here too. -/
def syncDevice (sub : Submission) (tok : CmdTok) (s : State) : State :=
  let e := sub.entry
  let us := ent e 99 80
  guarded spSync false sub tok
    (syncMode e = 0 && noPodFields e && ent e 255 192 = 0 && 1000 ≤ us && us ≤ 1000000 && !entPodV e) true s (fun s =>
    if !isPF sub.mbx.fn || deviceBlocked s (1000 * us) then only sub tok stNOT_PERMITTED 0 0 s
    else only sub tok stOK 0 0
      { s with clock := { s.clock with devPend := some (1000 * us, bit e.toNat 66, bit e.toNat 67, bit e.toNat 68) } })

/-- SYNC_CONFIG_DEVICE. -/
def execSyncConfigDevice (sub : Submission) (s : State) : Host.Outcome State Fault Refusal :=
  .next (runCmd spSync (fun e => syncMode e = 0 || syncMode e = 3) sub s (syncDevice sub))

/-- The fields of POD mode (R399, R400). -/
def syncPodFields (s : State) (e : BitVec 512) : Bool :=
  let m := ent e 113 104
  let u := ent e 147 128
  noDeviceFields e && ent e 255 192 = 0
    && (if bit e.toNat 69 then u = 0 && 1 ≤ m && m ≤ 1000 && periodOk (m * s.clock.f) else m = 0 && 1000 ≤ u && u ≤ 1000000)

def syncPod (sub : Submission) (tok : CmdTok) (s : State) : State :=
  let e := sub.entry
  guarded spSync false sub tok (syncPodFields s e && (entPodV e || !isPF sub.mbx.fn)) true s (fun s =>
    let p := (cmdPod sub).getD 0
    if holdsStep s p then only sub tok stNOT_PERMITTED 0 0 s
    else only sub tok stOK 0 0 (modPod p (fun v => { v with syncPend := some (bit e.toNat 69, ent e 113 104, ent e 147 128) }) s))

/-- SYNC_CONFIG_POD. -/
def execSyncConfigPod (sub : Submission) (s : State) : Host.Outcome State Fault Refusal :=
  .next (runCmd spSync (fun e => syncMode e = 1) sub s (syncPod sub))

/-- A host stamp is an edge of reference 1, unless the window of its time has closed (R401). -/
def hostStamp (t : Nat) (s : State) : State :=
  let c := s.clock
  let w := halfWindow s
  if !c.useHost || t + w < c.bj || (c.judged && t ≤ c.bj + w) then s
  else jumpTo 1 t { s with clock := { c with ref1 := { c.ref1 with edges := c.ref1.edges ++ [t] } } }

def syncStamp (sub : Submission) (tok : CmdTok) (s : State) : State :=
  let e := sub.entry
  guarded spSync false sub tok (noPodFields e && noDeviceFields e && !entPodV e) true s (fun s =>
    if !isPF sub.mbx.fn then only sub tok stNOT_PERMITTED 0 0 s
    else only sub tok stOK 0 0 (hostStamp (ent e 255 192) s))

/-- SYNC_CONFIG_STAMP. -/
def execSyncConfigStamp (sub : Submission) (s : State) : Host.Outcome State Fault Refusal :=
  .next (runCmd spSync (fun e => syncMode e = 2) sub s (syncStamp sub))

end Sys2Proof.Machine
end

