-- ==== Sys2Proof/Machine/Update.lean ====
section
/-! DEFINITION. Firmware update with PLDM (R336): the update states and completion codes are those of DSP0267 (PRESUMED; log entry 36). -/

namespace Sys2Proof.Machine

open Sys2Proof

/-- Completion codes. -/
def ccOK : Nat := 0x00
def ccINVALID_DATA : Nat := 0x02
def ccNOT_IN_UPDATE : Nat := 0x80
def ccALREADY : Nat := 0x81
def ccINVALID_STATE : Nat := 0x84
def ccINCOMPLETE : Nat := 0x85

/-- Answer with a completion code. -/
def pldmOut (code : Nat) (body : List Byte) (s : State) : State := emit (.pldm code body) s

/-- A request reaches the update path while the acorns run. -/
def pldmReq (s : State) (body : State → State) : State := if s.pins.vaux3 then body s else s

/-- A command valid in one update state; the acorn answers with a code otherwise. -/
def pldmIn (st : Pldm) (s : State) (body : State → State) : State :=
  pldmReq s (fun s =>
    if s.fw.pldm = st then body s
    else if s.fw.pldm = .idle then pldmOut ccNOT_IN_UPDATE [] s
    else pldmOut ccINVALID_STATE [] s)

/-- Move to an update state. -/
def toPldm (st : Pldm) (s : State) : State := { s with fw := { s.fw with pldm := st } }

/-- The bank that does not run. -/
def otherBank (s : State) : Nat := 1 - s.fw.bank

/-- Store a bank. -/
def setBank (b : Nat) (v : Bank) (s : State) : State :=
  if b = 0 then { s with fw := { s.fw with bankA := v } } else { s with fw := { s.fw with bankB := v } }

/-- REQUEST_UPDATE. -/
def execRequestUpdate (s : State) : Host.Outcome State Fault Refusal :=
  .next (pldmReq s (fun s =>
    if s.fw.pldm = .idle then pldmOut ccOK [] { s with fw := { s.fw with pldm := .learn, image := [], imageLen := 0, verified := false } }
    else pldmOut ccALREADY [] s))

/-- PASS_COMPONENT_TABLE. -/
def execPassComponentTable (s : State) : Host.Outcome State Fault Refusal :=
  .next (pldmIn .learn s (fun s => pldmOut ccOK [] (toPldm .ready s)))

/-- UPDATE_COMPONENT: the image's size, at most a bank of 16 MiB (R461). -/
def execUpdateComponent (size : Nat) (s : State) : Host.Outcome State Fault Refusal :=
  .next (pldmIn .ready s (fun s =>
    if size = 0 ∨ 2 ^ 24 < size then pldmOut ccINVALID_DATA [] s
    else pldmOut ccOK [] { s with fw := { s.fw with pldm := .download, image := [], imageLen := size, verified := false } }))

/-- REQUEST_FIRMWARE_DATA: the next bytes of the image arrive. -/
def execRequestFirmwareData (bytes : List Byte) (s : State) : Host.Outcome State Fault Refusal :=
  .next (pldmIn .download s (fun s => { s with fw := { s.fw with image := (s.fw.image ++ bytes).take s.fw.imageLen } }))

/-- What a received image holds. -/
def imageBank (img : List Byte) : Bank :=
  { fwVer := (Config.imageVer img).toNat, svn := (Config.imageSvn img).toNat, hash := Config.sha384 img, good := Config.imageGood img }

/-- TRANSFER_COMPLETE: the whole image has come; the acorn writes it into the bank that does not run. -/
def execTransferComplete (s : State) : Host.Outcome State Fault Refusal :=
  .next (pldmIn .download s (fun s =>
    if s.fw.image.length < s.fw.imageLen then pldmOut ccINCOMPLETE [] s
    else pldmOut ccOK [] (toPldm .verify (setBank (otherBank s) (imageBank s.fw.image) s))))

/-- VERIFY_COMPLETE: success only for a bank that R335 finds valid; otherwise the component is to be sent again. -/
def execVerifyComplete (s : State) : Host.Outcome State Fault Refusal :=
  .next (pldmIn .verify s (fun s =>
    if bankValid s (otherBank s) then pldmOut ccOK [] { s with fw := { s.fw with pldm := .apply, verified := true } }
    else pldmOut ccINVALID_DATA [] (toPldm .ready s)))

/-- APPLY_COMPLETE. -/
def execApplyComplete (s : State) : Host.Outcome State Fault Refusal :=
  .next (pldmIn .apply s (fun s => pldmOut ccOK [] (toPldm .ready s)))

/-- ACTIVATE_FIRMWARE: the bank written is named as preferred in the record store, now or deferred (R336, R434). -/
def execActivateFirmware (s : State) : Host.Outcome State Fault Refusal :=
  .next (pldmIn .ready s (fun s =>
    if s.fw.verified then pldmOut ccOK [] (toPldm .idle (recordBoth (.preferredBank (otherBank s)) s)) else pldmOut ccINCOMPLETE [] s))

/-- CANCEL_UPDATE_COMPONENT: back to where the component can be sent. -/
def execCancelUpdateComponent (s : State) : Host.Outcome State Fault Refusal :=
  .next (pldmReq s (fun s =>
    if s.fw.pldm = .download ∨ s.fw.pldm = .verify ∨ s.fw.pldm = .apply then
      pldmOut ccOK [] { s with fw := { s.fw with pldm := .ready, image := [], imageLen := 0, verified := false } }
    else if s.fw.pldm = .idle then pldmOut ccNOT_IN_UPDATE [] s
    else pldmOut ccINVALID_STATE [] s))

/-- CANCEL_UPDATE. -/
def execCancelUpdate (s : State) : Host.Outcome State Fault Refusal :=
  .next (pldmReq s (fun s =>
    if s.fw.pldm = .idle then pldmOut ccNOT_IN_UPDATE [] s
    else pldmOut ccOK [] { s with fw := { s.fw with pldm := .idle, image := [], imageLen := 0, verified := false } }))

/-- Code of an update state (DSP0267). -/
def pldmCode (st : Pldm) : Nat :=
  match st with
  | .idle => 0
  | .learn => 1
  | .ready => 2
  | .download => 3
  | .verify => 4
  | .apply => 5
  | .activate => 6

/-- GET_STATUS. -/
def execGetStatus (s : State) : Host.Outcome State Fault Refusal :=
  .next (pldmReq s (fun s => pldmOut ccOK (leBytes 1 (pldmCode s.fw.pldm)) s))

/-- QUERY_DEVICE_IDENTIFIERS: the identifiers are not published; the serial number stands for them. -/
def execQueryDeviceIdentifiers (s : State) : Host.Outcome State Fault Refusal :=
  .next (pldmReq s (fun s => pldmOut ccOK (leBytes 8 Config.serial.toNat) s))

end Sys2Proof.Machine
end

