-- ==== Sys2Proof/Machine/Dispatch.lean ====
section
/-! DEFINITION. One arm per command: the direct call of its meaning. -/

namespace Sys2Proof.Machine

open Sys2Proof

def exec (i : Instr) (s : State) : Host.Outcome State Fault Refusal :=
  match i with
  | .identify sub => Sys2Proof.Machine.execIdentify sub s
  | .summary sub => Sys2Proof.Machine.execSummary sub s
  | .timeSet sub => Sys2Proof.Machine.execTimeSet sub s
  | .timeGet sub => Sys2Proof.Machine.execTimeGet sub s
  | .podCreate sub => Sys2Proof.Machine.execPodCreate sub s
  | .podCreateAmend sub => Sys2Proof.Machine.execPodCreateAmend sub s
  | .podDestroy sub => Sys2Proof.Machine.execPodDestroy sub s
  | .podSetQuota sub => Sys2Proof.Machine.execPodSetQuota sub s
  | .podMoveCores sub => Sys2Proof.Machine.execPodMoveCores sub s
  | .podBind sub => Sys2Proof.Machine.execPodBind sub s
  | .podUnbind sub => Sys2Proof.Machine.execPodUnbind sub s
  | .regionMap sub => Sys2Proof.Machine.execRegionMap sub s
  | .mirrorDeclare sub => Sys2Proof.Machine.execMirrorDeclare sub s
  | .regionUnmap sub => Sys2Proof.Machine.execRegionUnmap sub s
  | .memFill sub => Sys2Proof.Machine.execMemFill sub s
  | .graphLoad sub => Sys2Proof.Machine.execGraphLoad sub s
  | .graphUnload sub => Sys2Proof.Machine.execGraphUnload sub s
  | .graphRun sub => Sys2Proof.Machine.execGraphRun sub s
  | .graphCancel sub => Sys2Proof.Machine.execGraphCancel sub s
  | .journalRead sub => Sys2Proof.Machine.execJournalRead sub s
  | .streamOpen sub => Sys2Proof.Machine.execStreamOpen sub s
  | .streamOpenInbound sub => Sys2Proof.Machine.execStreamOpenInbound sub s
  | .streamCancel sub => Sys2Proof.Machine.execStreamCancel sub s
  | .streamPark sub => Sys2Proof.Machine.execStreamPark sub s
  | .streamUnpark sub => Sys2Proof.Machine.execStreamUnpark sub s
  | .batchStep sub => Sys2Proof.Machine.execBatchStep sub s
  | .streamShip sub => Sys2Proof.Machine.execStreamShip sub s
  | .adapterLoad sub => Sys2Proof.Machine.execAdapterLoad sub s
  | .prefixInsert sub => Sys2Proof.Machine.execPrefixInsert sub s
  | .prefixRemove sub => Sys2Proof.Machine.execPrefixRemove sub s
  | .prefixLookup sub => Sys2Proof.Machine.execPrefixLookup sub s
  | .partnerAdd sub => Sys2Proof.Machine.execPartnerAdd sub s
  | .partnerRemove sub => Sys2Proof.Machine.execPartnerRemove sub s
  | .windowMap sub => Sys2Proof.Machine.execWindowMap sub s
  | .healthRead sub => Sys2Proof.Machine.execHealthRead sub s
  | .marginPlanRead sub => Sys2Proof.Machine.execMarginPlanRead sub s
  | .fenceRequest sub => Sys2Proof.Machine.execFenceRequest sub s
  | .unfence sub => Sys2Proof.Machine.execUnfence sub s
  | .fuseRepair sub => Sys2Proof.Machine.execFuseRepair sub s
  | .thermalConfig sub => Sys2Proof.Machine.execThermalConfig sub s
  | .powerLimit sub => Sys2Proof.Machine.execPowerLimit sub s
  | .powerLimitForce sub => Sys2Proof.Machine.execPowerLimitForce sub s
  | .syncConfigDevice sub => Sys2Proof.Machine.execSyncConfigDevice sub s
  | .syncConfigPod sub => Sys2Proof.Machine.execSyncConfigPod sub s
  | .syncConfigStamp sub => Sys2Proof.Machine.execSyncConfigStamp sub s
  | .takeover sub token otherFell => Sys2Proof.Machine.execTakeover sub token otherFell s
  | .ownerOffer sub => Sys2Proof.Machine.execOwnerOffer sub s
  | .ownerAccept sub => Sys2Proof.Machine.execOwnerAccept sub s
  | .ownerClaim sub token => Sys2Proof.Machine.execOwnerClaim sub token s
  | .debugUnlock sub token => Sys2Proof.Machine.execDebugUnlock sub token s
  | .lifecycleRead sub => Sys2Proof.Machine.execLifecycleRead sub s
  | .setOwner sub hash => Sys2Proof.Machine.execSetOwner sub hash s
  | .rotateOwner sub token => Sys2Proof.Machine.execRotateOwner sub token s
  | .retire sub token => Sys2Proof.Machine.execRetire sub token s
  | .lifecycleFuseWord => Sys2Proof.Machine.execLifecycleFuseWord s
  | .mbxEnable mbx => Sys2Proof.Machine.execMbxEnable mbx s
  | .mbxDisable mbx => Sys2Proof.Machine.execMbxDisable mbx s
  | .sqDoorbell mbx tail => Sys2Proof.Machine.execSqDoorbell mbx tail s
  | .cqHeadWrite mbx head => Sys2Proof.Machine.execCqHeadWrite mbx head s
  | .submissionAck mbx entry busOk => Sys2Proof.Machine.execSubmissionAck mbx entry busOk s
  | .eventRingEnable fn => Sys2Proof.Machine.execEventRingEnable fn s
  | .lostFlagClear fn => Sys2Proof.Machine.execLostFlagClear fn s
  | .evHeadWrite fn head => Sys2Proof.Machine.execEvHeadWrite fn head s
  | .msixMessage fn vec => Sys2Proof.Machine.execMsixMessage fn vec s
  | .lcCapWrite req n value => Sys2Proof.Machine.execLcCapWrite req n value s
  | .lcCapApply n => Sys2Proof.Machine.execLcCapApply n s
  | .pwuInvalidate req st value => Sys2Proof.Machine.execPwuInvalidate req st value s
  | .kvLandWrite req p value => Sys2Proof.Machine.execKvLandWrite req p value s
  | .landChArm req n len => Sys2Proof.Machine.execLandChArm req n len s
  | .landChDisarm req n => Sys2Proof.Machine.execLandChDisarm req n s
  | .apertureWrite req n value => Sys2Proof.Machine.execApertureWrite req n value s
  | .eccCfgWrite req value => Sys2Proof.Machine.execEccCfgWrite req value s
  | .registerWrite req space off value => Sys2Proof.Machine.execRegisterWrite req space off value s
  | .fmtCntRead req stk n word => Sys2Proof.Machine.execFmtCntRead req stk n word s
  | .pwuStatRead req st => Sys2Proof.Machine.execPwuStatRead req st s
  | .dramSlotRead req st => Sys2Proof.Machine.execDramSlotRead req st s
  | .mirrorStatRead req k => Sys2Proof.Machine.execMirrorStatRead req k s
  | .portRefuseRead req p => Sys2Proof.Machine.execPortRefuseRead req p s
  | .thmDieRead req n => Sys2Proof.Machine.execThmDieRead req n s
  | .syncRefStatRead req => Sys2Proof.Machine.execSyncRefStatRead req s
  | .mbxDroppedRead mbx => Sys2Proof.Machine.execMbxDroppedRead mbx s
  | .eventLostRead fn => Sys2Proof.Machine.execEventLostRead fn s
  | .kvLandRead req p => Sys2Proof.Machine.execKvLandRead req p s
  | .flitInject src dst what owner load => Sys2Proof.Machine.execFlitInject src dst what owner load s
  | .flitReceive link up noise => Sys2Proof.Machine.execFlitReceive link up noise s
  | .linkRetrain link => Sys2Proof.Machine.execLinkRetrain link s
  | .retrainDone link ok => Sys2Proof.Machine.execRetrainDone link ok s
  | .writeLand granule mask data => Sys2Proof.Machine.execWriteLand granule mask data s
  | .dramReadDecode granule upset => Sys2Proof.Machine.execDramReadDecode granule upset s
  | .sramReadDecode word upset => Sys2Proof.Machine.execSramReadDecode word upset s
  | .leakTick => Sys2Proof.Machine.execLeakTick s
  | .rebuildComplete st => Sys2Proof.Machine.execRebuildComplete st s
  | .patrolScrub st upset => Sys2Proof.Machine.execPatrolScrub st upset s
  | .refreshRateChange st => Sys2Proof.Machine.execRefreshRateChange st s
  | .dmaReadAhead node => Sys2Proof.Machine.execDmaReadAhead node s
  | .hostBar2Read fn off len attr => Sys2Proof.Machine.execHostBar2Read fn off len attr s
  | .hostBar2Write fn off bytes attr => Sys2Proof.Machine.execHostBar2Write fn off bytes attr s
  | .hostPoisonedWrite fn off len uio attr => Sys2Proof.Machine.execHostPoisonedWrite fn off len uio attr s
  | .uioWrite fn off bytes attr => Sys2Proof.Machine.execUioWrite fn off bytes attr s
  | .cxlMemAccess port addr write len => Sys2Proof.Machine.execCxlMemAccess port addr write len s
  | .atomicOpRequest fn => Sys2Proof.Machine.execAtomicOpRequest fn s
  | .functionLevelReset fn => Sys2Proof.Machine.execFunctionLevelReset fn s
  | .portReset port linkDown => Sys2Proof.Machine.execPortReset port linkDown s
  | .busMasterEnable fn on => Sys2Proof.Machine.execBusMasterEnable fn on s
  | .atsInvalidate fn page => Sys2Proof.Machine.execAtsInvalidate fn page s
  | .ideKm port stream keySet key session => Sys2Proof.Machine.execIdeKm port stream keySet key session s
  | .probeComplete partner ok completer => Sys2Proof.Machine.execProbeComplete partner ok completer s
  | .completionTimeout partner node => Sys2Proof.Machine.execCompletionTimeout partner node s
  | .confirmProbeResult partner ok => Sys2Proof.Machine.execConfirmProbeResult partner ok s
  | .containmentNotice partner completer => Sys2Proof.Machine.execContainmentNotice partner completer s
  | .partnerDrained partner => Sys2Proof.Machine.execPartnerDrained partner s
  | .offerLapse => Sys2Proof.Machine.execOfferLapse s
  | .nodeStart node => Sys2Proof.Machine.execNodeStart node s
  | .bestEffortStart node => Sys2Proof.Machine.execBestEffortStart node s
  | .nodeEnd node => Sys2Proof.Machine.execNodeEnd node s
  | .nodeStopped node => Sys2Proof.Machine.execNodeStopped node s
  | .coreMove core => Sys2Proof.Machine.execCoreMove core s
  | .walkModeApply pod => Sys2Proof.Machine.execWalkModeApply pod s
  | .podFreed pod => Sys2Proof.Machine.execPodFreed pod s
  | .podBoundary pod => Sys2Proof.Machine.execPodBoundary pod s
  | .unparkRestore stream images => Sys2Proof.Machine.execUnparkRestore stream images s
  | .stepRelease pod inst => Sys2Proof.Machine.execStepRelease pod inst s
  | .stepEnd pod inst => Sys2Proof.Machine.execStepEnd pod inst s
  | .sproutWrite index => Sys2Proof.Machine.execSproutWrite index s
  | .sproutLand index => Sys2Proof.Machine.execSproutLand index s
  | .tilePass run => Sys2Proof.Machine.execTilePass run s
  | .stationaryFill run => Sys2Proof.Machine.execStationaryFill run s
  | .bankExit run => Sys2Proof.Machine.execBankExit run s
  | .vectorStep cluster desc => Sys2Proof.Machine.execVectorStep cluster desc s
  | .nop at_ w => Sys2Proof.Machine.execNop at_ w s
  | .end_ at_ w => Sys2Proof.Machine.execEnd at_ w s
  | .bra at_ w => Sys2Proof.Machine.execBra at_ w s
  | .loop at_ w => Sys2Proof.Machine.execLoop at_ w s
  | .bare at_ w => Sys2Proof.Machine.execBare at_ w s
  | .barg at_ w => Sys2Proof.Machine.execBarg at_ w s
  | .engineBarrierRelease engine => Sys2Proof.Machine.execEngineBarrierRelease engine s
  | .groupBarrierRelease group => Sys2Proof.Machine.execGroupBarrierRelease group s
  | .pset at_ w => Sys2Proof.Machine.execPset at_ w s
  | .plog at_ w => Sys2Proof.Machine.execPlog at_ w s
  | .iadd at_ w => Sys2Proof.Machine.execIadd at_ w s
  | .imul at_ w => Sys2Proof.Machine.execImul at_ w s
  | .imad at_ w => Sys2Proof.Machine.execImad at_ w s
  | .and_ at_ w => Sys2Proof.Machine.execAnd at_ w s
  | .or_ at_ w => Sys2Proof.Machine.execOr at_ w s
  | .xor_ at_ w => Sys2Proof.Machine.execXor at_ w s
  | .shl at_ w => Sys2Proof.Machine.execShl at_ w s
  | .shr at_ w => Sys2Proof.Machine.execShr at_ w s
  | .movi at_ w => Sys2Proof.Machine.execMovi at_ w s
  | .sel at_ w => Sys2Proof.Machine.execSel at_ w s
  | .sreg at_ w => Sys2Proof.Machine.execSreg at_ w s
  | .fadd at_ w => Sys2Proof.Machine.execFadd at_ w s
  | .fsub at_ w => Sys2Proof.Machine.execFsub at_ w s
  | .fmul at_ w => Sys2Proof.Machine.execFmul at_ w s
  | .fma at_ w => Sys2Proof.Machine.execFma at_ w s
  | .fmax at_ w => Sys2Proof.Machine.execFmax at_ w s
  | .fmin at_ w => Sys2Proof.Machine.execFmin at_ w s
  | .cvt at_ w => Sys2Proof.Machine.execCvt at_ w s
  | .exp at_ w => Sys2Proof.Machine.execExp at_ w s
  | .recip at_ w => Sys2Proof.Machine.execRecip at_ w s
  | .rsqrt at_ w => Sys2Proof.Machine.execRsqrt at_ w s
  | .silu at_ w => Sys2Proof.Machine.execSilu at_ w s
  | .fred at_ w => Sys2Proof.Machine.execFred at_ w s
  | .maxi at_ w => Sys2Proof.Machine.execMaxi at_ w s
  | .smstep at_ w => Sys2Proof.Machine.execSmstep at_ w s
  | .xmac at_ w => Sys2Proof.Machine.execXmac at_ w s
  | .xclr at_ w => Sys2Proof.Machine.execXclr at_ w s
  | .xred at_ w => Sys2Proof.Machine.execXred at_ w s
  | .xexit at_ w => Sys2Proof.Machine.execXexit at_ w s
  | .qblk at_ w => Sys2Proof.Machine.execQblk at_ w s
  | .ldl at_ w => Sys2Proof.Machine.execLdl at_ w s
  | .stl at_ w => Sys2Proof.Machine.execStl at_ w s
  | .lds at_ w => Sys2Proof.Machine.execLds at_ w s
  | .sts at_ w => Sys2Proof.Machine.execSts at_ w s
  | .ldg at_ w => Sys2Proof.Machine.execLdg at_ w s
  | .stg at_ w => Sys2Proof.Machine.execStg at_ w s
  | .gcopy at_ w => Sys2Proof.Machine.execGcopy at_ w s
  | .xchg at_ w => Sys2Proof.Machine.execXchg at_ w s
  | .waitc at_ w => Sys2Proof.Machine.execWaitc at_ w s
  | .sprt at_ w => Sys2Proof.Machine.execSprt at_ w s
  | .exchangeLand index => Sys2Proof.Machine.execExchangeLand index s
  | .waitcRelease at_ => Sys2Proof.Machine.execWaitcRelease at_ s
  | .copyTensor node => Sys2Proof.Machine.execCopyTensor node s
  | .kvGather node => Sys2Proof.Machine.execKvGather node s
  | .finalWrite node => Sys2Proof.Machine.execFinalWrite node s
  | .syncJoin node => Sys2Proof.Machine.execSyncJoin node s
  | .syncAcquire node => Sys2Proof.Machine.execSyncAcquire node s
  | .syncRelease node => Sys2Proof.Machine.execSyncRelease node s
  | .syncWaitLand node => Sys2Proof.Machine.execSyncWaitLand node s
  | .waitLandEnd node => Sys2Proof.Machine.execWaitLandEnd node s
  | .hostEventNode node => Sys2Proof.Machine.execHostEventNode node s
  | .fenceDecided u reason => Sys2Proof.Machine.execFenceDecided u reason s
  | .hubLost hub => Sys2Proof.Machine.execHubLost hub s
  | .hubHeartbeat hub flitArrives wireArrives => Sys2Proof.Machine.execHubHeartbeat hub flitArrives wireArrives s
  | .pathLost hub wire => Sys2Proof.Machine.execPathLost hub wire s
  | .contactRestored => Sys2Proof.Machine.execContactRestored s
  | .softStartDone rail => Sys2Proof.Machine.execSoftStartDone rail s
  | .softStartLow rail millivolt => Sys2Proof.Machine.execSoftStartLow rail millivolt s
  | .overcurrent rail millivolt => Sys2Proof.Machine.execOvercurrent rail millivolt s
  | .sensorSample readings => Sys2Proof.Machine.execSensorSample readings s
  | .budgetRise die => Sys2Proof.Machine.execBudgetRise die s
  | .externalSample diodes therms => Sys2Proof.Machine.execExternalSample diodes therms s
  | .powerSample watts => Sys2Proof.Machine.execPowerSample watts s
  | .marginReplan floors => Sys2Proof.Machine.execMarginReplan floors s
  | .deferredReplay => Sys2Proof.Machine.execDeferredReplay s
  | .frameEdge => Sys2Proof.Machine.execFrameEdge s
  | .stepSyncEdge level => Sys2Proof.Machine.execStepSyncEdge level s
  | .syncStuck => Sys2Proof.Machine.execSyncStuck s
  | .stepOutEnd => Sys2Proof.Machine.execStepOutEnd s
  | .refclkQualified port => Sys2Proof.Machine.execRefclkQualified port s
  | .refclkLost port => Sys2Proof.Machine.execRefclkLost port s
  | .vaux3Rise addrSel => Sys2Proof.Machine.execVaux3Rise addrSel s
  | .vaux3Loss => Sys2Proof.Machine.execVaux3Loss s
  | .vin48Undervoltage => Sys2Proof.Machine.execVin48Undervoltage s
  | .vin48Overvoltage => Sys2Proof.Machine.execVin48Overvoltage s
  | .pwrGoodRise leadSel => Sys2Proof.Machine.execPwrGoodRise leadSel s
  | .pwrGoodFall => Sys2Proof.Machine.execPwrGoodFall s
  | .resetNAssert => Sys2Proof.Machine.execResetNAssert s
  | .resetNDeassert leadSel => Sys2Proof.Machine.execResetNDeassert leadSel s
  | .bootStage products sums => Sys2Proof.Machine.execBootStage products sums s
  | .firmwareFallback => Sys2Proof.Machine.execFirmwareFallback s
  | .drbgReseed => Sys2Proof.Machine.execDrbgReseed s
  | .requestUpdate => Sys2Proof.Machine.execRequestUpdate s
  | .passComponentTable => Sys2Proof.Machine.execPassComponentTable s
  | .updateComponent size => Sys2Proof.Machine.execUpdateComponent size s
  | .requestFirmwareData bytes => Sys2Proof.Machine.execRequestFirmwareData bytes s
  | .transferComplete => Sys2Proof.Machine.execTransferComplete s
  | .verifyComplete => Sys2Proof.Machine.execVerifyComplete s
  | .applyComplete => Sys2Proof.Machine.execApplyComplete s
  | .activateFirmware => Sys2Proof.Machine.execActivateFirmware s
  | .cancelUpdateComponent => Sys2Proof.Machine.execCancelUpdateComponent s
  | .cancelUpdate => Sys2Proof.Machine.execCancelUpdate s
  | .getStatus => Sys2Proof.Machine.execGetStatus s
  | .queryDeviceIdentifiers => Sys2Proof.Machine.execQueryDeviceIdentifiers s
  | .getVersion => Sys2Proof.Machine.execGetVersion s
  | .getCapabilities => Sys2Proof.Machine.execGetCapabilities s
  | .negotiateAlgorithms algs => Sys2Proof.Machine.execNegotiateAlgorithms algs s
  | .getDigests => Sys2Proof.Machine.execGetDigests s
  | .getCertificate slot off len => Sys2Proof.Machine.execGetCertificate slot off len s
  | .challenge nonce => Sys2Proof.Machine.execChallenge nonce s
  | .getMeasurements index nonce => Sys2Proof.Machine.execGetMeasurements index nonce s
  | .keyExchange pub => Sys2Proof.Machine.execKeyExchange pub s
  | .finish session => Sys2Proof.Machine.execFinish session s
  | .heartbeat session => Sys2Proof.Machine.execHeartbeat session s
  | .keyUpdate session => Sys2Proof.Machine.execKeyUpdate session s
  | .endSession session => Sys2Proof.Machine.execEndSession session s
  | .entdaa addr => Sys2Proof.Machine.execEntdaa addr s
  | .setdasa addr => Sys2Proof.Machine.execSetdasa addr s
  | .rstdaa => Sys2Proof.Machine.execRstdaa s
  | .enec mask => Sys2Proof.Machine.execEnec mask s
  | .disec mask => Sys2Proof.Machine.execDisec mask s
  | .getpid => Sys2Proof.Machine.execGetpid s
  | .getbcr => Sys2Proof.Machine.execGetbcr s
  | .getdcr => Sys2Proof.Machine.execGetdcr s
  | .getstatus => Sys2Proof.Machine.execGetstatus s
  | .setmwl len => Sys2Proof.Machine.execSetmwl len s
  | .getmwl => Sys2Proof.Machine.execGetmwl s
  | .setmrl len => Sys2Proof.Machine.execSetmrl len s
  | .getmrl => Sys2Proof.Machine.execGetmrl s
  | .mgmtReadPkgTj => Sys2Proof.Machine.execMgmtReadPkgTj s
  | .mgmtReadStatus => Sys2Proof.Machine.execMgmtReadStatus s
  | .mgmtReadPower => Sys2Proof.Machine.execMgmtReadPower s
  | .mgmtReadCap => Sys2Proof.Machine.execMgmtReadCap s
  | .mgmtReadLifecycle => Sys2Proof.Machine.execMgmtReadLifecycle s
  | .mgmtReadDieTj k => Sys2Proof.Machine.execMgmtReadDieTj k s
  | .extest => Sys2Proof.Machine.execExtest s
  | .idcode => Sys2Proof.Machine.execIdcode s
  | .samplePreload cells => Sys2Proof.Machine.execSamplePreload cells s
  | .clamp => Sys2Proof.Machine.execClamp s
  | .highz => Sys2Proof.Machine.execHighz s
  | .internalAccess => Sys2Proof.Machine.execInternalAccess s
  | .bypass => Sys2Proof.Machine.execBypass s
  | .trstNAssert => Sys2Proof.Machine.execTrstNAssert s
  | .frameWindowClose => Sys2Proof.Machine.execFrameWindowClose s
  | .stepSyncUnstuck => Sys2Proof.Machine.execStepSyncUnstuck s
  | .ovf24Expiry die => Sys2Proof.Machine.execOvf24Expiry die s
  | .rebuildSlot st upset => Sys2Proof.Machine.execRebuildSlot st upset s
  | .graphLoadComplete pod graph => Sys2Proof.Machine.execGraphLoadComplete pod graph s
  | .fillComplete index => Sys2Proof.Machine.execFillComplete index s
  | .repairComplete tile faults badSlots => Sys2Proof.Machine.execRepairComplete tile faults badSlots s
  | .writeAcknowledged window sender ok => Sys2Proof.Machine.execWriteAcknowledged window sender ok s
  | .perstNDeassert port => Sys2Proof.Machine.execPerstNDeassert port s

end Sys2Proof.Machine
end

