-- ==== Sys2Proof/Machine/Time.lean ====
section
/-! DEFINITION. Device time (R394): one 64-bit counter on each hub, counting nanoseconds in steps of 10. -/

namespace Sys2Proof.Machine

open Sys2Proof

/-- One cycle of the 100 MHz tone while VAUX3 is in range: each counter rises by 10 ns (R394), modulo 2^64. -/
def idleCycle (s : State) : State :=
  if s.pins.vaux3 then
    { s with clock := { s.clock with timeA := (s.clock.timeA + 10) % 2 ^ 64, timeB := (s.clock.timeB + 10) % 2 ^ 64 } }
  else s

end Sys2Proof.Machine
end

