-- ==== Sys2Proof/Safety.lean ====
section
/-! DEFINITION. The terms in which claims about the part are stated: when a mailbox command is taken, what it answers, and which
parts of the state a command may change. -/

namespace Sys2Proof.Machine

open Sys2Proof

/-- The tag of a completion: GRAPH_RUN's and BATCH_STEP's own field, else 0 (R315). -/
def tagOf (e : BitVec 512) : Nat :=
  if entOpcode e = 0x31 then ent e 351 320 else if entOpcode e = 0x44 then ent e 447 416 else 0

/-- The command's identity in a mailbox whose epoch is still that of its acknowledgement. -/
def tokIn (s : State) (sub : Submission) : CmdTok := tokOf sub (getMbx s sub.mbx).epoch (tagOf sub.entry)

/-- The row of a framework entry and a selector is the one that the oldest acknowledged command of its mailbox asks for, no command of
its pod from another mailbox comes before it, and the mailbox has not stopped since (R261, R312, R313). -/
def Takes (sp : Spec) (sel : BitVec 512 → Bool) (sub : Submission) (s : State) : Prop :=
  nextAcked s sub.mbx = some (sub, (getMbx s sub.mbx).epoch) ∧ entOpcode sub.entry = sp.op ∧ sel sub.entry = true

/-- The state in which a taken command runs: it is no longer in the acknowledged list. -/
def taken (sub : Submission) (s : State) : State :=
  { s with acked := s.acked.erase (sub, (getMbx s sub.mbx).epoch) }

/-- A command that answers with one completion, after a change of the state. -/
def answers (sub : Submission) (st : Status) (v0 v1 : Nat) (s : State) (change : State → State) : State :=
  only sub (tokIn s sub) st v0 v1 (change (taken sub s))

/-- The part wrote this completion into the mailbox's next slot (R313, R315). -/
def Posts (sub : Submission) (k : CKind) (st : Status) (v0 v1 : Nat) (s t : State) : Prop :=
  Out.completion sub.mbx (getMbx s sub.mbx).cqTail
    (completionEntry st (tokIn s sub) (getMbx s sub.mbx).phase k (getMbx s sub.mbx).sqHead v0 v1) (mbxPasid (getMbx s sub.mbx)) ∈ t.out

/-- `s` with what answering a command moves taken from `t`: mailboxes, rings and vectors, outputs, the acknowledged list. -/
def answering (t s : State) : State := { s with mboxes := t.mboxes, funcs := t.funcs, out := t.out, acked := t.acked }

/-- `s` with what posting an event moves taken from `t`: rings, vectors and outputs. -/
def reporting (t s : State) : State := { s with funcs := t.funcs, out := t.out }

/-- Every byte of memory reads in `t` as in `s`, poison and stored errors included. -/
def sameMemory (s t : State) : Prop :=
  t.mem = s.mem ∧ t.zeroed = s.zeroed ∧ t.poison = s.poison ∧ t.dramErr = s.dramErr ∧ t.sramErr = s.sramErr

/-- A requester's writes reach a register of the CSR range: a control core's, or those of a function that is there, whose port is in
service and which reaches the register (R37, R346, R478). -/
def csrWriter (s : State) (req : Requester) (off len : Nat) : Bool :=
  match req with
  | .control => true
  | .fn f => fnAlive s f && fnCsr s f off len true

/-- The form of memory (equal memories are equal data). -/
def MemoryForm (s : State) : Prop := Memory.wf s.zeroed s.mem = true

/-! ### Engine instructions -/

/-- The part after an instruction `op` with fields `w` that goes on to the next one, leaving group `h` and state `s` behind it: its group
has moved past the instruction, its results may be outstanding, and where it was the program's last the node ends FAULTED with BAD_CODE
(R126, R152). -/
def advanced (op : EngOp) (at_ : Issue) (w : EngFields) (run : EngineRun) (g h : Group) (s : State) : State :=
  let t := putGroup at_.engine { h with pc := g.pc + 1, late := lateAfter op w g.late } s
  if g.pc + 1 = run.desc.codeLen then faultNode run.node csBAD_CODE t else t

/-- The part after a taken branch `op` with fields `w` to a target, leaving group `h` and state `s` behind it. -/
def branched (op : EngOp) (at_ : Issue) (w : EngFields) (g h : Group) (target : Nat) (s : State) : State :=
  putGroup at_.engine { h with pc := target, late := lateAfter op w g.late } s

/-- `h` is `g` but for registers: in each lane of `l` the registers that `new` names have its values and poison bits, and every other
register and every poison bit of a predicate is as before. -/
def RegsBecome (g h : Group) (l : List Nat) (new : Nat → Nat → Option (BitVec 32 × Bool)) : Prop :=
  (∀ i r, i < 32 → r < 64 → (rv h i r, rpo h i r) = if i ∈ l then (new i r).getD (rv g i r, rpo g i r) else (rv g i r, rpo g i r)) ∧
  (∀ i k, i < 32 → k < 8 → ppo h i k = ppo g i k) ∧ h = { g with v := h.v, poison := h.poison }

/-- `h` is `g` but for predicate `d`: it has the given value and poison in each lane of `l`, unless it is p0. -/
def PredBecomes (g h : Group) (l : List Nat) (d : Nat) (new : Nat → Bool × Bool) : Prop :=
  (∀ i k, i < 32 → k < 8 → (pv h i k, ppo h i k) = if i ∈ l ∧ k = d ∧ k ≠ 0 then new i else (pv g i k, ppo g i k)) ∧
  (∀ i r, i < 32 → r < 64 → rpo h i r = rpo g i r) ∧ h = { g with p := h.p, poison := h.poison }

/-- `h` is `g` but for accumulator `d`: in each lane where `new` names one it is that, elsewhere as before. -/
def AccBecomes (g h : Group) (d : Nat) (new : Nat → Option EngAcc) : Prop :=
  (∀ i k, i < 32 → k < 8 → acv h i k = if k = d then (new i).getD (acv g i k) else acv g i k) ∧ h = { g with acc := h.acc }

end Sys2Proof.Machine
end

