-- ==== Sys2Proof/Certificates/Slice0/Obligations.lean ====
section
/-! DEFINITION. The statements for the provers. Each says what the commands it names do, as an equation for the next state wherever the rules
give it whole: an equation of states is the frame as well, since every field that it does not name is as before. `Takes sp sel sub s` says that
the submission is the oldest acknowledged of its mailbox and selects the row; `answers` and `postFirst` post its completions. -/

open Sys2Proof Sys2Proof.Machine

/-- R261, R312, R313 (the framework of a block): with a command at the front of the queue a step is exec of it on the state with the queue's
rest; with none, and VAUX3 in range, one cycle of the tone adds 10 ns to both device-time counters and does nothing else (R394; the idle
cycle is the model's choice, log entry 1). -/
def Obligations.StepRunsFront : Prop :=
  (∀ (s : State) (c : Instr), step { s with pending := c :: s.pending } = exec c s) ∧
  (∀ (s : State) (c : Instr) (r : List Instr), s.pending = c :: r → step s = exec c { s with pending := r }) ∧
  (∀ (s : State), s.pending = [] → s.pins.vaux3 = true →
    step s = .next { s with clock := { s.clock with timeA := (s.clock.timeA + 10) % 2 ^ 64, timeB := (s.clock.timeB + 10) % 2 ^ 64 } })

/-- R263, R266, R311, R317, R344, R361, R385, R394, R398, R414, R424: what a part reset leaves: pods FREE, no region, every mailbox DISABLED
with its block 0, rails OFF, and the values the manual gives the configuration; memory has its form. -/
def Obligations.ResetLeaves : Prop :=
  (∀ p, (getPod State.reset p).state = .free) ∧ (∀ r, getRegion State.reset r = none) ∧
  (∀ m, (getMbx State.reset m).enable = false ∧ (getMbx State.reset m).state = 0 ∧ (getMbx State.reset m).sqBase = 0 ∧
    (getMbx State.reset m).cqBase = 0 ∧ (getMbx State.reset m).sqTail = 0 ∧ (getMbx State.reset m).cqHead = 0 ∧
    (getMbx State.reset m).outstanding = 0 ∧ (getMbx State.reset m).dropped = 0) ∧
  (∀ fn, (getFunc State.reset fn).evEnable = false ∧ (getFunc State.reset fn).lost = 0) ∧ (∀ i, getRail State.reset i = .off) ∧
  (∀ i, (getStream State.reset i).state = .free) ∧ State.reset.fences = [] ∧ State.reset.owner = some 0 ∧
  State.reset.eccCfg = (24, 255, 60, 2) ∧ State.reset.clock.f = 10000000 ∧ State.reset.clock.useSync = true ∧ State.reset.clock.useHost = false ∧
  State.reset.thermal.inletMax = 40 ∧ State.reset.thermal.warnMx = 30 ∧ State.reset.thermal.actMx = 60 ∧ State.reset.power.capW = 4800 ∧
  now State.reset = 0 ∧ State.reset.pending = [] ∧ MemoryForm State.reset

/-- R144, R148: every word of an engine's opcode and fields decodes to them, and a word that decodes is the word of what it decodes to; its
fields stand at the bit positions of R144; a word whose bits 63:56 are no opcode of R148 decodes to nothing. -/
def Obligations.EngineWordsRoundTrip : Prop :=
  (∀ (o : EngOp) (f : EngFields), decodeWord (encodeWord o f) = some (o, f)) ∧
  (∀ (w : BitVec 64) (o : EngOp) (f : EngFields), decodeWord w = some (o, f) → encodeWord o f = w ∧ opCode o = w.extractLsb' 56 8 ∧
    f.d = w.extractLsb' 50 6 ∧ f.a = w.extractLsb' 44 6 ∧ f.b = w.extractLsb' 38 6 ∧ f.c = w.extractLsb' 32 6 ∧ f.imm = w.extractLsb' 0 32) ∧
  (∀ (w : BitVec 64), decodeWord w = none ↔ ∀ o, opCode o ≠ w.extractLsb' 56 8)

/-- The invariant of memory (R289, R291, R292, R366, R451): a step from a state whose memory has its form, addresses strictly rising and no
byte listed that reads the same unlisted, goes to one whose memory has it. -/
def Obligations.MemoryFormKept : Prop := ∀ (s t : State), MemoryForm s → step s = .next t → MemoryForm t

/-- R315, R323 rows 2 to 5, R437, R438: a command that its mailbox may not issue now is answered with the status of the first row that applies
and changes nothing else; in RETIRED every one of these commands fails with LOCKED, while a DEBUG_UNLOCK sequence runs every command (R450),
and under a demoted hub with LOST_LEAD. -/
def Obligations.CommandsTurnedAway : Prop :=
  (∀ (s : State) (sub : Submission) (hash : BitVec 384) (token : BitVec 4096) (fell : Bool) (c : Instr) (sp : Spec) (sel : BitVec 512 → Bool)
      (st : Status),
    (c, sp, sel) ∈ ([(.podCreate sub, spCreate, fun e => !entFlag e), (.podCreateAmend sub, spCreate, entFlag),
      (.podSetQuota sub, spQuota, fun _ => true), (.podMoveCores sub, spMove, fun _ => true), (.podBind sub, spBind, fun e => bit e.toNat 68),
      (.podUnbind sub, spBind, fun e => !bit e.toNat 68), (.podDestroy sub, spDestroy, fun _ => true),
      (.regionMap sub, spMap, fun e => ent e 65 64 ≠ 1), (.mirrorDeclare sub, spMap, fun e => ent e 65 64 = 1),
      (.regionUnmap sub, spUnmap, fun _ => true), (.memFill sub, spFill, fun _ => true), (.windowMap sub, spWindow, fun _ => true)] ++
     [(.graphLoad sub, spLoad, fun e => !entFlag e), (.graphUnload sub, spLoad, entFlag), (.graphRun sub, spRun, fun _ => true),
      (.graphCancel sub, spCancel, fun _ => true), (.journalRead sub, spJournal, fun _ => true), (.batchStep sub, spStep, fun _ => true),
      (.streamOpen sub, spOpen, fun e => !entFlag e), (.streamOpenInbound sub, spOpen, entFlag), (.streamCancel sub, spStrCancel, fun _ => true),
      (.streamPark sub, spPark, fun _ => true), (.streamUnpark sub, spUnpark, fun _ => true), (.streamShip sub, spShip, fun _ => true),
      (.adapterLoad sub, spAdapter, fun _ => true), (.prefixInsert sub, spInsert, fun e => !entFlag e), (.prefixRemove sub, spInsert, entFlag),
      (.prefixLookup sub, spLookup, fun _ => true)] ++
     [(.fenceRequest sub, spFence, fun _ => true), (.unfence sub, spUnfence, fun _ => true), (.fuseRepair sub, spRepair, fun _ => true),
      (.takeover sub token fell, spTakeover, fun _ => true), (.thermalConfig sub, spThermal, fun _ => true),
      (.powerLimit sub, spPower, fun e => !entFlag e), (.powerLimitForce sub, spPower, entFlag), (.timeSet sub, spTimeSet, fun _ => true),
      (.timeGet sub, spTimeGet, fun _ => true), (.debugUnlock sub token, spDebug, fun _ => true),
      (.lifecycleRead sub, spLifecycle, fun e => lcMode e = 0), (.setOwner sub hash, spLifecycle, fun e => lcMode e = 1),
      (.rotateOwner sub token, spLifecycle, fun e => lcMode e = 2), (.retire sub token, spLifecycle, fun e => lcMode e = 3)] :
      List (Instr × Spec × (BitVec 512 → Bool))) →
    Takes sp sel sub s → checkFrom sp sub s = some st → exec c s = .next (answers sub st 0 0 s id)) ∧
  (∀ (s : State) (sub : Submission) (st : Status), Posts sub .only st 0 0 s (answers sub st 0 0 s id) ∧
    answers sub st 0 0 s id = answering (answers sub st 0 0 s id) s) ∧
  (∀ (s : State) (sp : Spec) (sub : Submission),
    (lifecycle s = 3 → sp.op ∉ [0x01, 0x02, 0x04, 0x92] → checkFrom sp sub s = some stLOCKED) ∧
    (s.sec.unlock ≠ none → checkFrom sp sub s = some stLOCKED) ∧
    (lifecycle s ≠ 3 → s.sec.retiring = false → s.sec.unlock = none → (getHub s (fnHub sub.mbx.fn)).lead = .demoted →
      sp.op ∉ [0x01, 0x02, 0x04, 0x80] → checkFrom sp sub s = some stLOST_LEAD))

/-- R161: MAXI gives every lane that takes part the largest of their values, -0 below +0, and the lowest index that holds it; where a value is
a NaN, the canonical NaN and the lowest index that holds a NaN. -/
def Obligations.MaxiFindsLargest : Prop :=
  ∀ (s : State) (at_ : Issue) (w : EngFields) (run : EngineRun) (g : Group) (l : List Nat), readyGroup .maxi at_ w s = some (run, g) →
    w.d.toNat ≤ 62 → guarded_ g w = l → l ≠ [] → ∃ h m k, exec (.maxi at_ w) s = .next (advanced .maxi at_ w run g h s) ∧
      (∀ i, i ∈ l → rv h i w.d.toNat = m ∧ rv h i (w.d.toNat + 1) = k) ∧
      ((∀ i, i ∈ l → fvIsNan (fp32Val (rv g i w.a.toNat)) = false) →
        (∀ i, i ∈ l → fp32Less m (rv g i w.a.toNat) = false) ∧ (∃ i, i ∈ l ∧ rv g i w.a.toNat = m ∧ rv g i w.b.toNat = k) ∧
        (∀ i, i ∈ l → rv g i w.a.toNat = m → k.toNat ≤ (rv g i w.b.toNat).toNat)) ∧
      ((∃ i, i ∈ l ∧ fvIsNan (fp32Val (rv g i w.a.toNat)) = true) → m = 0x7FC00000#32 ∧
        (∃ i, i ∈ l ∧ fvIsNan (fp32Val (rv g i w.a.toNat)) = true ∧ rv g i w.b.toNat = k) ∧
        (∀ i, i ∈ l → fvIsNan (fp32Val (rv g i w.a.toNat)) = true → k.toNat ≤ (rv g i w.b.toNat).toNat)) ∧
      fp32Less 0x80000000#32 0#32 = true

/-- R418 (with the rate of R417): at a sample that a die's rate reaches its warning rate the warning is active, and where it was not,
THERMAL_RISE is posted with the die and the rate; after 16 consecutive samples below it the warning clears; until then no second event is
posted. -/
def Obligations.ThermalWarning : Prop :=
  ∀ (s : State) (n : Nat) (d : ThmDie) (top : Int), n < 22 → SMap.get {} s.thermal.dies n = d → indexTj s n = top → ∃ d',
    SMap.get {} (rateDie n s).thermal.dies n = d' ∧ d'.hist = (top :: d.hist).take 16 ∧
    (d.hist.length < 16 → d'.rate = 0 ∧ (d'.warn = true → d.warn = true)) ∧
    (16 ≤ d.hist.length → d'.rate = (top - nth 0 d.hist 15) * 12500 / 1024) ∧
    (16 ≤ d.hist.length → 10240 * (warnRate s.thermal n : Int) ≤ 12500 * (top - nth 0 d.hist 15) → d'.warn = true ∧ d'.below = 0 ∧
      (d.warn = false → ∃ t, postDevice 0x05 n (unsigned 64 d'.rate) (putThm n d' s) = t ∧
        (d'.action = false → rateDie n s = t) ∧ (d'.action = true → rateDie n s = recordLate (onDie t n) 0x05 n t)) ∧
      (d.warn = true → (rateDie n s).out = s.out)) ∧
    (12500 * (top - nth 0 d.hist 15) < 10240 * (warnRate s.thermal n : Int) → d'.below = min 16 (d.below + 1) ∧
      d'.warn = (d.warn && decide (d.below + 1 < 16)) ∧ (rateDie n s).out = s.out)

/-- R45, R46 (with the scale of R44): the 15 bytes of a TB2 record give 64 elements. Byte j, 0 to 11, holds elements 5j to 5j + 4 as d0 + 3 d1
+ 9 d2 + 27 d3 + 81 d4 and byte 12 elements 60 to 63 as d0 + 3 d1 + 9 d2 + 27 d3; digit 0 is 0, 1 is +1 and 2 is -1, times the BF16 scale
of bytes 14:13. A byte 0 to 11 of 243 or more, or a byte 12 of 81 or more, holds zeros and counts one BAD_TRIT. A scale that is a NaN or
an infinity makes every element the NaN, counts one NAN_SCALE and no BAD_TRIT. -/
def Obligations.TernaryRecordsDecode : Prop :=
  ∀ (bs : List Byte) (scaled : Bool) (c : Nat) (byte : Nat → Nat) (trit : Nat → FVal), bs.length = 15 →
    (∀ j, byte j = (nth 0 bs j).toNat) → c = byte 13 + 256 * byte 14 →
    (∀ d, trit d = if d = 0 then .fin false 0 0 else if d = 1 then .fin false 1 0 else .fin true 1 0) → ∃ r, loadRecord 0xA scaled bs = r ∧
      r.vals.length = 64 ∧
      (c / 128 % 256 ≠ 255 → r.nanScale = 0 ∧
        r.badTrit = ((List.range 12).filter (fun j => decide (243 ≤ byte j))).length + (if 81 ≤ byte 12 then 1 else 0) ∧
        (∀ j d0 d1 d2 d3 d4, j < 12 → d0 < 3 → d1 < 3 → d2 < 3 → d3 < 3 → d4 < 3 → byte j = d0 + 3 * d1 + 9 * d2 + 27 * d3 + 81 * d4 →
          (r.vals.drop (5 * j)).take 5 = [d0, d1, d2, d3, d4].map (fun d => fvMul (trit d) (fltDecode fltBF16 c))) ∧
        (∀ d0 d1 d2 d3, d0 < 3 → d1 < 3 → d2 < 3 → d3 < 3 → byte 12 = d0 + 3 * d1 + 9 * d2 + 27 * d3 →
          r.vals.drop 60 = [d0, d1, d2, d3].map (fun d => fvMul (trit d) (fltDecode fltBF16 c))) ∧
        (∀ j, j < 12 → 243 ≤ byte j → (r.vals.drop (5 * j)).take 5 = List.replicate 5 (fvMul (trit 0) (fltDecode fltBF16 c))) ∧
        (81 ≤ byte 12 → r.vals.drop 60 = List.replicate 4 (fvMul (trit 0) (fltDecode fltBF16 c)))) ∧
      (c / 128 % 256 = 255 → r.nanScale = 1 ∧ r.badTrit = 0 ∧ ∀ v, v ∈ r.vals → v = .nan)

/-- R312: writing ENABLE = 1 to a stopped mailbox with good parameters makes it RUNNING with ERR, SQ_HEAD, SQ_TAIL, CQ_HEAD and CQ_TAIL 0 and
the completion phase 1; bad parameters make the state ERROR with ERR 4, announced on vector 2. R312, R313: writing ENABLE = 0 stops a
mailbox; a doorbell of a RUNNING mailbox that is READY sets SQ_TAIL, or makes the state ERROR with ERR 1 at or above 2^SQ_LOG; CQ_HEAD
likewise, with ERR 2 at or above 2^CQ_LOG; a doorbell of a stopped mailbox is ignored. R261: a doorbell write that moves SQ_TAIL takes its
hub's next place in the order of doorbell writes. R313, R323 row 1: acknowledging a waiting entry whose completion slots are free advances
SQ_HEAD (to 0 past the last index), counts it outstanding, reserves its slots and puts a command of a known opcode at the end of the
acknowledged list, with the pod that the mailbox serves (R342) and its place in the order of doorbells; with too few slots free the entry
waits; a ring access that fails on the bus makes the state of a RUNNING mailbox ERROR with ERR 3. -/
def Obligations.MailboxCommandsRun : Prop :=
  (-- the MailboxEnable clauses
  ∀ (s : State) (m : Mbx) (b : Mailbox), mbxAlive s m = true → getMbx s m = b → b.state ≠ 1 →
    (mbxParamsOk b = true → ∃ t, exec (.mbxEnable m) s = .next t ∧
      getMbx t m = { b with enable := true, state := 1, err := 0, sqHead := 0, sqTail := 0, cqHead := 0, cqTail := 0, phase := true,
                            reserved := 0, bells := [] } ∧
      t = { s with mboxes := t.mboxes, funcs := t.funcs } ∧ (∀ n, mbxKey n ≠ mbxKey m → getMbx t n = getMbx s n)) ∧
    (mbxParamsOk b = false → ∃ t, exec (.mbxEnable m) s = .next t ∧
      getMbx t m = { b with enable := true, state := 2, err := 4, sqHead := 0, sqTail := 0, cqHead := 0, cqTail := 0, phase := true,
                            reserved := 0, bells := [], epoch := b.epoch + 1 } ∧
      getFunc t m.fn = { getFunc s m.fn with msixPend := (getFunc s m.fn).msixPend.set 2 true } ∧
      t = { s with mboxes := t.mboxes, funcs := t.funcs })) ∧
  (-- the MailboxDoorbells clauses
  (∀ (s : State) (m : Mbx) (b : Mailbox), mbxAlive s m = true → getMbx s m = b →
    exec (.mbxDisable m) s = .next (setMbx m { b with enable := false, state := 0, epoch := if b.state = 1 then b.epoch + 1 else b.epoch,
                                                        bells := [] } s)) ∧
  (∀ (s : State) (m : Mbx) (b : Mailbox) (v : BitVec 16), mbxAlive s m = true → getMbx s m = b → b.state = 1 → ready s (fnHub m.fn) = true →
    (v.toNat = b.sqTail → v.toNat < 2 ^ b.sqLog → exec (.sqDoorbell m v) s = .next s) ∧
    (v.toNat ≠ b.sqTail → v.toNat < 2 ^ b.sqLog → ∀ h : Hub, getHub s (fnHub m.fn) = h → exec (.sqDoorbell m v) s = .next
      (setHub (fnHub m.fn) { h with bells := h.bells + 1 }
        (setMbx m { b with sqTail := v.toNat, bells := b.bells ++ [(v.toNat, h.bells + 1)] } s))) ∧
    (2 ^ b.sqLog ≤ v.toNat → exec (.sqDoorbell m v) s =
      .next (pendVec m.fn 2 (setMbx m { b with state := 2, err := 1, epoch := b.epoch + 1, bells := [] } s)))) ∧
  (∀ (s : State) (m : Mbx) (v : BitVec 16), (getMbx s m).state ≠ 1 → exec (.sqDoorbell m v) s = .next s) ∧
  (∀ (s : State) (m : Mbx) (b : Mailbox) (v : BitVec 16), mbxAlive s m = true → getMbx s m = b → b.state = 1 →
    (v.toNat < 2 ^ b.cqLog → exec (.cqHeadWrite m v) s = .next (setMbx m { b with cqHead := v.toNat } s)) ∧
    (2 ^ b.cqLog ≤ v.toNat → exec (.cqHeadWrite m v) s =
      .next (pendVec m.fn 2 (setMbx m { b with state := 2, err := 2, epoch := b.epoch + 1, bells := [] } s))))) ∧
  (-- the SubmissionAcknowledged clauses
  (∀ (s : State) (m : Mbx) (e : BitVec 512) (b : Mailbox), entryWaits s m = true → getMbx s m = b →
    (slotsOf e ≤ freeSlots b → opcodes.contains (entOpcode e) = true → ∃ t, exec (.submissionAck m e true) s = .next t ∧
      getMbx t m = { b with sqHead := if b.sqHead + 1 = 2 ^ b.sqLog then 0 else b.sqHead + 1, outstanding := b.outstanding + 1,
                            reserved := b.reserved + slotsOf e, bells := bellsLeft b (ringNext b.sqLog b.sqHead) } ∧
      t = { s with mboxes := t.mboxes, funcs := t.funcs,
                   acked := s.acked ++ [({ mbx := m, entry := e, pod := boundPod s m.fn, bell := (b.bells.head?.map (fun x => x.2)).getD 0 },
                                         b.epoch)] }) ∧
    (freeSlots b < slotsOf e → exec (.submissionAck m e true) s = .next s)) ∧
  (∀ (s : State) (m : Mbx) (e : BitVec 512) (b : Mailbox), mbxAlive s m = true → getMbx s m = b → b.state = 1 →
    exec (.submissionAck m e false) s = .next (pendVec m.fn 2 (setMbx m { b with state := 2, err := 3, epoch := b.epoch + 1, bells := [] } s))))

/-- R311, R317, R318: the event ring starts empty with phase 1; LOST_FLAG is cleared by writing 1; EV_HEAD moves; DROPPED and LOST are
returned and cleared by their reads; a pending unmasked vector of a bus master with MSI-X enabled and unmasked sends its message. -/
def Obligations.RingRegisters : Prop :=
  (∀ (s : State) (fn : Nat) (f : Func), fnAlive s fn = true → getFunc s fn = f → f.evEnable = false → 4 ≤ f.evLog → f.evLog ≤ 12 →
    ∃ t, exec (.eventRingEnable fn) s = .next t ∧
      getFunc t fn = { f with evEnable := true, evHead := 0, evTail := 0, phase := true, ats := (getFunc t fn).ats } ∧
      t = { s with funcs := t.funcs } ∧ (∀ g, g ≠ fn → getFunc t g = getFunc s g)) ∧
  (∀ (s : State) (fn : Nat), fnAlive s fn = true →
    exec (.lostFlagClear fn) s = .next (setFunc fn { getFunc s fn with lostFlag := false } s)) ∧
  (∀ (s : State) (fn : Nat) (v : BitVec 16), fnAlive s fn = true →
    exec (.evHeadWrite fn v) s = .next (setFunc fn { getFunc s fn with evHead := v.toNat } s)) ∧
  (∀ (s : State) (fn vec : Nat) (f : Func) (a : BitVec 64 × BitVec 32), fnAlive s fn = true → getFunc s fn = f → f.bme = true → f.msixOn = true →
    f.msixMask = false → nth false f.msixPend vec = true → f.msix[vec]? = some (a.1, a.2, false) →
    exec (.msixMessage fn vec) s = .next (emit (.msix fn vec a.1 a.2) (setFunc fn { f with msixPend := f.msixPend.set vec false } s))) ∧
  (∀ (s : State) (m : Mbx) (b : Mailbox), mbxAlive s m = true → getMbx s m = b →
    exec (.mbxDroppedRead m) s = .next (emit (.read (.fn m.fn) (leBytes 4 b.dropped) false false) (setMbx m { b with dropped := 0 } s))) ∧
  (∀ (s : State) (fn : Nat), fnAlive s fn = true →
    exec (.eventLostRead fn) s =
      .next (emit (.read (.fn fn) (leBytes 4 (getFunc s fn).lost) false false) (setFunc fn { getFunc s fn with lost := 0 } s)))

/-- R262, R321: POD_CREATE of a FREE pod, its cores and slices free: the pod is CREATED with the entry's cores, slices, quota, share, walk
mode and stores and the DRBG's next key; AMEND, with no jobs and no adapter slots, changes the adapter and prefix fields and leaves a new
walk mode pending. Nothing else changes but what answering moves, and the prefix nodes that a smaller NODES drops (`cutNodes`: the model's
choice, log entry 68). -/
def Obligations.PodCreateRuns : Prop :=
  (∀ (s : State) (sub : Submission) (e : BitVec 512) (old : Pod), Takes spCreate (fun e => !entFlag e) sub s → sub.entry = e →
    checkCmd spCreate true sub (createFields e) true s = none → getPod s (entPod e) = old → old.state = .free →
    shareSum s + ent e 239 235 ≤ 16 → (coreMask (ent e 95 64) (ent e 159 96)).any (coreTaken s) = false →
    (onesOf 64 (ent e 223 160)).any (sliceTaken s) = false →
    exec (.podCreate sub) s = .next (answers sub stOK 0 0 s (fun s => setPod (entPod e)
      { state := .created, walk := bit e.toNat 240, share := ent e 239 235, quota := ent e 234 224,
        cores := coreMask (ent e 95 64) (ent e 159 96), slices := onesOf 64 (ent e 223 160), graphSlices := onesOf 64 (ent e 319 256),
        kvcSlices := onesOf 64 (ent e 383 320), slotFirst := ent e 399 384, key := some (Config.drbg s.sec.drbgDraws),
        boundaryAt := now s, jhead := old.jhead, journal := old.journal }
      { s with sec := { s.sec with drbgDraws := s.sec.drbgDraws + 1, drbgReq := s.sec.drbgReq + 1 } }))) ∧
  (∀ (s : State) (sub : Submission) (e : BitVec 512) (v : Pod), Takes spCreate entFlag sub s → sub.entry = e →
    checkCmd spCreate false sub (amendFields e) true s = none → getPod s (entPod e) = v → jobCount s (entPod e) = 0 →
    ent e 416 400 = 0 → nodesFit v (ent e 507 488) = true →
    exec (.podCreateAmend sub) s = .next (answers sub stOK 0 0 s (fun s => modPod (entPod e) (fun v =>
      { v with walkPend := if bit e.toNat 240 = v.walk then none else some (bit e.toNat 240), slotFirst := ent e 399 384, slots := 0,
               aregion := ent e 455 448, aoff := ent e 487 464, nodes := ent e 507 488 }) (cutNodes (entPod e) (ent e 507 488) s)))) ∧
  (∀ (s : State) (p n : Nat), (∀ q, q ∈ (getPod s p).pfx → ∀ x, x ∈ pfxPath ((getPod s p).pfx.length + 1) (getPod s p) q.1 [q.1] → x < n) →
    cutNodes p n s = s)

/-- R264, R265, R342, R343, R189: quota, moving cores, binding and unbinding, the pending walk mode. R263, R265: POD_DESTROY makes the pod
DESTROYING and cancels its instances; POD_FREED, its jobs gone, frees the pod, keeping its journal; CORE_MOVE takes a marked core that
nothing holds out of its pod. -/
def Obligations.PodChangesRun : Prop :=
  (-- the PodChangesRun clauses
  (∀ (s : State) (sub : Submission), Takes spQuota (fun _ => true) sub s →
    checkCmd spQuota false sub (1 ≤ ent sub.entry 74 64 && ent sub.entry 74 64 ≤ 1024) true s = none →
    exec (.podSetQuota sub) s = .next (answers sub stOK 0 0 s
      (modPod (entPod sub.entry) (fun v => { v with quota := ent sub.entry 74 64 })))) ∧
  (∀ (s : State) (sub : Submission) (v : Pod) (l : List Nat), Takes spMove (fun _ => true) sub s → checkCmd spMove false sub true true s = none →
    bit sub.entry.toNat 164 = false → getPod s (entPod sub.entry) = v → coreMask (ent sub.entry 95 64) (ent sub.entry 159 96) = l → l ≠ [] →
    l.any (fun c => !v.cores.contains c || v.marked.any (fun m => m.1 = c)) = false →
    exec (.podMoveCores sub) s = .next (postFirst (tokIn s sub) 0
      (let t := setPod (entPod sub.entry) { v with marked := v.marked ++ l.map (fun c => (c, none)) } (taken sub s)
       { t with cmds := s.cmds ++ [{ tok := tokIn s sub, work := .moveCores (entPod sub.entry) l }] }))) ∧
  (∀ (s : State) (sub : Submission) (v : Pod), Takes spBind (fun e => bit e.toNat 68) sub s → checkCmd spBind false sub true true s = none →
    getPod s (entPod sub.entry) = v → v.state = .created → boundPod s (4 + ent sub.entry 67 64) = none → jobCount s (entPod sub.entry) = 0 →
    exec (.podBind sub) s = .next (answers sub stOK 0 0 s (setPod (entPod sub.entry)
      { v with state := .bound, vf := some (ent sub.entry 67 64), hub := fnHub (4 + ent sub.entry 67 64) }))) ∧
  (∀ (s : State) (sub : Submission) (v : Pod), Takes spBind (fun e => !bit e.toNat 68) sub s → checkCmd spBind false sub true true s = none →
    getPod s (entPod sub.entry) = v → v.state = .bound → v.vf = some (ent sub.entry 67 64) →
    exec (.podUnbind sub) s = .next (answers sub stOK 0 0 s (fun s =>
      stopFn (4 + ent sub.entry 67 64) (setPod (entPod sub.entry) { v with state := .created, vf := none } s)))) ∧
  (∀ (s : State) (p : Nat) (w : Bool), (getPod s p).walkPend = some w → jobCount s p = 0 →
    exec (.walkModeApply p) s = .next (setPod p { getPod s p with walk := w, walkPend := none } s))) ∧
  (-- the PodEndRuns clauses
  (∀ (s : State) (sub : Submission) (v : Pod), Takes spDestroy (fun _ => true) sub s → checkCmd spDestroy false sub true true s = none →
    getPod s (entPod sub.entry) = v → v.state ≠ .destroying → podInsts s (entPod sub.entry) = [] →
    exec (.podDestroy sub) s = .next (postFirst (tokIn s sub) 0
      (setPod (entPod sub.entry) { v with state := .destroying, destroyTok := some (tokIn s sub) }
        { taken sub s with fences := s.fences.filter (fun f => f.1 ≠ .pod (entPod sub.entry)) }))) ∧
  (∀ (s : State) (p : Nat), (getPod s p).state = .destroying → jobCount s p = 0 →
    ∃ t, exec (.podFreed p) s = .next t ∧ getPod t p = { jhead := (getPod s p).jhead, journal := (getPod s p).journal }) ∧
  (∀ (s : State) (p c : Nat), (List.range 16).findSome? (fun q => ((getPod s q).marked.find? (fun m => m.1 = c)).map (fun m => (q, m.2))) =
      some (p, none) → coreHeld s p c = false →
    ∃ t, exec (.coreMove c) s = .next t ∧ (getPod t p).cores = (getPod s p).cores.filter (fun x => x ≠ c) ∧
      (getPod t p).marked = (getPod s p).marked.filter (fun m => m.1 ≠ c) ∧ (∀ q, q ≠ p → getPod t q = getPod s q)))

/-- R234, R316: a graph image that reads whole and parses, with room in the store, is taken: FIRST is posted and the graph waits for its
store; GRAPH_LOAD_COMPLETE makes it loadable and posts its ID and kind; UNLOAD of an idle graph works the same way and ends without it. -/
def Obligations.GraphLoadRuns : Prop :=
  (∀ (s : State) (sub : Submission) (p a n : Nat) (bs : List (Byte × Bool)) (g : Graph) (at' : Nat), Takes spLoad (fun e => !entFlag e) sub s →
    checkCmd spLoad false sub (ent sub.entry 191 160 = 0) true s = none → cmdPod sub = some p →
    ent sub.entry 111 64 = a → ent sub.entry 143 112 = n → podReaches s p a n false = true →
    fetchBytes a n (taken sub s) = (bs, taken sub s) → bs.any (fun b => b.2) = false →
    graphParse s p (bs.map (fun b => b.1)) = some g → storeFit s p n = some at' → (podGraphs s p).length < 256 →
    ∃ t, exec (.graphLoad sub) s = .next t ∧ Posts sub .first stPENDING 0 0 s t ∧
      t = { answering t s with
            nextGraph := (s.nextGraph + 1) % 2 ^ 32, graphs := s.graphs ++ [{ g with id := s.nextGraph, storeAt := at' }],
            cmds := s.cmds ++ [{ tok := tokIn s sub, work := .graphLoad p s.nextGraph }] }) ∧
  (∀ (s : State) (sub : Submission) (p : Nat), Takes spLoad entFlag sub s → cmdPod sub = some p →
    checkCmd spLoad false sub (ent sub.entry 111 64 = 0 && ent sub.entry 143 112 = 0) true s = none →
    (getGraph s p (ent sub.entry 191 160)).isSome = true → graphBusy s p (ent sub.entry 191 160) = false →
    ∃ t, exec (.graphUnload sub) s = .next t ∧ Posts sub .first stPENDING 0 0 s t ∧
      t = { answering t s with
            graphs := s.graphs.map (fun g => if g.pod = p && g.id = ent sub.entry 191 160 then { g with loaded := false } else g),
            cmds := s.cmds ++ [{ tok := tokIn s sub, work := .graphUnload p (ent sub.entry 191 160) }] }) ∧
  (∀ (s : State) (p id : Nat) (c : PendingCmd) (g : Graph), s.cmds.find? (fun c => c.work = .graphLoad p id) = some c →
    s.graphs.find? (fun g => g.pod = p && g.id = id) = some g →
    exec (.graphLoadComplete p id) s = .next (postFinal c.tok stOK (id + at_ 32 (b2n g.step)) 0
      { s with cmds := s.cmds.erase c,
               graphs := s.graphs.map (fun g => if g.pod = p && g.id = id then { g with loaded := true } else g) }))

/-- R243, R244, R250, R256, R264: a best-effort GRAPH_RUN within quota is admitted with every node unplaced; a promised one whose tentative
plan ends by the deadline is admitted with that plan, and one that does not is refused with REFUSED_DEADLINE and the earliest completion;
a run past the quota is refused with REFUSED_QUOTA and changes nothing. -/
def Obligations.GraphRunRuns : Prop :=
  ∀ (s : State) (sub : Submission) (p : Nat) (g : Graph) (rel dl : Nat), Takes spRun (fun _ => true) sub s →
    cmdPod sub = some p → getGraph s p (ent sub.entry 95 64) = some g → g.step = false → g.peer = false →
    ent sub.entry 303 256 = 0 → ent sub.entry 159 96 = rel → ent sub.entry 223 160 = dl →
    checkCmd spRun false sub (bit sub.entry.toNat 224 || rel ≤ dl) true s = none →
    ((getPod s p).quota ≤ jobCount s p → exec (.graphRun sub) s = .next (answers sub stREFUSED_QUOTA 0 0 s id)) ∧
    (jobCount s p < (getPod s p).quota → bit sub.entry.toNat 224 = true →
      exec (.graphRun sub) s = .next (admitInst
        { pod := p, num := 0, graph := g.id, tok := tokIn s sub, promised := false, release := max rel (now s), deadline := dl,
          nodes := g.nodes.map (fun _ => freshNode [] 0 0), step := none, peers := List.replicate 16 0, cancelled := false, late := none,
          floors := [], sources := podSources s p } (taken sub s))) ∧
    (∀ slots, jobCount s p < (getPod s p).quota → bit sub.entry.toNat 224 = false → tentative (taken sub s) p g (max rel (now s)) none = some slots →
      (completionOf slots ≤ dl → exec (.graphRun sub) s = .next (admitInst
        { pod := p, num := 0, graph := g.id, tok := tokIn s sub, promised := true, release := max rel (now s), deadline := dl,
          nodes := slots.map (fun sl => freshNode sl.cores sl.start sl.fin), step := none, peers := List.replicate 16 0, cancelled := false,
          late := none, floors := planFloors (taken sub s) p slots, sources := podSources s p } (taken sub s))) ∧
      (dl < completionOf slots → exec (.graphRun sub) s = .next (answers sub stREFUSED_DEADLINE (earliest (some slots)) 0 s id)))

/-- R258, R320, R380: GRAPH_CANCEL cancels a live instance; JOURNAL_READ writes its entries, zeros past JRNL_HEAD, and answers with their
number and JRNL_HEAD. R320, R327, R330, R363, R429: IDENTIFY, SUMMARY, HEALTH_READ and MARGIN_PLAN_READ write their 4,096-byte record at
DEST, with the mailbox's PASID where PASID_V is 1, answer with its length, and change nothing else (MARGIN_PLAN_READ takes one free value for its hours: log entry 5). -/
def Obligations.RecordsAndCancelRun : Prop :=
  (-- the CancelAndJournalRun clauses
  (∀ (s : State) (sub : Submission) (p : Nat), Takes spCancel (fun _ => true) sub s → cmdPod sub = some p →
    checkCmd spCancel false sub true true s = none → (findInst s p (ent sub.entry 95 64)).isSome = true →
    exec (.graphCancel sub) s = .next (answers sub stOK 0 0 s (cancelInst p (ent sub.entry 95 64)))) ∧
  (∀ (s : State) (sub : Submission) (p n : Nat), Takes spJournal (fun _ => true) sub s → cmdPod sub = some p →
    ent sub.entry 172 160 = n → 1 ≤ n → n ≤ 4096 → ent sub.entry 127 64 % 64 = 0 → (getPod s p).jhead ≤ ent sub.entry 159 128 + 65536 →
    checkCmd spJournal false sub true true s = none →
    exec (.journalRead sub) s = .next (answers sub stOK n (getPod s p).jhead s
      (fun s => emit (.result sub.mbx (ent sub.entry 127 64) (journalRange s p (ent sub.entry 159 128) n) (mbxPasid (getMbx s sub.mbx))) s)))) ∧
  (-- the RecordReadsRun clauses
  ∀ (s : State) (sub : Submission), ent sub.entry 127 64 % 64 = 0 →
    (Takes (spReport 0x01 .any) (fun _ => true) sub s → checkCmd (spReport 0x01 .any) false sub true true s = none →
      exec (.identify sub) s = .next (answers sub stOK 4096 0 s (fun s =>
        emit (.result sub.mbx (ent sub.entry 127 64) (identityRecord s) (mbxPasid (getMbx s sub.mbx))) s))) ∧
    (Takes (spReport 0x02 .any) (fun _ => true) sub s → checkCmd (spReport 0x02 .any) false sub true true s = none →
      exec (.summary sub) s = .next (answers sub stOK 4096 0 s (fun s =>
        emit (.result sub.mbx (ent sub.entry 127 64) (summaryRecord sub.mbx.fn s) (mbxPasid (getMbx s sub.mbx))) s))) ∧
    (Takes (spReport 0x60 .mgmt) (fun _ => true) sub s → checkCmd (spReport 0x60 .mgmt) false sub true true s = none →
      exec (.healthRead sub) s = .next (answers sub stOK 4096 0 s (fun s =>
        emit (.result sub.mbx (ent sub.entry 127 64) (healthRecord s) (mbxPasid (getMbx s sub.mbx))) s))) ∧
    (Takes (spReport 0x61 .mgmt) (fun _ => true) sub s → checkCmd (spReport 0x61 .mgmt) false sub true true s = none →
      ∃ t, exec (.marginPlanRead sub) s = .next t ∧ Posts sub .only stOK 4096 0 s t ∧
        Out.result sub.mbx (ent sub.entry 127 64) (planRecord (taken sub s)) (mbxPasid (getMbx s sub.mbx)) ∈ t.out ∧ t = { answering t s with freeIdx := s.freeIdx + 1 }) ∧
    (identityRecord s).length = 4096 ∧ (summaryRecord sub.mbx.fn s).length = 4096 ∧ (healthRecord s).length = 4096 ∧
    (planRecord s).length = 4096)

/-- R266, R268, R269: REGION_MAP of a region that nothing refuses maps it under a free ID (which of them is a free value: log entry 5) and
answers with the ID and, for a KV pool, the frame's bytes; with FILL it posts FIRST, the region not reachable until the fill ends. R271,
R278, R281: a mirror of a range whole in one region of the pod, on a slice of the pod without one, is declared under a free ID;
REGION_UNMAP of a region that nothing uses stops its reach and zeroes it before the FINAL completion; a removed mirror goes at once. -/
def Obligations.RegionMapRuns : Prop :=
  (-- the RegionMapRuns clauses
  ∀ (s : State) (sub : Submission) (e : BitVec 512) (r : Region) (id : Nat) (s' : State), sub.entry = e →
    Takes spMap (fun e => ent e 65 64 ≠ 1) sub s →
    checkCmd spMap false sub (mapFields (taken sub s) e) ((getPod s (ent e 71 68)).state ≠ .free) s = none → mapRegion (taken sub s) e = r →
    mapRefused (taken sub s) r = none → takeId (taken sub s) = some (id, s') →
    getRegion s id = none ∧ getMirror s id = none ∧ s' = { taken sub s with freeIdx := s.freeIdx + 1 } ∧
    (bit e.toNat 80 = false →
      exec (.regionMap sub) s = .next (only sub (tokIn s sub) stOK id (mapValue r) (setRegion id (some r) s'))) ∧
    (bit e.toNat 80 = true → exec (.regionMap sub) s = .next (postFirst (tokIn s sub) 0
      (let t := setRegion id (some { r with ready := false }) s'
       { t with cmds := s.cmds ++ [{ tok := tokIn s sub, work := .fill (regionRanges s' { r with ready := false }) 0 none (some id) }] })))) ∧
  (-- the MirrorAndUnmapRun clauses
  (∀ (s : State) (sub : Submission) (e : BitVec 512) (m : Mirror) (id : Nat) (s' : State), sub.entry = e →
    Takes spMap (fun e => ent e 65 64 = 1) sub s →
    checkCmd spMap false sub (mirrorFields e) ((getPod s (ent e 71 68)).state ≠ .free) s = none →
    m = { pod := ent e 71 68, src := ent e 255 208, len := ent e 283 256, slice := ent e 293 288, removed := false } →
    (getPod s m.pod).state = .created ∨ (getPod s m.pod).state = .bound → mirrorSource (taken sub s) m.pod m.src m.len = true →
    (getPod s m.pod).slices.contains m.slice = true → sliceMirror (taken sub s) m.slice = none → jobCount s m.pod = 0 →
    takeId (taken sub s) = some (id, s') →
    exec (.mirrorDeclare sub) s = .next (only sub (tokIn s sub) stOK id 0 (setMirror id (some m) s'))) ∧
  (∀ (s : State) (sub : Submission) (r : Region) (id : Nat), Takes spUnmap (fun _ => true) sub s → checkCmd spUnmap false sub true true s = none →
    ent sub.entry 71 64 = id → getRegion s id = some r → r.ready = true → unmapRefused (taken sub s) id r = false →
    exec (.regionUnmap sub) s = .next (postFirst (tokIn s sub) 0
      (let t := setRegion id (some { r with ready := false }) (taken sub s)
       { t with cmds := s.cmds ++ [{ tok := tokIn s sub, work := .fill (regionRanges (taken sub s) r) 0 (some id) none }] }))))

/-- R287: MEM_FILL of a range that the issuer may fill posts FIRST and waits, cut at the ends of the stacks. FILL_COMPLETE of a fill whose
units are all in service writes the pattern over every range and posts FINAL OK; where a unit has been fenced it writes the ranges that
are left and posts FINAL FENCED. R268, R269, R271: FILL_COMPLETE of a FILL map makes the region reachable and answers with its ID, or
maps nothing where a unit has been fenced; of an unmapped region it zeroes what is in service and frees the ID. What a fill writes is the
pattern's byte k at each address 8 m + k of the range, and no other byte changes. -/
def Obligations.FillCommandsRun : Prop :=
  (∀ (s : State) (sub : Submission) (a n : Nat), Takes spFill (fun _ => true) sub s → ent sub.entry 111 64 = a → ent sub.entry 159 112 = n →
    checkCmd spFill false sub (a % 64 = 0 && n % 64 = 0 && 64 ≤ n && n ≤ 2 ^ 40) true s = none →
    fillReach (taken sub s) (cmdPod sub) a n = true →
    exec (.memFill sub) s = .next (postFirst (tokIn s sub) 0
      (let t := taken sub s
       { t with cmds := s.cmds ++ [{ tok := tokIn s sub,
                                     work := .fill (fillParts a n) (BitVec.ofNat 64 (ent sub.entry 223 160)) none (wholeRegion t a n) }] }))) ∧
  (∀ (s : State) (i : Nat) (l : List (Nat × Nat)) (pat : BitVec 64) (tok : CmdTok),
    s.cmds[i]? = some { tok := tok, work := .fill l pat none none } →
    ((∀ q, q ∈ l → placeFenced s (placeOf q.1) = false) →
      exec (.fillComplete i) s = .next (postFinal tok stOK 0 0 (l.foldl (fun s q => fillRange pat q s) { s with cmds := s.cmds.eraseIdx i }))) ∧
    ((∃ q, q ∈ l ∧ placeFenced s (placeOf q.1) = true) → tok.opcode ≠ 0x20 →
      exec (.fillComplete i) s = .next (postFinal tok stFENCED 0 0
        ((liveRanges s l).foldl (fun s q => fillRange pat q s) { s with cmds := s.cmds.eraseIdx i })))) ∧
  (∀ (s : State) (i id : Nat) (l : List (Nat × Nat)) (r : Region) (tok : CmdTok),
    s.cmds[i]? = some { tok := tok, work := .fill l 0 none (some id) } → tok.opcode = 0x20 → getRegion s id = some r →
    ((∀ q, q ∈ l → placeFenced s (placeOf q.1) = false) →
      exec (.fillComplete i) s = .next (postFinal tok stOK id (mapValue r) (setRegion id (some { r with ready := true, filled := true })
        (l.foldl (fun s q => fillRange 0 q s) { s with cmds := s.cmds.eraseIdx i })))) ∧
    ((∃ q, q ∈ l ∧ placeFenced s (placeOf q.1) = true) →
      exec (.fillComplete i) s = .next (postFinal tok stFENCED 0 0 (setRegion id none
        ((liveRanges s l).foldl (fun s q => fillRange 0 q s) { s with cmds := s.cmds.eraseIdx i }))))) ∧
  (∀ (s : State) (i id : Nat) (l : List (Nat × Nat)) (pat : BitVec 64) (tok : CmdTok),
    s.cmds[i]? = some { tok := tok, work := .fill l pat (some id) none } →
    exec (.fillComplete i) s = .next (postFinal tok stOK 0 0 (setRegion id none
      ((liveRanges s l).foldl (fun s q => fillRange pat q s) { s with cmds := s.cmds.eraseIdx i })))) ∧
  (∀ (s : State) (a n x : Nat) (pat : BitVec 64), a % 64 = 0 → n % 64 = 0 →
    rawByte (fillRange pat (a, n) s) x = if a ≤ x ∧ x < a + n then pat.extractLsb' (8 * (x % 8)) 8 else rawByte s x)

/-- R283: WINDOW_MAP of an existing pod and an added partner, its field rules kept, whose window is not in use or whose pod has no work
counted in its job count, gives the window its pod, access, partner and bus range; with ACCESS 0 it unmaps the window. While work of the
window's pod is counted it fails with NOT_PERMITTED; an unknown partner or pod is UNKNOWN_ID; a broken field rule is BAD_ARG. -/
def Obligations.WindowMapRuns : Prop :=
  ∀ (s : State) (sub : Submission) (e : BitVec 512) (w : Nat) (old : PeerWindow) (fields : Bool), Takes spWindow (fun _ => true) sub s →
    sub.entry = e → ent e 69 64 = w → getWindow s w = old →
    fields = (ent e 75 74 < 3 && ent e 159 96 % 4096 = 0 && 1 ≤ ent e 188 160 && ent e 188 160 ≤ 2 ^ 28) →
    (checkFrom spWindow sub s = none → podOk spWindow sub.mbx.fn e = true → reservedOk spWindow e = true →
      (fields = false → exec (.windowMap sub) s = .next (answers sub stBAD_ARG 0 0 s id)) ∧
      (fields = true → partnerKnown s (ent e 95 80) = false ∨ (getPod s (ent e 73 70)).state = .free →
        exec (.windowMap sub) s = .next (answers sub stUNKNOWN_ID 0 0 s id))) ∧
    (checkCmd spWindow false sub true true s = none → fields = true → partnerKnown s (ent e 95 80) = true →
      (getPod s (ent e 73 70)).state = .created ∨ (getPod s (ent e 73 70)).state = .bound →
      (old.access ≠ 0 → jobCount s old.pod ≠ 0 → exec (.windowMap sub) s = .next (answers sub stNOT_PERMITTED 0 0 s id)) ∧
      (old.access = 0 ∨ jobCount s old.pod = 0 →
        (ent e 75 74 = 0 → exec (.windowMap sub) s = .next (answers sub stOK 0 0 s (setWindow w {}))) ∧
        (ent e 75 74 ≠ 0 → exec (.windowMap sub) s = .next (answers sub stOK 0 0 s (setWindow w
          { pod := ent e 73 70, access := ent e 75 74, partner := ent e 95 80, busBase := ent e 159 96, len := 4096 * ent e 188 160 })))))

/-- R351, R352: PARTNER_ADD of an ABSENT ID over a port in service probes it; a probe that succeeds makes it ACTIVE with its completer and
posts the arrival, one that fails frees the ID with PARTNER_GONE; a time-out of an ACTIVE partner makes it CONFIRMING and probes again,
and a confirming probe that succeeds makes it ACTIVE; the time-out is noted as PCIe has it in the AER status of the port's PF (log entry
12). R352, R354: a containment notice from another completer loses the partner;
PARTNER_REMOVE of a LOST partner drops its windows and frees the ID, and of an ACTIVE one waits until nothing is outstanding;
PARTNER_DRAINED then ends the removal, and so does a containment notice in the cycle in which it began. -/
def Obligations.PartnerCommandsRun : Prop :=
  (-- the PartnerAddRuns clauses
  (∀ (s : State) (sub : Submission) (e : BitVec 512) (id : Nat), sub.entry = e → Takes spPartnerAdd (fun _ => true) sub s → ent e 79 64 = id →
    checkCmd spPartnerAdd false sub (32 ≤ id && id ≤ 95 && (ent e 81 80 = 1 || ent e 81 80 = 2) && ent e 159 96 % 4 = 0) true s = none →
    (getPartner s id).state = .absent → portUp s (ent e 83 82) = true →
    exec (.partnerAdd sub) s = .next (postFirst (tokIn s sub) 0 (emit (.probe id (ent e 159 96)) (setPartner id
      { state := .probing, kind := ent e 81 80, port := ent e 83 82, uio := bit e.toNat 84, probe := ent e 159 96, completer := 0,
        tok := some (tokIn s sub) } (taken sub s))))) ∧
  (∀ (s : State) (id c : Nat) (p : Partner) (tok : CmdTok), getPartner s id = p → p.state = .probing → p.tok = some tok →
    exec (.probeComplete id true c) s = .next (postFinal tok stOK 0 0
      (postDevice 0x08 id p.kind (setPartner id { p with state := .active, completer := c % 2 ^ 16, tok := none } s))) ∧
    exec (.probeComplete id false c) s = .next (postFinal tok stPARTNER_GONE 0 0 (setPartner id {} s))) ∧
  (∀ (s : State) (id : Nat), (getPartner s id).state = .active → senderOver s id = none →
    exec (.completionTimeout id none) s =
      .next (emit (.probe id (getPartner s id).probe) (setPartner id { getPartner s id with state := .confirming }
        (noteAer (getPartner s id).port 14 s)))) ∧
  (∀ (s : State) (id : Nat), (getPartner s id).state = .confirming →
    exec (.confirmProbeResult id true) s = .next (setPartner id { getPartner s id with state := .active } s))) ∧
  (-- the PartnerRemoveRuns clauses
  (∀ (s : State) (id c : Nat), (getPartner s id).state = .active ∨ (getPartner s id).state = .confirming → (getPartner s id).completer ≠ c →
    exec (.containmentNotice id c) s = .next (losePartner id s)) ∧
  (∀ (s : State) (sub : Submission) (id : Nat), Takes spPartnerRemove (fun _ => true) sub s → ent sub.entry 79 64 = id →
    checkCmd spPartnerRemove false sub true true s = none → entFlag sub.entry = false → removeBlocked (taken sub s) id = false →
    ((getPartner s id).state = .lost → exec (.partnerRemove sub) s = .next (removeLost id (tokIn s sub) (taken sub s))) ∧
    ((getPartner s id).state = .active → exec (.partnerRemove sub) s = .next (postFirst (tokIn s sub) 0
      (setPartner id { getPartner s id with state := .removing, tok := some (tokIn s sub), removeAt := now (taken sub s) } (taken sub s))))) ∧
  (∀ (s : State) (id c : Nat) (tok : CmdTok), (getPartner s id).state = .removing → (getPartner s id).tok = some tok →
    (getPartner s id).removeAt = now s → (getPartner s id).completer ≠ c →
    exec (.containmentNotice id c) s = .next (postFinal tok stOK 0 0 (setPartner id {} (dropWindows id (losePartner id s))))) ∧
  (∀ (s : State) (id : Nat) (tok : CmdTok), (getPartner s id).state = .removing → (getPartner s id).tok = some tok → drainedOf s id = true →
    exec (.partnerDrained id) s = .next (postFinal tok stOK 0 0 (setPartner id {} (dropWindows id s)))))

/-- R344, R345: OFFER by the owner records the offer; ACCEPT of a standing offer by the PF it names makes that PF the owner; CLAIM with a good
token does so while the owner cannot act; an offer lapses after 10 s. -/
def Obligations.OwnershipRuns : Prop :=
  (∀ (s : State) (sub : Submission), Takes spOwner (fun e => ownerMode e = 0 || ownerMode e = 3) sub s →
    checkCmd spOwner false sub (ownerMode sub.entry = 0) true s = none → s.owner = some sub.mbx.fn →
    exec (.ownerOffer sub) s = .next (answers sub stOK 0 0 s (fun s =>
      { s with offer := some (ent sub.entry 67 66, ent sub.entry 95 80, now s) }))) ∧
  (∀ (s : State) (sub : Submission), Takes spOwner (fun e => ownerMode e = 1) sub s → checkCmd spOwner false sub true true s = none →
    (offerStands s sub.mbx.fn (ent sub.entry 95 80) = true →
      exec (.ownerAccept sub) s = .next (answers sub stOK 0 0 s (fun s => { s with owner := some sub.mbx.fn, offer := none }))) ∧
    (offerStands s sub.mbx.fn (ent sub.entry 95 80) = false →
      exec (.ownerAccept sub) s = .next (answers sub stNOT_PERMITTED 0 0 s id))) ∧
  (∀ (s : State) (sub : Submission) (tok : BitVec 4096), Takes spOwner (fun e => ownerMode e = 2) sub s →
    checkCmd spOwner false sub true true s = none → ownerGone s = true → tokenOk s 2 (fnPort sub.mbx.fn) tok = true →
    exec (.ownerClaim sub tok) s = .next (answers sub stOK 0 0 s (fun s => { s with owner := some sub.mbx.fn, offer := none }))) ∧
  (∀ (s : State) (p c t : Nat), s.offer = some (p, c, t) → t + 10000000000 ≤ now s → exec .offerLapse s = .next { s with offer := none })

/-- R295, R338, R346, R348, R365, R478: a host access to BAR2 that the function reaches reads the bytes there, or writes them; a poisoned
granule completes with EP set; a refused access changes no memory, and one on a fenced port is answered and counted as refused. A CXL.mem
access through a committed decoder of a port in CXL mode does the same; on any other port there is none (log entry 52). An AtomicOp is
answered as an Unsupported Request. -/
def Obligations.HostAccessRuns : Prop :=
  (∀ (s : State) (fn off len a : Nat) (attr : HostAttr) (bs : List (Byte × Bool)), fn < 20 → len ≠ 0 →
    bar2Pieces s fn off len false = some [⟨a, len, false⟩] → inPeer a = false → fetchBytes a len s = (bs, s) →
    (bs.any (fun b => b.2) = false →
      exec (.hostBar2Read fn off len attr) s = .next (emit (.read (.fn fn) (bs.map (fun b => b.1)) false false) s)) ∧
    (bs.any (fun b => b.2) = true → exec (.hostBar2Read fn off len attr) s =
      .next (emit (.read (.fn fn) (undefBytes s.freeIdx bs.length) true false) { s with freeIdx := s.freeIdx + bs.length }))) ∧
  (∀ (s : State) (fn off a : Nat) (bs : List Byte) (attr : HostAttr), fn < 20 → bs ≠ [] →
    bar2Pieces s fn off bs.length true = some [⟨a, bs.length, false⟩] → inPeer a = false →
    exec (.hostBar2Write fn off bs attr) s = .next (landBytes a bs s) ∧
    exec (.uioWrite fn off bs attr) s = .next (emit (.writeAck fn false) (landBytes a bs s))) ∧
  (∀ (s : State) (fn off len a : Nat) (attr : HostAttr), fn < 20 → len ≠ 0 → bar2Pieces s fn off len true = some [⟨a, len, false⟩] →
    inPeer a = false →
    exec (.hostPoisonedWrite fn off len false attr) s = .next (landPoisonable a (List.replicate len (0, true)) (noteAer fn 12 s))) ∧
  (∀ (s : State) (p h a : Nat) (bs : List Byte), p < 4 → (getPort s p).cxl = true → bs ≠ [] →
    hdmMap (getPort s p).hdm 0 h bs.length = some a → cxlPieces s p a bs.length true = some [⟨a, bs.length, false⟩] →
    inPeer a = false → exec (.cxlMemAccess p h (some bs) 0) s = .next (emit (.writeAck p false) (landBytes a bs s))) ∧
  (∀ (s : State) (p h : Nat) (w : Option (List Byte)) (len : Nat), (getPort s p).cxl = false → exec (.cxlMemAccess p h w len) s = .next s) ∧
  (∀ (s : State) (fn : Nat), fn < 20 → fnThere s fn = true →
    exec (.atomicOpRequest fn) s = .next (emit (.unsupported fn) (noteAer fn 20 s))) ∧
  (∀ (s : State) (fn off len : Nat) (attr : HostAttr), len ≠ 0 → fnThere s fn = true → fnAlive s fn = false →
    exec (.hostBar2Read fn off len attr) s = .next (refuseRead fn (fnPort fn) off attr.reqId false s)) ∧
  (∀ (s : State) (fn off : Nat) (bs : List Byte) (attr : HostAttr), bar2Pieces s fn off bs.length true = none →
    ∃ t, exec (.hostBar2Write fn off bs attr) s = .next t ∧ sameMemory s t)

/-- R341, R349, R350, R446: a Function Level Reset puts the function's BAR0 registers at their reset values but the event count; a port reset
makes its IDE streams Insecure; bus-master enable and disable; ATS invalidation; an IDE key; the release of PERST_N. -/
def Obligations.HostResetsRun : Prop :=
  (∀ (s : State) (fn : Nat), fnThere s fn = true → isPF fn = false → hostArrived s fn = false →
    ∃ t, exec (.functionLevelReset fn) s = .next t ∧
      getFunc t fn = { seq := (getFunc s fn).seq, aer := (getFunc s fn).aer, mps := (getFunc s fn).mps } ∧
      (∀ g, g ≠ fn → getFunc t g = getFunc s g) ∧ (∀ m, m < 4 → mbxExists ⟨fn, m⟩ = true → (getMbx t ⟨fn, m⟩).state = 0 ∧
        (getMbx t ⟨fn, m⟩).sqHead = 0 ∧ (getMbx t ⟨fn, m⟩).cqTail = 0 ∧ (getMbx t ⟨fn, m⟩).enable = false) ∧
      t = { s with funcs := t.funcs, mboxes := t.mboxes }) ∧
  (∀ (s : State) (p : Nat), p < 4 → ∃ t n, exec (.functionLevelReset p) s = .next t ∧
    getFunc t p = { seq := n, aer := (getFunc s p).aer, mps := (getFunc s p).mps } ∧
    (∀ k, k < 4 → fnThere t (4 + 4 * p + k) = false) ∧ sameMemory s t ∧ t.pods = s.pods ∧ t.streams = s.streams) ∧
  (∀ (s : State) (p : Nat), p < 4 → ∃ t, exec (.portReset p false) s = .next t ∧ (getPort t p).ide = [] ∧
    (getPort t p).linkUp = (getPort s p).linkUp ∧ sameMemory s t ∧ t.pods = s.pods) ∧
  (∀ (s : State) (fn : Nat), fnThere s fn = true → (getFunc s fn).bme = false → (getPort s (fnPort fn)).linkUp = true →
    exec (.busMasterEnable fn true) s = .next (postDevice 0x08 (hostPartnerId fn) 0 (setFunc fn { getFunc s fn with bme := true } s))) ∧
  (∀ (s : State) (fn pg : Nat), fnThere s fn = true → exec (.atsInvalidate fn pg) s =
    .next (emit (.writeAck fn false) (setFunc fn { getFunc s fn with ats := (getFunc s fn).ats.filter (fun p => p ≠ pg) } s))) ∧
  (∀ (s : State) (p st k : Nat) (key : BitVec 256) (id : Nat), p < 4 → st < 4 → k < 6 → lifecycle s ≠ 2 →
    s.sec.sessions.any (fun x => x.id = id && x.st = 1) = true →
    exec (.ideKm p st k key id) s = .next (setPort p { getPort s p with ide := SMap.mod {} (getPort s p).ide st (ideStore k key) } s)) ∧
  (∀ (s : State) (p : Nat), p < 4 → 4 ≤ s.fw.stage → s.fw.t0 + 100000000 ≤ now s → hubFenced s (p / 2) = false → (getPort s p).linkUp = false →
    ∃ t, exec (.perstNDeassert p) s = .next t ∧ (getPort t p).linkUp = true ∧ (getPort t p).perst = false ∧
      t = { s with ports := t.ports, freeIdx := s.freeIdx + 4 })

/-- R346 and the registers' own rules: a read by a requester that reaches the CSR range answers the register's bytes and clears its RC fields:
the word of MX_FMT_CNT or STK_FMT_CNT, STK_PWU_STAT, STK_DRAM_SLOT, HUB_MIRROR, HUB_PORT_REFUSE, THM_DIE, SYNC_REF_STAT and HUB_KV_LAND,
each at its offset. R14, R64, R233, R348, R408: what such a read clears: the one format count read, DROPPED of HUB_KV_LAND, the three
counts of HUB_PORT_REFUSE, and JUMPS. -/
def Obligations.RegisterReadsRun : Prop :=
  (-- the RegisterReadsRun clauses
  ∀ (s : State) (req : Requester), csrReader s req = true →
    let reads (off len : Nat) : Host.Outcome State Fault Refusal :=
      .next (emit (.read req (csrReadBytes off len s).1 false false) (csrReadBytes off len s).2)
    (∀ n w, n < 32 → w < 4 → exec (.fmtCntRead req false n w) s = reads (0x100000 + 16 * n + 4 * w) 4) ∧
    (∀ n w, n < 1024 → w < 4 → exec (.fmtCntRead req true n w) s = reads (0x200000 + 16 * n + 4 * w) 4) ∧
    (∀ n, n < 16 → exec (.pwuStatRead req n) s = reads (0x210000 + 16 * n) 8) ∧
    (∀ n, n < 16 → exec (.dramSlotRead req n) s = reads (0x210200 + 8 * n) 8) ∧
    (∀ n, n < 64 → exec (.mirrorStatRead req n) s = reads (0x300400 + 16 * n) 16) ∧
    (∀ n, n < 4 → exec (.portRefuseRead req n) s = reads (0x307000 + 32 * n) 32) ∧
    (∀ n, n < 214 → exec (.thmDieRead req n) s = reads (0x400000 + 8 * n) 8) ∧
    exec (.syncRefStatRead req) s = reads 0x306000 8 ∧
    (∀ n, n < 16 → exec (.kvLandRead req n) s = reads (0x300000 + 64 * n) 64)) ∧
  (-- the RegisterReadsClear clauses
  ∀ (s : State) (req : Requester), csrReader s req = true →
    (∀ n w, n < 32 → w < 4 → ∃ t, exec (.fmtCntRead req false n w) s = .next t ∧
      SMap.get {} t.mxFmt n = clearFmt w (SMap.get {} s.mxFmt n) ∧ t = { s with mxFmt := t.mxFmt, out := t.out }) ∧
    (∀ n, n < 16 → ∃ t, exec (.kvLandRead req n) s = .next t ∧ SMap.get 0 t.kvDropped n = 0 ∧
      t = { s with kvDropped := t.kvDropped, out := t.out }) ∧
    (∀ n, n < 4 → ∃ t, exec (.portRefuseRead req n) s = .next t ∧
      getPort t n = { getPort s n with wrDrop := 0, rdAbort := 0, uioAbort := 0 } ∧ t = { s with ports := t.ports, out := t.out }) ∧
    (∃ t, exec (.syncRefStatRead req) s = .next t ∧ t = { s with clock := { s.clock with jumps := 0 }, out := t.out }))

/-- R28, R202, R233, R306, R307, R346-R348, R361: the writes of the registers that have writable fields, and a 32-bit write to BAR0's MBX_RING;
a write of the CSR range by a function that does not reach it is refused and recorded, its requester ID a free value. -/
def Obligations.RegisterWritesRun : Prop :=
  (∀ (s : State) (req : Requester) (n : Nat) (v : BitVec 32), n < 37 → isOwner s req = true →
    (bits v.toNat 13 8 ≤ 48 → exec (.lcCapWrite req n v) s = .next (setLink n { getLink s n with capNext := bits v.toNat 13 8 } s)) ∧
    (48 < bits v.toNat 13 8 → exec (.lcCapWrite req n v) s = .next s)) ∧
  (∀ (s : State) (n : Nat), n < 37 → s.insts = [] → atBoundary s n true = true ∨ atBoundary s n false = true → ∃ t, exec (.lcCapApply n) s = .next t ∧ (getLink t n).capActive = (getLink s n).capNext ∧
    (∀ k, k ≠ n → getLink t k = getLink s k) ∧ t = { s with fabric := t.fabric }) ∧
  (∀ (s : State) (req : Requester) (st : Nat) (v : BitVec 64) (u : Pwu), st < 16 → ownerOrControl s req = true → bit v.toNat 16 = true →
    SMap.get {} s.pwu st = u →
    exec (.pwuInvalidate req st v) s = .next { s with pwu := SMap.set {} s.pwu st { u with lab := [], invals := satAdd 0xFFFF u.invals 1 } }) ∧
  (∀ (s : State) (req : Requester) (p : Nat) (v : BitVec 512), p < 16 → isPodFn s req p = true →
    (getStream s (bits v.toNat 15 0)).state = .free →
    exec (.kvLandWrite req p v) s = .next { s with kvDropped := SMap.mod 0 s.kvDropped p (fun n => satAdd 0xFFFF n 1) }) ∧
  (∀ (s : State) (req : Requester) (p : Nat) (v : BitVec 512) (e : Stream), p < 16 → isPodFn s req p = true →
    getStream s (bits v.toNat 15 0) = e → e.state = .open_ → e.inbound = true → e.inReady = true → e.pod = p → e.inLen = bits v.toNat 56 32 →
    e.inKey.toNat = bits v.toNat 95 64 →
    exec (.kvLandWrite req p v) s =
      .next (setStream (bits v.toNat 15 0) { e with state := .resident, inbound := false, wp := e.inLen, tail := tailIndex e.pt e.inLen } s)) ∧
  (∀ (s : State) (req : Requester) (n : Nat) (len : BitVec 48) (c : LandCh), landWriter s req n = true → len ≠ 0 → getLand s n = c →
    c.base % 64 = 0 → len.toNat % 64 = 0 → reachWalk 4096 s (n / 16) c.base (c.base + len.toNat) = true →
    exec (.landChArm req n len) s = .next (setLand n { c with len := len.toNat, count := 0, armed := true, armErr := false } s)) ∧
  (∀ (s : State) (req : Requester) (n : Nat), landWriter s req n = true →
    exec (.landChDisarm req n) s = .next (setLand n { getLand s n with len := 0, armed := false } s)) ∧
  (∀ (s : State) (req : Requester) (n : Nat) (v : BitVec 128), n < 256 → ownerOrControl s req = true → bits v.toNat 1 0 ≠ 3 →
    ∃ t, exec (.apertureWrite req n v) s = .next t ∧ t = { s with aper := t.aper } ∧ SMap.get {} t.aper n =
      { mode := bits v.toNat 1 0, rdonly := bit v.toNat 2, region := bits v.toNat 15 8, len := bits v.toNat 55 32,
        base := bits v.toNat 111 76 * 4096 }) ∧
  (∀ (s : State) (req : Requester) (v : BitVec 64), isOwner s req = true →
    exec (.eccCfgWrite req v) s = .next { s with eccWritten := eccCfgMerge s.eccWritten v.toNat }) ∧
  (∀ (s : State) (fn m : Nat) (v : BitVec 32), fnAlive s fn = true → mbxExists ⟨fn, m⟩ = true → (getMbx s ⟨fn, m⟩).enable = false →
    exec (.registerWrite (.fn fn) .bar0 (0x10000 + 0x100 * m) v) s =
      .next (setMbx ⟨fn, m⟩ { getMbx s ⟨fn, m⟩ with sqBase := (getMbx s ⟨fn, m⟩).sqBase.extractLsb' 32 32 ++ v } s)) ∧
  (∀ (s : State) (req : Requester) (off len : Nat) (f : Nat), req = .fn f → fnThere s f = true → csrWriter s req off len = false →
    ∀ make, csrReach req off len s make =
      refuseWrite (fnPort f) (addrCsr + off) (Config.freeId s.freeIdx) false { s with freeIdx := s.freeIdx + 1 })

/-- R289, R291, R292: a write that lands in memory of a unit in service, its granule not poisoned or its mask full, puts each masked byte in
its place, and every other byte of memory reads as before; a full write ends poison and stored errors. R365: a masked write to a poisoned
granule leaves its bytes, its poison and every other byte as they were. -/
def Obligations.WritesLand : Prop :=
  (-- the WriteLands clauses
  ∀ (s : State) (g : Nat) (mask : BitVec 64) (data : BitVec 512), isMemory s g = true →
    SMap.get false s.poison g = false ∨ mask = BitVec.allOnes 64 →
    ∃ t, exec (.writeLand g mask data) s = .next t ∧
      (∀ k, k < 64 → mask.getLsbD k = true → rawByte t (64 * g + k) = data.extractLsb' (8 * k) 8) ∧
      (∀ a, (a < 64 * g ∨ 64 * g + 64 ≤ a ∨ mask.getLsbD (a - 64 * g) = false) → rawByte t a = rawByte s a) ∧
      (mask = BitVec.allOnes 64 → SMap.find t.poison g = none ∧ SMap.find t.dramErr g = none) ∧
      t = { s with mem := t.mem, poison := t.poison, dramErr := t.dramErr, sramErr := t.sramErr, land := t.land }) ∧
  (-- the PoisonStaysUnderMask clauses
  ∀ (s : State) (g : Nat) (mask : BitVec 64) (data : BitVec 512), SMap.get false s.poison g = true → mask ≠ BitVec.allOnes 64 →
    ∃ t, exec (.writeLand g mask data) s = .next t ∧ sameMemory s t)

/-- R24, R34, R476: a flit between endpoints in service goes onto its route, with the next number; one to or from a fenced endpoint, or
with no live route, is answered with an error at once, and the node that issued it, if one did, ends FAULTED with FENCED. R27, R29, R30, R33: the flit
that a link's arbitration sends uses its slot; it moves on and is acknowledged when its CRC holds, and counts an error and waits for its
replay when it does not; a flit that failed twice makes the link retrain, and a retrain ends up again or, at the
third unsuccessful try, with the link FAILED. -/
def Obligations.LinksCarryFlits : Prop :=
  (-- the FlitInjected clauses
  ∀ (s : State) (d : FlitDesc), endExists d.src = true → endExists d.dst = true →
    let f := newFlit s d
    let s1 : State := { s with fabric := { s.fabric with nextFlit := s.fabric.nextFlit + 1 } }
    let s2 : State := { s1 with fabric := { s1.fabric with arrived := s.fabric.arrived ++ [(f, false)] } }
    (endFenced s d.src = true ∨ endFenced s d.dst = true ∨ route s1 (epNode d.src) (epNode d.dst) = none →
      exec (.flitInject d.src d.dst d.what ⟨d.pod, d.core, d.node⟩ ⟨d.mask, d.payload⟩) s = .next (match d.node with | some r => faultNode r csFENCED s2 | none => s2)) ∧
    (∀ n h r, endFenced s d.src = false → endFenced s d.dst = false → route s1 (epNode d.src) (epNode d.dst) = some (n, h :: r) →
      exec (.flitInject d.src d.dst d.what ⟨d.pod, d.core, d.node⟩ ⟨d.mask, d.payload⟩) s =
        .next { s1 with fabric := { s1.fabric with flits := s.fabric.flits ++ [{ f with route := h :: r }] } })) ∧
  (-- the LinkCommandsRun clauses
  (∀ (s : State) (n : Nat) (up : Bool) (noise : BitVec 608) (f : Flit) (a : Arb), n < 37 → linkUp s n = true →
    arbitrate s n up = some (f, a) →
    (crcHolds (noisy f noise) = true →
      exec (.flitReceive n up noise) s = .next (passFlit (noisy f noise) (ackFlit n up f.id (slotUsed n up a s)))) ∧
    (crcHolds (noisy f noise) = false → ∃ t, exec (.flitReceive n up noise) s = .next t ∧
      (getLink t n).crcErr = satAdd 0xFFFF (getLink s n).crcErr 1 ∧ getArb t n up = a ∧
      t.fabric.flits = replaceFlit f.id (some { f with fails := f.fails + 1 }) s.fabric.flits ∧ t = { s with fabric := t.fabric })) ∧
  (∀ (s : State) (n : Nat), n < 37 → linkLive s n = true → (getLink s n).state ≠ 1 → mustRetrain s n = true →
    exec (.linkRetrain n) s = .next (setLink n { getLink s n with state := 1, retrain := satAdd 0xFF (getLink s n).retrain 1 } s)) ∧
  (∀ (s : State) (n : Nat), n < 37 → (getLink s n).state = 1 →
    exec (.retrainDone n true) s = .next (clearFails n (setLink n { getLink s n with state := if n < 33 then 0 else 3, badTries := 0 } s)) ∧
    ((getLink s n).badTries < 2 → exec (.retrainDone n false) s = .next (setLink n { getLink s n with
      badTries := (getLink s n).badTries + 1, retrain := satAdd 0xFF (getLink s n).retrain 1 } s)) ∧
    ((getLink s n).badTries = 2 → ∃ t, exec (.retrainDone n false) s = .next t ∧ (getLink t n).state = 2 ∧ sameMemory s t)))

/-- R357, R360, R365: a DRAM read of a stack in service whose errors are none changes nothing; one that corrects counts the corrected symbols
and leaves the stored codeword; one that cannot decode stores the granule as poisoned, counts UE and posts it. R359, R360, R365: an SRAM
read of one word: clean changes nothing but the flipped bits, a single corrected bit counts one correction of its unit, and an
uncorrectable word poisons its granule. -/
def Obligations.EccReadsDecode : Prop :=
  (-- the DramReadDecodes clauses
  ∀ (s : State) (g st : Nat) (upset : Errs), dramStack s g = some st →
    let t := upsetDram g upset s
    (dramDecode (storedErrs t g) (erasedSlot s st) = .clean → exec (.dramReadDecode g upset) s = .next t) ∧
    (dramDecode (storedErrs t g) (erasedSlot s st) = .poisoned → exec (.dramReadDecode g upset) s = .next t) ∧
    (∀ fix, dramDecode (storedErrs t g) (erasedSlot s st) = .corrected fix →
      exec (.dramReadDecode g upset) s = .next (countFix st fix (erasedSlot s st) t)) ∧
    (dramDecode (storedErrs t g) (erasedSlot s st) = .uncorrectable → ∃ u, exec (.dramReadDecode g upset) s = .next u ∧
      SMap.get false u.poison g = true ∧ SMap.find u.dramErr g = none ∧
      (SMap.get {} u.ecc (placeEntry (placeOf (64 * g)))).ue = satAdd 0xFFFF (SMap.get {} s.ecc (placeEntry (placeOf (64 * g)))).ue 1)) ∧
  (-- the SramReadDecodes clauses
  ∀ (s : State) (w : Nat) (upset e : BitVec 72), isSram s (8 * w) = true → SMap.get 0 s.sramErr w ^^^ upset = e →
    let t : State := { s with sramErr := SMap.set 0 s.sramErr w e }
    let n := placeEntry (placeOf (8 * w))
    (sramDecode (SMap.get false s.poison (w / 8)) e = .clean → exec (.sramReadDecode w upset) s = .next t) ∧
    (∀ b, sramDecode (SMap.get false s.poison (w / 8)) e = .corrected b →
      exec (.sramReadDecode w upset) s = .next (countCorr n 1 (entryUnit n) t)) ∧
    (sramDecode (SMap.get false s.poison (w / 8)) e = .uncorrectable → exec (.sramReadDecode w upset) s = .next (uncorrectable (w / 8) t)))

/-- R360, R361, R362: at a leak tick each bucket above 0 loses one count and the written configuration comes into force; overflows 24 h old
leave their entry's count. R275, R276, R364, R368, R369: the patrol scrubber reads the next covered codeword and moves past it; a rebuild
reads its next codeword and moves on, and ends when it has walked every one; the refresh rate follows the dies. -/
def Obligations.MemoryUpkeepRuns : Prop :=
  (-- the BucketsLeak clauses
  (∀ (s : State), s.leakAt + s.eccCfg.2.2.1 * 1000000000 ≤ now s → ∃ t, exec .leakTick s = .next t ∧
    (∀ i, i < 214 → SMap.get {} t.ecc i = { SMap.get {} s.ecc i with bucket := (SMap.get {} s.ecc i).bucket - 1 }) ∧
    t = { s with ecc := t.ecc, leakAt := s.leakAt + s.eccCfg.2.2.1 * 1000000000, eccCfg := s.eccWritten }) ∧
  (∀ (s : State) (n : Nat), n < 214 → ∃ t, exec (.ovf24Expiry n) s = .next t ∧ t = { s with ecc := t.ecc } ∧
    SMap.get {} t.ecc n = { SMap.get {} s.ecc n with
      ovf24 := (SMap.get {} s.ecc n).ovf24.filter (fun x => now s < x + 86400000000000) })) ∧
  (-- the StackUpkeepRuns clauses
  (∀ (s : State) (st k : Nat) (upset : Errs), st < 16 → stackFenced s st = false → (getDie s st).state = 0 → scrubNext s st = some (k, false) →
    ∃ t, exec (.patrolScrub st upset) s = .next t ∧ (getDie t st).scrub = k + 1) ∧
  (∀ (s : State) (st : Nat) (upset : Errs), rebuilding s st = true → (getDie s st).pos < 2 ^ 30 →
    ∃ t, exec (.rebuildSlot st upset) s = .next t ∧
      getDie t st = { getDie (rebuildWord st (st * 2 ^ 30 + (getDie s st).pos) (upsetDram (st * 2 ^ 30 + (getDie s st).pos) upset s)) st with
        pos := (getDie (rebuildWord st (st * 2 ^ 30 + (getDie s st).pos) (upsetDram (st * 2 ^ 30 + (getDie s st).pos) upset s)) st).pos + 1 }) ∧
  (∀ (s : State) (st : Nat), rebuilding s st = true → (getDie s st).pos = 2 ^ 30 →
    exec (.rebuildComplete st) s = .next (rebuildDone st s)) ∧
  (∀ (s : State) (st : Nat), st < 16 → (getDie s st).hot ≠ stackHot s st →
    exec (.refreshRateChange st) s =
      .next (setDie st { getDie s st with hot := stackHot s st, hotFrames := hotFrames s (getDie s st), hotAt := now s } s)))

/-- R242, R249, R253, R256, R258, R294, R378: a planned node that is ready starts with its gang on its planned cores; a best-effort node with
the next gang of its pod on the cores found for it; a running node whose work is done and whose writes have landed ends DONE, or POISONED
where it wrote poison; a running node of a cancelled instance, its issued writes landed, ends PARTIAL with cause CANCELLED. R253, R378:
the start of a COPY, SYNC or HOST_EVENT node alone in its gang, its graph loaded: the node is RUNNING on its cores, its journal record
says so, and nothing but its pod's journal and its instance changes. -/
def Obligations.NodesRun : Prop :=
  (-- the NodeLifeRuns clauses
  (∀ (s : State) (ref : NodeRef) (i : Inst) (g : Graph) (ms : List (Nat × List Nat)), plannedReady s ref = true →
    findInst s ref.pod ref.inst = some i → graphOf s i = some g →
    (gangOf g.nodes ref.node).map (fun m => (m, match i.nodes[m]? with | some n => n.cores | none => [])) = ms →
    ms.any (fun m => m.2.any (fun c => if 96 ≤ c then false else coreFenced s c)) = false →
    exec (.nodeStart ref) s = .next (startGang ref.pod ref.inst ms s)) ∧
  (∀ (s : State) (ref : NodeRef) (n : Nat) (l : List (Nat × Slot)), nextBestEffort s ref.pod = some (ref.inst, n, l) →
    l.any (fun m => m.1 = ref.node) = true →
    exec (.bestEffortStart ref) s = .next (startGang ref.pod ref.inst (l.map (fun m => (m.1, m.2.cores))) s)) ∧
  (∀ (s : State) (ref : NodeRef), isRunning s ref = true → workDone s ref = true → writesLanded s ref = true →
    (wrotePoison s ref = false → exec (.nodeEnd ref) s = .next (checkEnd ref.pod ref.inst (finishNode ref .done csNONE s))) ∧
    (wrotePoison s ref = true → exec (.nodeEnd ref) s = .next (checkEnd ref.pod ref.inst (finishNode ref .poisoned csNONE s)))) ∧
  (∀ (s : State) (ref : NodeRef) (c : Nat), stoppedBy s ref = some c →
    (issuedLanded s ref = true → exec (.nodeEnd ref) s = .next (checkEnd ref.pod ref.inst (finishNode ref .faulted c s))) ∧
    (issuedLanded s ref = false → exec (.nodeEnd ref) s = .next s)) ∧
  (∀ (s : State) (ref : NodeRef), isRunning s ref = true → nodeCancelled s ref = true → s.tileRuns.all (fun r => r.ref.node ≠ ref) = true →
    issuedLanded s ref = true →
    exec (.nodeStopped ref) s = .next (checkEnd ref.pod ref.inst (finishNode ref .part csCANCELLED s)))) ∧
  (-- the PlainNodeStarts clauses
  ∀ (s : State) (ref : NodeRef) (i : Inst) (g : Graph) (n : NodeRun), plannedReady s ref = true → findInst s ref.pod ref.inst = some i →
    graphOf s i = some g → g.loaded = true → i.nodes[ref.node]? = some n → gangOf g.nodes ref.node = [ref.node] →
    (nodeRec g ref.node).kind = 3 ∨ (nodeRec g ref.node).kind = 5 ∨ (nodeRec g ref.node).kind = 6 →
    n.cores.any (fun c => if 96 ≤ c then false else coreFenced s c) = false →
    ∃ t, exec (.nodeStart ref) s = .next t ∧
      getNode t ref = some { n with st := .running, jpos := some (takePos ref.pod s).1, startedAt := now s } ∧
      t = { s with pods := t.pods, insts := t.insts })

/-- R190, R219, R239, R258, R297, R298, R301: a running COPY node whose tensors can be reached reads its source and sends its bytes, one unit
of 4 KiB at a time; KV_GATHER does so from the pages of its row's stream, and copies nothing of a sink row; the held FINAL write goes once
every other write is acknowledged; a planned COPY node's source is fetched ahead one granule at a time. -/
def Obligations.CopyCommandsRun : Prop :=
  (∀ (s : State) (ref : NodeRef) (i : Inst) (g : Graph) (b : CopyBody) (st dt : TDesc), copyReady s ref false = some (i, g, b) →
    nth (tdParse 0) g.bufs b.src = st → nth (tdParse 0) g.bufs b.dst = dt → st.space ≠ 1 → dt.space ≠ 1 →
    granulesFault s ref.pod false (tensorGranules (copyOrigin i b b.peerSrc) st) = none →
    granulesFault s ref.pod true (tensorGranules (copyOrigin i b b.peerDst) dt) = none →
    exec (.copyTensor ref) s = .next (copyUnit ref b.final (walkCoords dt) (coordGranules (copyOrigin i b b.peerSrc) st)
      (coordGranules (copyOrigin i b b.peerDst) dt) (copyCells (copyOrigin i b b.peerSrc) (copyOrigin i b b.peerDst) st dt) s)) ∧
  (∀ (s : State) (ref : NodeRef) (i : Inst) (g : Graph) (b : CopyBody) (dt : TDesc) (r : Region) (pt : List Pte),
    copyReady s ref true = some (i, g, b) → nth (tdParse 0) g.bufs b.dst = dt → dt.space ≠ 1 → gatherSource s ref i b dt = .ok (some (r, pt)) →
    granulesFault s ref.pod false (dedup ((walkCoords dt).flatMap (gatherGranules r pt b))) = none →
    granulesFault s ref.pod true (tensorGranules (copyOrigin i b b.peerDst) dt) = none →
    exec (.kvGather ref) s = .next (copyUnit ref b.final (walkCoords dt) (gatherGranules r pt b)
      (coordGranules (copyOrigin i b b.peerDst) dt) (gatherCells r pt b (copyOrigin i b b.peerDst) dt) s)) ∧
  (∀ (s : State) (ref : NodeRef) (i : Inst) (g : Graph) (b : CopyBody) (dt : TDesc), copyReady s ref true = some (i, g, b) →
    nth (tdParse 0) g.bufs b.dst = dt → gatherSource s ref i b dt = .ok none →
    exec (.kvGather ref) s = .next (modNode ref (fun n => { n with work := true })
      (undefineGranules ref.pod (tensorGranules (copyOrigin i b b.peerDst) dt) s))) ∧
  (∀ (ref : NodeRef) (final : Bool) (coords : List Coord) (src dst : Coord → List Nat) (cells : Fetched → Coord → List Cell) (s : State)
    (n : NodeRun), getNode s ref = some n → ∃ m, getNode (copyUnit ref final coords src dst cells s) ref = some m ∧
      m.units = n.units + 1 ∧ m.st = n.st ∧ m.work = decide ((dedup (coords.flatMap dst)).length ≤ 64 * (n.units + 1))) ∧
  (∀ (s : State) (ref : NodeRef) (n : NodeRun) (l : List Cell), isRunning s ref = true → nodeCancelled s ref = false →
    getNode s ref = some n → n.hold = some l → n.unacked = [] → granulesFault s ref.pod true (dedup (l.map (fun c => c.1 / 64))) = none →
    exec (.finalWrite ref) s = .next (sendCells ref true l (modNode ref (fun n => { n with hold := none }) s))) ∧
  (∀ (s : State) (ref : NodeRef) (c g : Nat) (gs : List Nat), aheadPlan s ref = some (c, gs) →
    (getPod s ref.pod).ahead.find? (fun a => a.node = ref) = none → aheadHeld (getPod s ref.pod) c < 4096 →
    gs.find? (fun g => !acquired s ref.pod (64 * g) && (rangeFault s ref.pod (4 + (getPod s ref.pod).hub) (64 * g) 64 false).isNone) = some g →
    exec (.dmaReadAhead ref) s = .next
      (let r := fetchGranule g s
       let l := oldView r.2 ref (64 * g) (r.1.1.map (fun b => (b, r.1.2)))
       modPod ref.pod (fun v => { v with ahead := v.ahead.filter (fun q => q.node ≠ ref) ++
         [{ node := ref, chan := c, held := [(g, l.map (fun b => b.1), l.any (fun b => b.2))] }] }) r.2))

/-- R238, R240, R302, R303, R307: the SYNC modes and HOST_EVENT: JOIN ends at once; ACQUIRE opens its range, discarding read-ahead there, and
with 16 active faults ACQUIRE_FULL; RELEASE closes the oldest like it; WAIT_LAND waits until its armed counter reaches COUNT; HOST_EVENT
posts its event. -/
def Obligations.SyncNodesRun : Prop :=
  (∀ (s : State) (ref : NodeRef) (b : SyncBody), syncReady s ref 0 = some b → exec (.syncJoin ref) s = .next (endAtOnce ref s)) ∧
  (∀ (s : State) (ref : NodeRef) (b : SyncBody) (v : Pod), syncReady s ref 1 = some b → getPod s ref.pod = v →
    (v.acquires.length < 16 → exec (.syncAcquire ref) s = .next (endAtOnce ref (setPod ref.pod
      { discardAhead b.addr b.len v with acquires := v.acquires ++ [{ inst := ref.inst, addr := b.addr, len := b.len }] } s))) ∧
    (16 ≤ v.acquires.length → exec (.syncAcquire ref) s = .next (faultNode ref csACQUIRE_FULL s))) ∧
  (∀ (s : State) (ref : NodeRef) (b : SyncBody), syncReady s ref 2 = some b → exec (.syncRelease ref) s = .next (endAtOnce ref
    (modPod ref.pod (fun v => { v with acquires := v.acquires.erase { inst := ref.inst, addr := b.addr, len := b.len } }) s))) ∧
  (∀ (s : State) (ref : NodeRef) (b : SyncBody), syncReady s ref 3 = some b →
    exec (.syncWaitLand ref) s = .next (modNode ref (fun n => { n with waiting := true }) s) ∧
    (landReached s ref b = true → exec (.waitLandEnd ref) s = .next (endAtOnce ref s)) ∧
    (landReached s ref b = false → exec (.waitLandEnd ref) s = .next s)) ∧
  (∀ (s : State) (ref : NodeRef) (i : Inst) (g : Graph) (r : NodeRec), runningKind s ref 6 = some (i, g, r) →
    exec (.hostEventNode ref) s = .next (endAtOnce ref (postPod ref.pod 0x0E r.value (i.num + at_ 32 ref.node) s)))

/-- R204, R205, R230, R231: STREAM_OPEN with room for its table opens the lowest FREE stream ID for the pod, its table naming the pages of the
prefix path, its position past them; INBOUND opens it for a landing under a key (a free value: log entry 5) and posts FIRST. -/
def Obligations.StreamOpenRuns : Prop :=
  (∀ (s : State) (sub : Submission) (e : BitVec 512) (p i wp : Nat) (s1 t : State), sub.entry = e →
    Takes spOpen (fun e => !entFlag e) sub s → podOf sub = p → ent e 191 160 = 0 → (poolOf (taken sub s) p (ent e 65 64)).isSome = true →
    checkCmd spOpen false sub (openFields (taken sub s) p e && ent e 216 192 = 0) true s = none →
    openStream p e (taken sub s) = some (i, s1) → 64 * (getPfx (getPod s p) 0).depth = wp →
    modStream i (fun x => { x with pt := [], wp := wp, tail := tailIndex [] wp }) s1 = t →
    exec (.streamOpen sub) s = .next (only sub (tokIn s sub) stOK (openValue t i) 0 t)) ∧
  (∀ (s : State) (sub : Submission) (e : BitVec 512) (p i len : Nat) (s1 : State), sub.entry = e → Takes spOpen entFlag sub s →
    podOf sub = p → ent e 216 192 = len → (poolOf (taken sub s) p (ent e 65 64)).isSome = true →
    checkCmd spOpen false sub (openFields (taken sub s) p e && 1 ≤ len && len ≤ 16777216 && len ≤ ent e 135 112 + 1 && ent e 191 160 = 0) true s = none →
    openStream p e (taken sub s) = some (i, s1) →
    exec (.streamOpenInbound sub) s = .next (postFirst (tokIn s sub) 0
      (let t := modStream i (fun x => { x with inbound := true, inLen := len, inKey := BitVec.ofNat 32 (Config.freeId s1.freeIdx) }) s1
       { t with freeIdx := s1.freeIdx + 1, cmds := s1.cmds ++ [{ tok := tokIn s sub, work := .openInbound i }] }))) ∧
  (∀ (s s1 : State) (p i : Nat) (e : BitVec 512), openStream p e s = some (i, s1) →
    (getStream s i).state = .free ∧ (∀ j, j < i → (getStream s j).state ≠ .free) ∧ (getStream s1 i).state = .open_ ∧ (getStream s1 i).pod = p ∧
    (getStream s1 i).gen = ((getStream s i).gen + 1) % 2 ^ 16 ∧ (∀ j, j ≠ i → getStream s1 j = getStream s j) ∧ s1.mem = s.mem)

/-- R206, R207, R222-R224: STREAM_CANCEL stops a live stream; ADAPTER_LOAD stages its 4 KiB descriptor for its slot. -/
def Obligations.StreamCancelAndAdapterRun : Prop :=
  (∀ (s : State) (sub : Submission) (i : Nat), Takes spStrCancel (fun _ => true) sub s → ent sub.entry 79 64 = i →
    streamKnown s (podOf sub) i (ent sub.entry 95 80) = true → checkCmd spStrCancel false sub true true s = none →
    (getStream s i).state ≠ .closing →
    exec (.streamCancel sub) s = .next (answers sub stOK 0 0 s (stopStream i stCANCELLED stOK))) ∧
  (∀ (s : State) (sub : Submission) (p slot layers src : Nat) (bs : List (Byte × Bool)), Takes spAdapter (fun _ => true) sub s →
    podOf sub = p → ent sub.entry 79 64 = slot → ent sub.entry 86 80 = layers → ent sub.entry 143 96 = src →
    checkCmd spAdapter false sub (1 ≤ layers && layers ≤ 120 && (getPod s p).slotFirst ≤ slot && slot < (getPod s p).slotFirst + (getPod s p).slots) true s = none →
    podReaches (taken sub s) p src 4096 false = true → fetchBytes src 4096 (taken sub s) = (bs, taken sub s) → bs.any (fun b => b.2) = false →
    ((bs.map (fun b => b.1)).drop (34 * layers)).any (fun b => b ≠ 0) = false →
    exec (.adapterLoad sub) s = .next (answers sub stOK 0 0 s
      (modPod p (fun v => { v with staged := v.staged.filter (fun q => q.1 ≠ slot) ++ [(slot, bs.map (fun b => b.1))] }))))

/-- R227-R229: PREFIX_LOOKUP answers the last node its blocks reach and its depth and changes nothing; PREFIX_INSERT creates nodes for the
blocks not found; removing a childless node frees it. -/
def Obligations.PrefixCommandsRun : Prop :=
  (∀ (s : State) (sub : Submission) (p k a n : Nat) (bs : List (Byte × Bool)), Takes spLookup (fun _ => true) sub s → podOf sub = p →
    ent sub.entry 82 64 = k → ent sub.entry 143 96 = a → checkCmd spLookup false sub (1 ≤ k && k ≤ 262144) true s = none →
    podReaches (taken sub s) p a (256 * k) false = true → fetchBytes a (256 * k) (taken sub s) = (bs, taken sub s) →
    bs.any (fun b => b.2) = false → (lookup (getPod s p) 0 (blocksOf k (bs.map (fun b => b.1)))).1 = n →
    exec (.prefixLookup sub) s = .next (answers sub stOK (n + at_ 32 (getPfx (getPod s p) n).depth) 0 s id)) ∧
  (∀ (s : State) (sub : Submission) (p i k a : Nat) (bs : List (Byte × Bool)) (q : Nat × List (List Nat)) (r : Nat × Nat × Bool × State),
    Takes spInsert (fun e => !entFlag e) sub s → podOf sub = p → ent sub.entry 79 64 = i → ent sub.entry 114 96 = k → ent sub.entry 191 144 = a →
    streamKnown s p i (ent sub.entry 95 80) = true → checkCmd spInsert false sub (1 ≤ k && k ≤ 262144 && ent sub.entry 223 192 = 0) true s = none →
    podReaches (taken sub s) p a (256 * k) false = true → 64 * k ≤ (getStream s i).wp →
    insertable (getStream s i).pt k = true → fetchBytes a (256 * k) (taken sub s) = (bs, taken sub s) → bs.any (fun b => b.2) = false →
    lookup (getPod s p) 0 (blocksOf k (bs.map (fun b => b.1))) = q → insertBlocks p i q.2 q.1 0 (taken sub s) = r → r.2.2.1 = true →
    exec (.prefixInsert sub) s = .next (only sub (tokIn s sub) stOK r.1 r.2.1 r.2.2.2)) ∧
  (∀ (s : State) (sub : Submission) (p n : Nat), Takes spInsert entFlag sub s → podOf sub = p → ent sub.entry 223 192 = n → n ≠ 0 →
    streamKnown s p (ent sub.entry 79 64) (ent sub.entry 95 80) = true → pfxKnown (getPod s p) n = true → checkCmd spInsert false sub (ent sub.entry 114 96 = 0 && ent sub.entry 191 144 = 0) true s = none →
    (getPfx (getPod s p) n).child = 0 →
    exec (.prefixRemove sub) s = .next (answers sub stOK 0 0 s (removeNode p n)))

/-- R197, R198, R448: STREAM_PARK of a RESIDENT, idle stream that no accepted step names reads and encrypts its RESIDENT entries into the
window, releases their frames to the chaff list, moves the pod's park limit past the images, posts FIRST and sends every write but the
last granule; a stream with nothing RESIDENT is PARKED at once. R199: STREAM_UNPARK of a PARKED, idle stream posts FIRST and waits for a
boundary's frames; once they are there and every image passes its tags the stream is RESIDENT and FINAL is OK; where an image fails the
stream closes with that status. -/
def Obligations.StreamParkAndUnparkRun : Prop :=
  (-- the StreamParkRuns clauses
  ∀ (s s2 : State) (sub : Submission) (p i a w k stop : Nat) (r : Region) (plan : List (Pte × Nat)) (ws : List WinWrite),
    Takes spPark (fun _ => true) sub s → podOf sub = p → ent sub.entry 79 64 = i → ent sub.entry 143 96 = a →
    streamKnown s p i (ent sub.entry 95 80) = true → checkCmd spPark false sub (a % 4096 = 0) true s = none → lifecycle s ≠ 2 →
    (getStream s i).state = .resident → (getStream s i).work = .idle → stepNames s p i = false →
    poolOf s p (getStream s i).pool = some (k, r) → parkPlan r a (getStream s i).pt = (plan, stop) →
    windowOfAddr a = w → w ≠ 64 → SMap.get 0 (getPod s p).parkTop w ≤ a % 2 ^ 40 →
    (plan = [] → stop = a → exec (.streamPark sub) s = .next (parkDone i (tokIn s sub) (postFirst (tokIn s sub) 0
      (modStream i (fun e => { e with work := .parking }) (parkEntries i [] (taken sub s)))))) ∧
    (a < stop → (stop - 1) / 2 ^ 40 = a / 2 ^ 40 → windowStatus (taken sub s) p a (stop - a) = none →
      parkWrites p i (getStream s i).gen r plan (taken sub s) = (ws, s2) →
      ∀ (first : List WinWrite) (last : WinWrite), splitLast ws = (first, some last) → first ≠ [] →
      exec (.streamPark sub) s = .next (sendWrites first
        (let s3 := modPod p (fun v => { v with parkTop := SMap.set 0 v.parkTop w (stop - a / 2 ^ 40 * 2 ^ 40) }) s2
         let s4 := postFirst (tokIn s sub) 0 (modStream i (fun e => { e with work := .parking }) (parkEntries i plan s3))
         { s4 with cmds := s4.cmds ++ [{ tok := tokIn s sub, work := .park i w (first.length, lastByte first) (some last) }] })))) ∧
  (-- the StreamUnparkRuns clauses
  (∀ (s : State) (sub : Submission) (i : Nat), Takes spUnpark (fun _ => true) sub s → ent sub.entry 79 64 = i →
    streamKnown s (podOf sub) i (ent sub.entry 95 80) = true → checkCmd spUnpark false sub true true s = none → lifecycle s ≠ 2 →
    (getStream s i).state = .parked → (getStream s i).work = .idle →
    exec (.streamUnpark sub) s = .next (postFirst (tokIn s sub) 0 (modStream i (fun e => { e with work := .unparking })
      { taken sub s with cmds := s.cmds ++ [{ tok := tokIn s sub, work := .unpark i none }] }))) ∧
  (∀ (s t : State) (i k : Nat) (c : PendingCmd) (fs : List Nat) (r : Region) (pt : List Pte) (st : Option Status)
      (imgs : List (Option (List Byte × List (BitVec 128)))),
    s.cmds.find? (unparkOf i) = some c → c.work = .unpark i (some fs) →
    poolOf s (getStream s i).pod (getStream s i).pool = some (k, r) →
    restoreAll i r (getStream s i).pt fs imgs { s with cmds := s.cmds.erase c } = (pt, st, t) →
    (st = none → exec (.unparkRestore i imgs) s = .next
      (postFinal c.tok stOK 0 0 (modStream i (fun e => { e with pt := pt, work := .idle, state := .resident }) t))) ∧
    (∀ x, st = some x → exec (.unparkRestore i imgs) s = .next
      (closeStream i x (postFinal c.tok x 0 0 (modStream i (fun e => { e with pt := pt, work := .idle }) t))))))

/-- R232, R233, R297-R299: STREAM_SHIP of a RESIDENT, idle stream not BUSY reads the receiving table, sends its unit-layers into the window
and posts FIRST, its landing write held; an acknowledgement counts one write with Unordered I/O and all of them with a flush read; the
held write goes when nothing else waits, and its own acknowledgement completes the command; an answer without success ends the node, or the
stream's work, with PARTNER_GONE (R300). -/
def Obligations.StreamShipAndAcknowledgementRun : Prop :=
  (∀ (s s2 s3 : State) (sub : Submission) (p i len base k : Nat) (r r' : Region) (pt' : List Pte) (plan : List (Nat × Nat))
      (flag : Nat) (ws : List WinWrite) (work : Work) (c : PendingCmd),
    Takes spShip (fun _ => true) sub s → podOf sub = p → ent sub.entry 79 64 = i → ent sub.entry 168 144 = len → ent sub.entry 367 320 = base →
    streamKnown s p i (ent sub.entry 95 80) = true → checkCmd spShip false sub (1 ≤ len && len ≤ 16777216) true s = none → lifecycle s ≠ 2 →
    (getStream s i).state = .resident → (getStream s i).busy = false → (getStream s i).work = .idle → len ≤ (getStream s i).wp →
    poolOf s p (getStream s i).pool = some (k, r) → shipTable 8193 p (ent sub.entry 143 96) len 0 (taken sub s) = (.ok pt', s2) →
    { r with off := 4096 * ent sub.entry 247 224, holder := (List.range 16).map (fun k => bits (ent sub.entry 319 256) (4 * k + 3) (4 * k)) } = r' →
    shipPlan r r' (getStream s i).pt pt' base len = plan → base + addrCsr + 0x300000 + 64 * shipPod s2 = flag →
    shipReach s2 p (regU r) (plan.map (fun q => q.2)) = none → windowStatus s2 p flag 64 = none → shipWrites r plan s2 = (ws, s3) →
    .ship i (windowOfAddr base) (ws.length, lastByte ws) (some (flag, landWord (ent sub.entry 184 169) len (ent sub.entry 223 192), false)) = work →
    { tok := tokIn s sub, work := work } = c →
    exec (.streamShip sub) s = .next (sendWrites ws (postFirst (tokIn s sub) 0 (modStream i (fun e => { e with work := .shipping })
      { s3 with freeIdx := s3.freeIdx + 1, cmds := s3.cmds ++ [c] })))) ∧
  (∀ (s : State) (w : Nat) (ref : NodeRef) (n : NodeRun) (x : Nat × Nat) (rest : List (Nat × Nat)), getNode s ref = some n →
    n.unacked.filter (fun y => y.1 = w) = x :: rest →
    (windowUio s w = true →
      exec (.writeAcknowledged w (.node ref) true) s = .next (modNode ref (fun n => { n with unacked := n.unacked.erase x }) s)) ∧
    (windowUio s w = false → sentAll s ref = true → exec (.writeAcknowledged w (.node ref) true) s = .next
      (modNode ref (fun n => { n with unacked := n.unacked.filter (fun y => y.1 ≠ w) }) (flushAt (rest.getLast?.getD x).2 s))) ∧
    (windowUio s w = false → sentAll s ref = false → exec (.writeAcknowledged w (.node ref) true) s = .next s) ∧
    exec (.writeAcknowledged w (.node ref) false) s = .next (faultNode ref csPARTNER_GONE (failWrite (· = w) ref s))) ∧
  (∀ (s : State) (w i : Nat) (n : Nat × Nat) (c : PendingCmd) (last : Option WinWrite), s.cmds.find? (sendsInto w i) = some c →
    senderOf c = some (i, w, n, last) →
    (windowUio s w = true → 1 < n.1 → exec (.writeAcknowledged w (.stream i) true) s = .next
      { s with cmds := s.cmds.map (fun x => if x = c then reSender c (n.1 - 1, n.2) last else x) }) ∧
    (windowUio s w = true → n.1 = 1 → ∀ f, last = some f → exec (.writeAcknowledged w (.stream i) true) s = .next
      (sendLast f { s with cmds := s.cmds.map (fun x => if x = c then reSender c (1, lastByte [f]) none else x) })) ∧
    (windowUio s w = true → n.1 = 1 → last = none → exec (.writeAcknowledged w (.stream i) true) s = .next (senderDone i c s)) ∧
    (windowUio s w = false → last = none → exec (.writeAcknowledged w (.stream i) true) s = .next (senderDone i c (flushAt n.2 s))) ∧
    (windowUio s w = false → ∀ f t, last = some f → flushAt n.2 s = t → exec (.writeAcknowledged w (.stream i) true) s = .next
      (sendLast f { t with cmds := t.cmds.map (fun x => if x = c then reSender c (1, lastByte [f]) none else x) })) ∧
    exec (.writeAcknowledged w (.stream i) false) s = .next (stopStreamWork i stPARTNER_GONE s))

/-- R210-R212, R221, R247, R251, R252: BATCH_STEP reads its list and, where a tentative plan of its graph ends by the deadline counted from
the first moment its release can fall on, admits the step with its promised completion; where the plan ends later, or there is none, it
answers REFUSED_DEADLINE and admits nothing. -/
def Obligations.BatchStepRuns : Prop :=
  ∀ (s s1 : State) (sub : Submission) (e : BitVec 512) (p n k tb : Nat) (g : Graph) (bs : List (Byte × Bool)) (ws : List Nat) (st : StepInfo)
      (wk : WalkIn),
    sub.entry = e → Takes spStep (fun _ => true) sub s → podOf sub = p → ent e 156 144 = n →
    checkCmd spStep false sub (stepFields s p e) true s = none → getGraph s p (ent e 95 64) = some g → g.peer = false →
    podReaches s p (ent e 143 96) (8 * n) false = true → podReaches s p (ent e 303 256) (16 * n) true = true →
    podReaches s p (ent e 367 320) (2 * n) true = true → fetchBytes (ent e 143 96) (8 * n) (taken sub s) = (bs, s1) →
    bs.any (fun b => b.2) = false → (List.range n).map (fun k => leNat (((bs.drop (8 * k)).take 8).map (fun b => b.1))) = ws →
    listOk ws = true → (∀ b, (getPod s1 p).boundary = some b → b < ent e 191 160) →
    stepInfo s1 p e (ws.map rowParse) = st → podSteps s1 p < 64 → jobCount s1 p < (getPod s1 p).quota →
    boundaryAhead s1 p st.boundary = (k, tb) →
    { e := st.walkE, rows := st.rows.length, tb := tb, period := podPeriod s1 p, slew := podSlew s1 p } = wk →
    ∀ (first last t0 : Nat), tb + k * (podPeriod s1 p - podSlew s1 p) + st.relOff = first →
      tb + k * (podPeriod s1 p + podSlew s1 p) + st.relOff = last →
      (st.preds.map (plannedEnd s1 p)).foldl max (max last (now s1)) = t0 →
      (tentative s1 p g t0 (some wk) = none →
        exec (.batchStep sub) s = .next (only sub (tokIn s sub) stREFUSED_DEADLINE (earliest none) 0 s1)) ∧
      (∀ slots, tentative s1 p g t0 (some wk) = some slots →
        (first + st.deadline < completionOf slots →
          exec (.batchStep sub) s = .next (only sub (tokIn s sub) stREFUSED_DEADLINE (earliest (some slots)) 0 s1)) ∧
        (completionOf slots ≤ first + st.deadline → ∃ i, exec (.batchStep sub) s = .next (admitInst i s1) ∧
          i.pod = p ∧ i.graph = g.id ∧ i.tok = tokIn s sub ∧ i.promised = true ∧ i.release = last ∧ i.deadline = first + st.deadline ∧
          i.step = some st ∧ i.cancelled = false ∧ i.sources = podSources s1 p ∧ i.nodes = slots.map (fun sl => freshNode sl.cores sl.start sl.fin)))

/-- R208, R215, R216, R221, R244: a due boundary of a pod whose hub serves runs its stages: cancels and leaves, chaff, adapters and key,
growth, unpark and inbound allocations, joins, release; a staged step is released at its time; a step all of whose nodes have ended ends
with the status of its nodes, and one that ends OK or LATE puts WP at its first position plus its N. -/
def Obligations.BoundaryAndStepEndRun : Prop :=
  (∀ (s s1 s2 s3 s4 : State) (p t b : Nat) (steps : List Inst) (acc : Acc3), (getPod s p).state ≠ .free → hubFenced s (getPod s p).hub = false →
    dueTime s p = some t → countBoundary p t (pwuBoundary p s) = s1 → (getPod s1 p).boundary = some b →
    (stepsFor s1 p b).filter (fun i => !i.cancelled && !allEnded i) = steps → stage2 p (stage1 p steps s1) = s2 →
    steps.foldl (fun acc i => growStep p b i acc) ({ named := [], done := [] }, s2) = (acc, s3) →
    acc.done.foldl (fun s d => joinRows p (acc.done.map (fun d => d.1)) d.1 d.2 s) (pendingAllocs p s3) = s4 →
    exec (.podBoundary p) s = .next (applySync p t ((acc.done.map (fun d => d.1)).foldl (fun s n => releaseStep p n t s) s4))) ∧
  (∀ (s : State) (p t : Nat), (countBoundary p t s).pods = (SMap.set {} s.pods p
      { getPod s p with boundary := some (match (getPod s p).boundary with | some b => (b + 1) % 2 ^ 32 | none => 0), boundaryAt := t,
                        due := if (getPod s p).follow then (getPod s p).due.drop 1 else (getPod s p).due, anchor := t })) ∧
  (∀ (s : State) (p num : Nat) (i : Inst) (st : StepInfo), findInst s p num = some i → i.step = some st → st.staged = true →
    st.released = false → st.relAt ≤ now s →
    exec (.stepRelease p num) s = .next (modStep p num (fun st => { st with released := true }) s)) ∧
  (∀ (s : State) (p num : Nat) (i : Inst), findInst s p num = some i → i.step.isSome = true → allEnded i = true →
    exec (.stepEnd p num) s = .next (endStep p num (statusOf i (now s)) s)) ∧
  (∀ (s : State) (p num : Nat) (st : Status) (r : StepRow), st = stOK ∨ st = stLATE →
    (getStream (endRow p num st r s) r.stream).wp = r.wp + r.n ∧
    (getStream (endRow p num st r s) r.stream).steps = satAdd 0xFFFFFFFF (getStream s r.stream).steps 1 ∧
    (∀ j, j ≠ r.stream → getStream (endRow p num st r s) j = getStream s j))

/-- R69-R78, R87, R88, R114, R192, R258, R366: a ready pass of a tile whose node runs and whose lists read well enters its products; a retired
stationary register is filled with the next pass's set; the oldest waiting bank exits, to the scratchpad or as sprout writes; a list that
stops a pass or an exit at a slot lets the slots before it go on and ends the node FAULTED; a fitting vector step stores its results (this
does not say what its events count). -/
def Obligations.TileCommandsRun : Prop :=
  (∀ (s : State) (ref : TileRef) (r : TileRun), activeRun s ref = some r → passReady r = true → nodeCancelled s ref.node = false →
    (listCut s r 1 r.pass = none → ((runTile r).stream = true → listCut s r 2 r.pass = none) →
      exec (.tilePass ref) s = .next (passOn r s)) ∧
    (∀ n c, listCut s r 1 r.pass = some (n, c) → exec (.tilePass ref) s = .next (passCut r 1 n c s)) ∧
    (∀ n c, listCut s r 1 r.pass = none → (runTile r).stream = true → listCut s r 2 r.pass = some (n, c) →
      exec (.tilePass ref) s = .next (passCut r 2 n c s))) ∧
  (∀ (s : State) (r : TileRun), (runTile r).stream = false →
    passOn r s = accumulate r (moveLoads r r.pass (slotsPerPass (runTile r)) (fetchList r 1 (slotsPerPass (runTile r)) s))) ∧
  (∀ (s : State) (ref : TileRef) (r : TileRun) (p : Nat), activeRun s ref = some r → r.ended = false → nextFill r = some p →
    exec (.stationaryFill ref) s = .next (fillRegister r p s)) ∧
  (∀ (s : State) (ref : TileRef) (r : TileRun) (bank : Bool) (b : Nat) (rest : List (Bool × Nat)), activeRun s ref = some r →
    r.exits = (bank, b) :: rest →
    (listCut s r 2 b = none → (runTile r).exit = true → exec (.bankExit ref) s = .next (rowsExit r bank b s)) ∧
    (listCut s r 2 b = none → (runTile r).exit = false → ∀ s1, fetchList r 2 (slotsPerPass (runTile r)) s = s1 →
      exec (.bankExit ref) s = .next ((bankItems s1 r bank b (slotsPerPass (runTile r))).foldl (fun s items => exitGroup r items s)
        (putRun (advance (popBank r bank)) s1))) ∧
    (∀ n c, listCut s r 2 b = some (n, c) → ∀ s1, fetchList r 2 n s = s1 → exec (.bankExit ref) s = .next
      (faultNode ref.node c ((bankItems s1 r bank b n).foldl (fun s items => exitGroup r items s) s1)))) ∧
  (∀ (s : State) (r : TileRun) (items : List Item), drainsToPort s r = true → exitGroup r items s = drainPort r items s) ∧
  (∀ (s : State) (cluster : Nat) (v : VectorDesc) (run : TileRun) (srcs : List VecSrc) (td : TDesc) (items : List Item),
    s.tileRuns.find? (fun r => r.ref.core = cluster && isRunning s r.ref.node) = some run → v.drain = none →
    vecSrcs s cluster v = srcs → tdParse v.dst.2.toNat = td → v.srcs.all (vecTd s cluster) = true → vecTd s cluster v.dst = true →
    isStore td.fmt td.scaled = true → srcs.length = vecSources v.op → srcs.all (fun x => vecShape v.op x.ext = td.ext) = true →
    (allCoords td.ext).map (fun c => { coord := c, val := .value (fp32Val (vecResult v.op srcs c).1.1),
                                       poison := (vecResult v.op srcs c).1.2 : Item }) = items →
    items.any (fun it => it.poison) = false →
    ∃ (addrs : List Nat) (trit nan sat : Nat), exec (.vectorStep cluster v) s = .next
      (countMx cluster trit nan sat 0 (storeAll (addrTile (8 * cluster + v.dst.1)) td items (touch addrs s)).1))

/-- R126, R146-R148, R151, R170: an integer instruction that its group may issue writes vD in every lane that takes part (in every ACTIVE lane
for IMAD) from that lane's operands, with the poison of its sources, and changes nothing else but the group's place. R145, R147, R148,
R153, R170: MOVI writes its immediate, SREG the special value, and SEL the register its predicate selects, to vD of the lanes that take
part; SEL on a poisoned predicate of an ACTIVE lane ends the node FAULTED with POISONED. -/
def Obligations.EngineIntegerRuns : Prop :=
  (-- the EngineIntegerRuns clauses
  (∀ (s : State) (at_ : Issue) (w : EngFields) (run : EngineRun) (g : Group) (op : EngOp) (c : Issue → EngFields → Instr)
      (f : BitVec 32 → BitVec 32 → BitVec 32),
    (op, c, f) ∈ ([(.iadd, .iadd, fun a b => a + b), (.imul, .imul, fun a b => a * b), (.and_, .and_, fun a b => a &&& b),
      (.or_, .or_, fun a b => a ||| b), (.xor_, .xor_, fun a b => a ^^^ b), (.shl, .shl, fun a b => a <<< (b.toNat % 32)),
      (.shr, .shr, fun a b => if w.imm.getLsbD 24 then a.sshiftRight (b.toNat % 32) else a >>> (b.toNat % 32))] :
      List (EngOp × (Issue → EngFields → Instr) × (BitVec 32 → BitVec 32 → BitVec 32))) →
    readyGroup op at_ w s = some (run, g) →
    ∃ h, exec (c at_ w) s = .next (advanced op at_ w run g h s) ∧ RegsBecome g h (guarded_ g w) (fun i r => if r = w.d.toNat then
      (if w.imm.getLsbD 31 then some (f (rv g i w.a.toNat) ((w.imm.setWidth 24).signExtend 32), rpo g i w.a.toNat)
       else some (f (rv g i w.a.toNat) (rv g i w.b.toNat), rpo g i w.a.toNat || rpo g i w.b.toNat)) else none)) ∧
  (∀ (s : State) (at_ : Issue) (w : EngFields) (run : EngineRun) (g : Group), readyGroup .imad at_ w s = some (run, g) →
    ∃ h, exec (.imad at_ w) s = .next (advanced .imad at_ w run g h s) ∧ RegsBecome g h (activeLanes g) (fun i r => if r = w.d.toNat then
      some (rv g i w.a.toNat * rv g i w.b.toNat + rv g i w.c.toNat, rpo g i w.a.toNat || rpo g i w.b.toNat || rpo g i w.c.toNat) else none))) ∧
  (-- the EngineMovesRun clauses
  (∀ (s : State) (at_ : Issue) (w : EngFields) (run : EngineRun) (g : Group), readyGroup .movi at_ w s = some (run, g) →
    ∃ h, exec (.movi at_ w) s = .next (advanced .movi at_ w run g h s) ∧
      RegsBecome g h (guarded_ g w) (fun _ r => if r = w.d.toNat then some (w.imm, false) else none)) ∧
  (∀ (s : State) (at_ : Issue) (w : EngFields) (run : EngineRun) (g : Group), readyGroup .sreg at_ w s = some (run, g) →
    ∃ h, exec (.sreg at_ w) s = .next (advanced .sreg at_ w run g h s) ∧ RegsBecome g h (guarded_ g w) (fun i r => if r = w.d.toNat then
      some (BitVec.ofNat 32 (specialValue at_.engine run g i (bits w.imm.toNat 7 0)).1, (specialValue at_.engine run g i (bits w.imm.toNat 7 0)).2)
      else none)) ∧
  (∀ (s : State) (at_ : Issue) (w : EngFields) (run : EngineRun) (g : Group), readyGroup .sel at_ w s = some (run, g) →
    ((∀ i, i ∈ activeLanes g → ppo g i (w.c.toNat % 8) = false) →
      ∃ h, exec (.sel at_ w) s = .next (advanced .sel at_ w run g h s) ∧ RegsBecome g h (activeLanes g) (fun i r => if r = w.d.toNat then
        some (if pv g i (w.c.toNat % 8) then (rv g i w.a.toNat, rpo g i w.a.toNat) else (rv g i w.b.toNat, rpo g i w.b.toNat)) else none)) ∧
    (∀ i, i ∈ activeLanes g → ppo g i (w.c.toNat % 8) = true → exec (.sel at_ w) s = .next (faultNode run.node csPOISONED s))))

/-- R147, R148, R151, R170: PSET and PLOG set pD in the lanes that take part, p0 apart; LOOP decrements the lead thread's vD and branches
where the result is not 0. -/
def Obligations.EnginePredicatesRun : Prop :=
  (∀ (s : State) (at_ : Issue) (w : EngFields) (run : EngineRun) (g : Group), readyGroup .pset at_ w s = some (run, g) →
    ∃ h, exec (.pset at_ w) s = .next (advanced .pset at_ w run g h s) ∧ PredBecomes g h (guarded_ g w) (w.d.toNat % 8)
      (fun i => (psetCompare w.imm.toNat (rv g i w.a.toNat) (psetB g w i).1, rpo g i w.a.toNat || (psetB g w i).2))) ∧
  (∀ (s : State) (at_ : Issue) (w : EngFields) (run : EngineRun) (g : Group), readyGroup .plog at_ w s = some (run, g) →
    ∃ h, exec (.plog at_ w) s = .next (advanced .plog at_ w run g h s) ∧ PredBecomes g h (guarded_ g w) (w.d.toNat % 8)
      (fun i => (plogOp w.imm.toNat (pv g i (w.a.toNat % 8)) (pv g i (w.b.toNat % 8)), ppo g i (w.a.toNat % 8) || ppo g i (w.b.toNat % 8)))) ∧
  (∀ (s : State) (at_ : Issue) (w : EngFields) (run : EngineRun) (g : Group), readyGroup .loop at_ w s = some (run, g) →
    (guarded_ g w = [] → exec (.loop at_ w) s = .next (advanced .loop at_ w run g g s)) ∧
    (∀ (lead : Nat) (rest : List Nat), guarded_ g w = lead :: rest →
      (rpo g lead w.d.toNat = true → exec (.loop at_ w) s = .next (faultNode run.node csPOISONED s)) ∧
      (rpo g lead w.d.toNat = false → ∃ h, RegsBecome g h [lead]
          (fun _ r => if r = w.d.toNat then some (rv g lead w.d.toNat - 1, false) else none) ∧
        exec (.loop at_ w) s = .next (if rv g lead w.d.toNat = 1 then advanced .loop at_ w run g h s
          else branched .loop at_ w g h (bits w.imm.toNat 12 0) s))))

/-- R136-R138, R147, R148, R152, R167: NOP, END, BRA, BARE, BARG and WAITC, and the releases: the engine barrier when every resident group of
the engine waits at it, the group barrier when every one of the bank group's engines does, a counter wait once the counter has reached its
value. -/
def Obligations.EngineControlRuns : Prop :=
  (∀ (s : State) (at_ : Issue) (w : EngFields) (run : EngineRun) (g : Group),
    (readyGroup .nop at_ w s = some (run, g) → exec (.nop at_ w) s = .next (advanced .nop at_ w run g g s)) ∧
    (readyGroup .end_ at_ w s = some (run, g) → exec (.end_ at_ w) s = .next (endGroup at_.engine at_.slot s)) ∧
    (readyGroup .bare at_ w s = some (run, g) →
      exec (.bare at_ w) s = .next (advanced .bare at_ w run g { g with wait := .engineBarrier } s)) ∧
    (readyGroup .barg at_ w s = some (run, g) →
      exec (.barg at_ w) s = .next (advanced .barg at_ w run g { g with wait := .groupBarrier } s)) ∧
    (readyGroup .bra at_ w s = some (run, g) → (∀ i, i ∈ activeLanes g → ppo g i (w.c.toNat % 8) = false) →
      exec (.bra at_ w) s = .next (if guarded_ g w ≠ [] ∧ (bits w.imm.toNat 15 14 ≤ 1 ∨ guarded_ g w = activeLanes g) then
        branched .bra at_ w g g (bits w.imm.toNat 12 0) s else advanced .bra at_ w run g g s)) ∧
    (readyGroup .waitc at_ w s = some (run, g) → ∀ lead rest, guarded_ g w = lead :: rest → w.imm.getLsbD 4 = true →
      exec (.waitc at_ w) s = .next (advanced .waitc at_ w run g { g with wait := .counter (bits w.imm.toNat 3 0) (bits w.imm.toNat 31 8) } s)) ∧
    (readyGroup .waitc at_ w s = some (run, g) → ∀ lead rest, guarded_ g w = lead :: rest → w.imm.getLsbD 4 = false →
      rpo g lead w.a.toNat = false →
      exec (.waitc at_ w) s = .next (advanced .waitc at_ w run g { g with wait := .counter (bits w.imm.toNat 3 0) (rv g lead w.a.toNat).toNat } s))) ∧
  (∀ (s : State) (e : Nat) (run free : EngineRun), SMap.get none s.engines e = some run → run.groups ≠ [] →
    (∀ g, g ∈ run.groups → g.wait = .engineBarrier) → { run with groups := run.groups.map (fun g => { g with wait := .none }) } = free →
    exec (.engineBarrierRelease e) s = .next { s with engines := SMap.set none s.engines e (some free) }) ∧
  (∀ (s : State) (n : Nat), groupRuns n s ≠ [] → (∀ r, r ∈ groupRuns n s → ∀ g, g ∈ r.2.groups → g.wait = .groupBarrier) →
    ∃ t, exec (.groupBarrierRelease n) s = .next t ∧ t = { s with engines := t.engines } ∧
      (∀ e run, (e, run) ∈ groupRuns n s → SMap.get none t.engines e = some { run with groups := run.groups.map (fun g => { g with wait := .none }) }) ∧
      (∀ e, (∀ run, (e, run) ∉ groupRuns n s) → SMap.get none t.engines e = SMap.get none s.engines e)) ∧
  (∀ (s : State) (at_ : Issue) (run : EngineRun) (g : Group) (c v : Nat), SMap.get none s.engines at_.engine = some run →
    g ∈ run.groups → g.slot = at_.slot → g.wait = .counter c v →
    ∃ t run', exec (.waitcRelease at_) s = .next t ∧ t = { s with engines := t.engines } ∧ SMap.get none t.engines at_.engine = some run' ∧
      (v ≤ SMap.get 0 run.counters c → { g with wait := .none } ∈ run'.groups) ∧ (SMap.get 0 run.counters c < v → g ∈ run'.groups))

/-- R53, R59-R62, R88, R157, R160-R162: the FP32 instructions write their results to the lanes that take part, each formed from the registers
as they were before; FRED and MAXI give every such lane one value over all of them; overlapping pairs of SMSTEP end the node FAULTED with
BAD_CODE; CVT counts what saturates. -/
def Obligations.EngineFloatRuns : Prop :=
  (∀ (s : State) (at_ : Issue) (w : EngFields) (run : EngineRun) (g : Group) (op : EngOp) (c : Issue → EngFields → Instr)
      (f : BitVec 32 → BitVec 32 → BitVec 32),
    (op, c, f) ∈ ([(.fadd, .fadd, fp32Add), (.fsub, .fsub, fp32Sub), (.fmul, .fmul, fp32Mul), (.fmax, .fmax, fp32Max), (.fmin, .fmin, fp32Min)] :
      List (EngOp × (Issue → EngFields → Instr) × (BitVec 32 → BitVec 32 → BitVec 32))) →
    readyGroup op at_ w s = some (run, g) →
    ∃ h, exec (c at_ w) s = .next (advanced op at_ w run g h s) ∧ RegsBecome g h (guarded_ g w) (fun i r => if r = w.d.toNat then
      some (f (rv g i w.a.toNat) (rv g i w.b.toNat), rpo g i w.a.toNat || rpo g i w.b.toNat) else none)) ∧
  (∀ (s : State) (at_ : Issue) (w : EngFields) (run : EngineRun) (g : Group) (op : EngOp) (c : Issue → EngFields → Instr)
      (f : BitVec 32 → BitVec 32),
    (op, c, f) ∈ ([(.exp, .exp, fpExp), (.recip, .recip, fpRecip), (.rsqrt, .rsqrt, fpRsqrt), (.silu, .silu, fpSilu)] :
      List (EngOp × (Issue → EngFields → Instr) × (BitVec 32 → BitVec 32))) →
    readyGroup op at_ w s = some (run, g) →
    ∃ h, exec (c at_ w) s = .next (advanced op at_ w run g h s) ∧ RegsBecome g h (guarded_ g w) (fun i r => if r = w.d.toNat then
      some (f (rv g i w.a.toNat), rpo g i w.a.toNat) else none)) ∧
  (∀ (s : State) (at_ : Issue) (w : EngFields) (run : EngineRun) (g : Group), readyGroup .fma at_ w s = some (run, g) →
    ∃ h, exec (.fma at_ w) s = .next (advanced .fma at_ w run g h s) ∧ RegsBecome g h (activeLanes g) (fun i r => if r = w.d.toNat then
      some (fp32Fma (rv g i w.a.toNat) (rv g i w.b.toNat) (rv g i w.c.toNat), rpo g i w.a.toNat || rpo g i w.b.toNat || rpo g i w.c.toNat) else none)) ∧
  (∀ (s : State) (at_ : Issue) (w : EngFields) (run : EngineRun) (g : Group), readyGroup .fred at_ w s = some (run, g) →
    ∃ h, exec (.fred at_ w) s = .next (advanced .fred at_ w run g h s) ∧ RegsBecome g h (guarded_ g w) (fun _ r => if r = w.d.toNat then
      some (fredValue (bits w.imm.toNat 1 0) ((List.range 32).map (fun i => if (guarded_ g w).contains i then some (rv g i w.a.toNat) else none)),
        anyPoison g (guarded_ g w) w.a.toNat) else none)) ∧
  (∀ (s : State) (at_ : Issue) (w : EngFields) (run : EngineRun) (g : Group) (x : BitVec 32 × BitVec 32) (po : Bool),
    readyGroup .maxi at_ w s = some (run, g) → w.d.toNat ≤ 62 →
    maxiValue ((guarded_ g w).map (fun i => (rv g i w.a.toNat, rv g i w.b.toNat))) = x →
    (anyPoison g (guarded_ g w) w.a.toNat || anyPoison g (guarded_ g w) w.b.toNat) = po →
    ∃ h, exec (.maxi at_ w) s = .next (advanced .maxi at_ w run g h s) ∧ RegsBecome g h (guarded_ g w) (fun _ r =>
      if r = w.d.toNat then some (x.1, po) else if r = w.d.toNat + 1 then some (x.2, po) else none)) ∧
  (∀ (s : State) (at_ : Issue) (w : EngFields) (run : EngineRun) (g : Group), readyGroup .smstep at_ w s = some (run, g) →
    w.d.toNat ≤ 62 → w.c.toNat ≤ 62 →
    (w.d = w.c ∨ w.d.toNat + 1 = w.c.toNat ∨ w.c.toNat + 1 = w.d.toNat → exec (.smstep at_ w) s = .next (faultNode run.node csBAD_CODE s)) ∧
    (w.d.toNat + 1 < w.c.toNat ∨ w.c.toNat + 1 < w.d.toNat →
      ∃ h, exec (.smstep at_ w) s = .next (advanced .smstep at_ w run g h s) ∧ RegsBecome g h (activeLanes g) (fun i r =>
        let x := softmaxStep (rv g i w.d.toNat) (rv g i (w.d.toNat + 1)) (rv g i w.a.toNat) (rv g i w.b.toNat)
        let po := rpo g i w.d.toNat || rpo g i (w.d.toNat + 1) || rpo g i w.a.toNat || rpo g i w.b.toNat
        if r = w.d.toNat then some (x.1, po) else if r = w.d.toNat + 1 then some (x.2.1, po)
        else if r = w.c.toNat then some (x.2.2.1, po) else if r = w.c.toNat + 1 then some (x.2.2.2, po) else none))) ∧
  (∀ (s : State) (at_ : Issue) (w : EngFields) (run : EngineRun) (g : Group) (l : List Nat) (one : Nat → Nat × Bool),
    readyGroup .cvt at_ w s = some (run, g) → coordPoison g w (guarded_ g w) = false → guarded_ g w = l →
    (∀ i, one i = convert (bits w.imm.toNat 3 0) (bits w.imm.toNat 9 8) (laneBits run g w i) (regValue (bits w.imm.toNat 7 4) (rv g i w.a.toNat))) →
    ∃ h, exec (.cvt at_ w) s = .next (advanced .cvt at_ w run g h (countStk at_.engine 0 0 (countIf (fun i => (one i).2) l) 0 s)) ∧
      RegsBecome g h l (fun i r => if r = w.d.toNat then some (regCode (bits w.imm.toNat 3 0) (one i).1, rpo g i w.a.toNat) else none))

/-- R48, R148, R155-R157, R170: XCLR clears accD; XRED gives the lowest lane that takes part in each aligned run the merge of accA over the
run; XEXIT writes the exit of accA and clears it unless KEEP; an open stage ends XRED and XEXIT FAULTED with BAD_OPERAND. R154, R155,
R158, R163, R170: XMAC faults before any effect where an operand, its stage or its range is bad, and otherwise takes the lanes that take
part in order, each entering the products of the bytes at vA and vB into accD; QBLK stores the block record of vA at the lead thread's vB. -/
def Obligations.EngineAccumulatorsRun : Prop :=
  (-- the EngineAccumulatorsRun clauses
  (∀ (s : State) (at_ : Issue) (w : EngFields) (run : EngineRun) (g : Group), readyGroup .xclr at_ w s = some (run, g) →
    ∃ h, exec (.xclr at_ w) s = .next (advanced .xclr at_ w run g h s) ∧
      AccBecomes g h (w.d.toNat % 8) (fun i => if i ∈ guarded_ g w then some {} else none)) ∧
  (∀ (s : State) (at_ : Issue) (w : EngFields) (run : EngineRun) (g : Group) (a d n : Nat), readyGroup .xred at_ w s = some (run, g) →
    w.a.toNat % 8 = a → w.d.toNat % 8 = d → 2 ^ bits w.imm.toNat 2 0 = n → 1 ≤ bits w.imm.toNat 2 0 → bits w.imm.toNat 2 0 ≤ 5 →
    ((∃ i, i ∈ guarded_ g w ∧ ((acv g i a).stage.isSome = true ∨ (acv g i d).stage.isSome = true)) →
      exec (.xred at_ w) s = .next (faultNode run.node csBAD_OPERAND s)) ∧
    ((∀ i, i ∈ guarded_ g w → (acv g i a).stage = none ∧ (acv g i d).stage = none) →
      ∃ h, exec (.xred at_ w) s = .next (advanced .xred at_ w run g h s) ∧ AccBecomes g h d (fun i =>
        match (guarded_ g w).filter (fun j => j / n = i / n) with
        | j :: r => if i = j then some { acc := r.foldl (fun m k => accMerge m (acv g k a).acc) (acv g j a).acc, stage := none } else none
        | [] => none))) ∧
  (∀ (s : State) (at_ : Issue) (w : EngFields) (run : EngineRun) (g : Group) (a : Nat) (one : Nat → Nat × Bool),
    readyGroup .xexit at_ w s = some (run, g) → w.a.toNat % 8 = a →
    (∀ i, one i = accExit (bits w.imm.toNat 3 0) (bits w.imm.toNat 9 8) (laneBits run g w i) run.desc.anchor (acv g i a).acc) →
    ((∃ i, i ∈ guarded_ g w ∧ (acv g i a).stage.isSome = true) → exec (.xexit at_ w) s = .next (faultNode run.node csBAD_OPERAND s)) ∧
    ((∀ i, i ∈ guarded_ g w → (acv g i a).stage = none) → coordPoison g w (guarded_ g w) = false →
      ∃ h, exec (.xexit at_ w) s = .next (advanced .xexit at_ w run g h (countStk at_.engine 0 0 (countIf (fun i => (one i).2) (guarded_ g w)) 0 s)) ∧
        RegsBecome g { h with acc := g.acc } (guarded_ g w) (fun i r => if r = w.d.toNat then
          some (regCode (bits w.imm.toNat 3 0) (one i).1, (acv g i a).acc.poison) else none) ∧
        AccBecomes { g with v := h.v, poison := h.poison } h a
          (fun i => if i ∈ guarded_ g w ∧ w.imm.getLsbD 11 = false then some {} else none)))) ∧
  (-- the EngineProductsRun clauses
  (∀ (s : State) (at_ : Issue) (w : EngFields) (run : EngineRun) (g : Group), readyGroup .xmac at_ w s = some (run, g) →
    (∀ c, (guarded_ g w).findSome? (xmacFault run.desc w g) = some c → exec (.xmac at_ w) s = .next (faultNode run.node c s)) ∧
    ((guarded_ g w).findSome? (xmacFault run.desc w g) = none → ∃ h t,
      (guarded_ g w).foldl (xmacStep at_.engine run w) (g, s) = (h, t) ∧ exec (.xmac at_ w) s = .next (advanced .xmac at_ w run g h t))) ∧
  (∀ (s s1 s2 : State) (e i d : Nat) (w : EngFields) (run : EngineRun) (g : Group) (a b : List (Byte × Bool)), w.d.toNat % 8 = d →
    i < 32 → w.imm.getLsbD 11 = false →
    readLocal e (rv g i w.a.toNat).toNat (xBytes (xOps w.imm.toNat).1) s = (a, s1) →
    readLocal e (rv g i w.b.toNat).toNat (xBytes (xOps w.imm.toNat).2.1) s1 = (b, s2) →
    ∃ h t, xmacStep e run w (g, s) i = (h, t) ∧ AccBecomes g h d (fun j => if j = i then
        some (xmacLane run.desc.anchor w.imm.toNat (a.map (fun q => q.1)) (b.map (fun q => q.1))
          (a.any (fun q => q.2) || b.any (fun q => q.2)) (acv g i d)).1 else none) ∧
      t = { s2 with stkFmt := t.stkFmt }) ∧
  (∀ (s : State) (at_ : Issue) (w : EngFields) (run : EngineRun) (g : Group) (lead off : Nat) (rest : List Nat) (r : List Byte × Nat),
    readyGroup .qblk at_ w s = some (run, g) → guarded_ g w = lead :: rest → (rv g lead w.b.toNat).toNat = off →
    rpo g lead w.b.toNat = false → coordPoison g w (lead :: rest) = false →
    (localOk run.desc off (recBytes (bits w.imm.toNat 3 0) false) = false →
      exec (.qblk at_ w) s = .next (faultNode run.node csBAD_OPERAND s)) ∧
    (localOk run.desc off (recBytes (bits w.imm.toNat 3 0) false) = true →
      storeBlock (bits w.imm.toNat 3 0) (bits w.imm.toNat 9 8) ((List.range 32).map (fun i =>
        if (lead :: rest).contains i then (fp32Val (rv g i w.a.toNat), laneBits run g w i) else (.fin false 0 0, 0))) = r →
      exec (.qblk at_ w) s = .next (advanced .qblk at_ w run g g (countStk at_.engine 0 0 r.2 0
        (writeLocal at_.engine run.node off (r.1.map (fun b => (b, anyPoison g (lead :: rest) w.a.toNat))) s))))))

/-- R163, R164, R170, R171: a load or store faults before any effect where a lane's access is bad, and otherwise takes its lanes in order; one
lane's load fills vD (and vD+1 for 8 bytes) from the bytes at its address; a store of clean registers outside every window changes no byte
but those it stores, and with one lane stores the bytes of vB. -/
def Obligations.EngineLoadsAndStoresRun : Prop :=
  (∀ (s : State) (at_ : Issue) (w : EngFields) (run : EngineRun) (g : Group) (op : EngOp) (c : Issue → EngFields → Instr) (m : Mem),
    (op, c, m) ∈ ([(.ldl, .ldl, .local_), (.lds, .lds, .shared), (.ldg, .ldg, .device)] : List (EngOp × (Issue → EngFields → Instr) × Mem)) →
    readyGroup op at_ w s = some (run, g) →
    (∀ f, (guarded_ g w).findSome? (accessFault m false at_.engine run g w s) = some f → exec (c at_ w) s = .next (faultNode run.node f s)) ∧
    ((guarded_ g w).findSome? (accessFault m false at_.engine run g w s) = none → ∃ h t,
      (guarded_ g w).foldl (loadLane m at_.engine run w) (g, s) = (h, t) ∧ exec (c at_ w) s = .next (advanced op at_ w run g h t))) ∧
  (∀ (s t : State) (e i : Nat) (w : EngFields) (run : EngineRun) (g : Group) (m : Mem) (bs : List (Byte × Bool)), i < 32 →
    (m ≠ .device → fetchBytes (accessAddr m e (accessAt m g w i)) (accessWidth w) s = (bs, t)) →
    (m = .device → readDevice run.node (accessAddr m e (accessAt m g w i)) (accessWidth w) s = (bs, t)) → (accessWidth w = 8 → w.d.toNat ≤ 62) →
    ∃ h, loadLane m e run w (g, s) i = (h, t) ∧ RegsBecome g h [i] (fun _ r =>
      if r = w.d.toNat then some (BitVec.ofNat 32 (loadValue w (bytesVal bs).1), (bytesVal bs).2)
      else if r = w.d.toNat + 1 ∧ accessWidth w = 8 then some (BitVec.ofNat 32 (loadValue w (bytesVal bs).1 >>> 32), (bytesVal bs).2) else none)) ∧
  (∀ (s : State) (at_ : Issue) (w : EngFields) (run : EngineRun) (g : Group) (op : EngOp) (c : Issue → EngFields → Instr) (m : Mem)
      (addr : Nat → Nat),
    (op, c, m) ∈ ([(.stl, .stl, .local_), (.sts, .sts, .shared), (.stg, .stg, .device)] : List (EngOp × (Issue → EngFields → Instr) × Mem)) →
    readyGroup op at_ w s = some (run, g) → (∀ i, addr i = accessAddr m at_.engine (accessAt m g w i)) →
    (∀ f, (guarded_ g w).findSome? (accessFault m true at_.engine run g w s) = some f → exec (c at_ w) s = .next (faultNode run.node f s)) ∧
    ((guarded_ g w).findSome? (accessFault m true at_.engine run g w s) = none → ∃ t,
      (guarded_ g w).foldl (storeLane m at_.engine run g w) s = t ∧ exec (c at_ w) s = .next (advanced op at_ w run g g t) ∧
      ((∀ i, i ∈ guarded_ g w → rpo g i w.b.toNat = false ∧ (accessWidth w = 8 → rpo g i (w.b.toNat + 1) = false) ∧
          ∀ win off, placeOf (addr i) ≠ .window win off) →
        (∀ a, (∀ i, i ∈ guarded_ g w → a < addr i ∨ addr i + accessWidth w ≤ a) → rawByte t a = rawByte s a) ∧
        t = { s with mem := t.mem, poison := t.poison, dramErr := t.dramErr, sramErr := t.sramErr, land := t.land } ∧
        (∀ i k, guarded_ g w = [i] → SMap.get false s.poison (addr i / 64) = false → k < accessWidth w →
          rawByte t (addr i + k) = if k < 4 then (rv g i w.b.toNat).extractLsb' (8 * k) 8
            else (rv g i (w.b.toNat + 1)).extractLsb' (8 * (k - 4)) 8))))

/-- R138-R142, R165-R168, R192-R194, R219: GCOPY puts its granules in flight or lands them, XCHG sends its block to the engines of its set,
SPRT hands its payload to the port; a granule that lands fills each of its engines in service and raises their counters; the port discards
a sink's payload, ends the node FAULTED, or sends the write to its stack, where it lands. -/
def Obligations.EngineExchangesRun : Prop :=
  (∀ (s s1 : State) (at_ : Issue) (w : EngFields) (run : EngineRun) (g : Group) (lead doff loff n first : Nat) (rest : List Nat)
      (db : List (Byte × Bool)) (t : TDesc),
    readyGroup .gcopy at_ w s = some (run, g) → activeLanes g = lead :: rest → (rv g lead w.a.toNat).toNat = doff →
    (rv g lead w.b.toNat).toNat = loff → bits w.imm.toNat 11 0 + 1 = n →
    rpo g lead w.a.toNat = false → rpo g lead w.b.toNat = false → rpo g lead w.c.toNat = false →
    localOk run.desc doff 128 = true → localOk run.desc loff (64 * n) = true →
    readLocal at_.engine doff 128 s = (db, s1) → db.any (fun b => b.2) = false → tdOk (leNat (db.map (fun b => b.1))) = true →
    tdParse (leNat (db.map (fun b => b.1))) = t → t.base % 64 = 0 → t.space ≠ 1 → tdWindow t = false → t.base / 64 + (rv g lead w.c.toNat).toNat = first →
    (tdGranules t).1 ≤ first → first + n ≤ (tdGranules t).1 + (tdGranules t).2 →
    rangeFault s run.node.pod (6 + at_.engine / 64) (64 * first) (64 * n) (w.imm.getLsbD 12) = none →
    (w.imm.getLsbD 12 = true → exec (.gcopy at_ w) s = .next (advanced .gcopy at_ w run g g (copyOut run at_.engine loff n first s1))) ∧
    (w.imm.getLsbD 12 = false → exec (.gcopy at_ w) s = .next
      (advanced .gcopy at_ w run g g (copyIn run (t.lc && run.desc.lc) at_.engine loff (bits w.imm.toNat 19 16) n first s1)))) ∧
  (∀ (s : State) (at_ : Issue) (w : EngFields) (run : EngineRun) (g : Group) (lead off n : Nat) (rest : List Nat),
    readyGroup .xchg at_ w s = some (run, g) → guarded_ g w = lead :: rest → (rv g lead w.a.toNat).toNat = off →
    (rv g lead w.b.toNat).toNat = n → rpo g lead w.a.toNat = false → rpo g lead w.b.toNat = false →
    onesOf 16 (bits w.imm.toNat 15 0) ≠ [] → 1 ≤ n → n ≤ 4096 → off % 64 = 0 → localOk run.desc off (64 * n) = true →
    (onesOf 16 (bits w.imm.toNat 15 0)).findSome? (destFault s run.node.pod at_.engine w.imm.toNat) = none →
    exec (.xchg at_ w) s = .next
      (advanced .xchg at_ w run g g (sendBlock run at_.engine off n w.imm.toNat (onesOf 16 (bits w.imm.toNat 15 0)) s)) ∧
    (s.sramErr = [] → s.dramErr = [] → s.poison = [] →
      ∃ l, sendBlock run at_.engine off n w.imm.toNat (onesOf 16 (bits w.imm.toNat 15 0)) s = { s with flights := s.flights ++ l } ∧
        l.length = n * (onesOf 16 (bits w.imm.toNat 15 0)).length ∧ ∀ f, f ∈ l → f.node = run.node ∧ f.what = .exchange ∧ f.poisoned = false)) ∧
  (∀ (s s1 : State) (at_ : Issue) (w : EngFields) (run : EngineRun) (g : Group) (lead off n : Nat) (rest : List Nat) (bs : List (Byte × Bool))
      (p : PortWrite),
    readyGroup .sprt at_ w s = some (run, g) → activeLanes g = lead :: rest → (rv g lead w.a.toNat).toNat = off → bits w.imm.toNat 15 8 = n →
    rpo g lead w.a.toNat = false → rpo g lead w.b.toNat = false → rpo g lead w.c.toNat = false → n ≠ 0 →
    localOk run.desc off (64 * n) = true → readLocal at_.engine off (64 * n) s = (bs, s1) →
    p = { node := run.node, src := 6 + at_.engine / 64, sprt := true, stream := (rv g lead w.b.toNat).toNat, pos := (rv g lead w.c.toNat).toNat,
          layer := bits w.imm.toNat 7 0, value := w.imm.getLsbD 16, pieces := [(0, bs)] } →
    exec (.sprt at_ w) s = .next (advanced .sprt at_ w run g g { s1 with portq := s1.portq ++ [p] })) ∧
  (∀ (s : State) (i off : Nat) (f : Flight), flightAt s i = some f → f.off = some off →
    exec (.exchangeLand i) s = .next (landFlight f off { s with flights := s.flights.eraseIdx i })) ∧
  (∀ (s : State) (i : Nat) (p : PortWrite) (s1 : State), s.portq[i]? = some p → { s with portq := s.portq.eraseIdx i } = s1 →
    (∀ n, portCheck s1 p = .sink n → exec (.sproutWrite i) s = .next
      (modStream p.stream (fun e => { e with dropped := satAdd 0xFFFFFFFF e.dropped n }) s1)) ∧
    (∀ c, portCheck s1 p = .fault c → exec (.sproutWrite i) s = .next (faultNode p.node c s1)) ∧
    (∀ ws st n, portCheck s1 p = .write ws st n → ws.any (fun q => !reachable s1 p.src q.1) = true →
      exec (.sproutWrite i) s = .next (faultNode p.node csFENCED s1)) ∧
    (∀ ws st n, portCheck s1 p = .write ws st n → ws.any (fun q => !reachable s1 p.src q.1) = false → ∃ f, exec (.sproutWrite i) s = .next
        { countWindow p n s1 with flights := (countWindow p n s1).flights ++ [f] } ∧ f.sprout = true ∧ f.node = p.node ∧ f.writes = ws ∧
        f.engines = [st] ∧ f.chan = 15)) ∧
  (∀ (s : State) (i j : Nat) (f h : Flight), s.flights[i]? = some f → s.flights[j]? = some h → j < i → sameGranule h f = true →
    exec (.exchangeLand i) s = .next s ∧ exec (.sproutLand i) s = .next s) ∧
  (∀ (s : State) (i : Nat) (f : Flight), flightAt s i = some f → f.sprout = true →
    exec (.sproutLand i) s = .next (landSprout f { s with flights := s.flights.eraseIdx i }))

/-- R367, R371-R373, R375: FENCE_REQUEST of a unit it accepts posts FIRST, fences the unit (retires a DRAM core die, R367) and posts FINAL OK;
UNFENCE returns a listed unit to service, its memory holding no value; a part's own fence takes place where the part has its cause; a unit
already fenced stays as it is. -/
def Obligations.FencesRun : Prop :=
  (∀ (s : State) (sub : Submission) (u : UnitRef), Takes spFence (fun _ => true) sub s → decodeUnit (ent sub.entry 95 64) = some u →
    (∀ l, u ≠ .link l) → unitKnown s (some u) = true → checkCmd spFence false sub true true s = none →
    (fenceDenied s (fnHub sub.mbx.fn) u = false ∨ unitFenced s u = true →
      exec (.fenceRequest sub) s = .next (postFinal (tokIn s sub) stOK 0 0 (fenceDo u (postFirst (tokIn s sub) 0 (taken sub s))))) ∧
    (fenceDenied s (fnHub sub.mbx.fn) u = true → unitFenced s u = false → exec (.fenceRequest sub) s = .next (answers sub stNOT_PERMITTED 0 0 s id))) ∧
  (∀ (s : State) (sub : Submission) (u : UnitRef), Takes spUnfence (fun _ => true) sub s → decodeUnit (ent sub.entry 95 64) = some u →
    unitKnown s (some u) = true → checkCmd spUnfence false sub true true s = none →
    (unfenceDenied s u = true → exec (.unfence sub) s = .next (answers sub stNOT_PERMITTED 0 0 s id)) ∧
    (unfenceDenied s u = false → ∀ t, postFirst (tokIn s sub) 0 (taken sub s) = t → exec (.unfence sub) s =
      .next (postFinal (tokIn s sub) stOK 0 0 (if listed t u then returnUnit u t else t)))) ∧
  (∀ (s : State) (u : UnitRef) (reason : Nat), fenceCause s u reason = true →
    exec (.fenceDecided u reason) s = .next (fenceUnit u reason s) ∧ (unitFenced s u = true → exec (.fenceDecided u reason) s = .next s)) ∧
  (∀ (s : State) (d : Nat), (returnUnit (.matrixDie d) s).fences = s.fences.filter (fun f => f.1 ≠ .matrixDie d))

/-- R83-R86, R432, R433: FUSE_REPAIR of a fenced tile inside the window posts FIRST and starts BIST; when it ends, faults that the unblown
slots cannot cover leave the tile uncovered with FENCED; a cover is blown and the tile is REPAIRING until a second BIST says OK or FENCED
by whether every fault is skipped; a window left meanwhile blows nothing and answers TEMP_WINDOW; a logical row or column lies on the
physical one of its number among those that no slot names. -/
def Obligations.TileRepairRuns : Prop :=
  (∀ (s : State) (sub : Submission) (n : Nat), Takes spRepair (fun _ => true) sub s → decodeUnit (ent sub.entry 95 64) = some (.tile n) →
    checkCmd spRepair false sub true true s = none →
    (tileFenced s n = false → exec (.fuseRepair sub) s = .next (answers sub stNOT_PERMITTED 0 0 s id)) ∧
    (tileFenced s n = true → repairWindow s n = false → exec (.fuseRepair sub) s = .next (answers sub stTEMP_WINDOW 0 0 s id)) ∧
    (tileFenced s n = true → repairWindow s n = true → ∀ t, setTile n { getTile s n with busy := 2 } (taken sub s) = t →
      exec (.fuseRepair sub) s = .next (postFirst (tokIn s sub) 0 { t with cmds := s.cmds ++ [{ tok := tokIn s sub, work := .repair n false }] }))) ∧
  (∀ (s s1 : State) (n : Nat) (c : PendingCmd) (cells : List (Nat × Nat)) (bad : List Nat) (t : TileStat), s.cmds.find? (repairOf n) = some c →
    { s with cmds := s.cmds.erase c } = s1 → getTile s n = t →
    (c.work = .repair n true → exec (.repairComplete n cells bad) s = .next (repairEnds n c
      (if (bistRecord cells t).uncovered then stFENCED else stOK) (bistRecord cells t) s1)) ∧
    (c.work = .repair n false → repairCover t (leftFaults t cells) = none → exec (.repairComplete n cells bad) s = .next
      (repairEnds n c stFENCED (bistRecord cells t) s1)) ∧
    (c.work = .repair n false → ∀ cov, repairCover t (leftFaults t cells) = some cov →
      (leftFaults t cells ≠ [] → repairWindow s n = false → exec (.repairComplete n cells bad) s = .next
        (repairEnds n c stTEMP_WINDOW (bistRecord cells t) s1)) ∧
      (leftFaults t cells = [] ∨ repairWindow s n = true → ∀ t' idx, blowCover cov bad (bistRecord cells t) s.freeIdx = (t', idx) →
        exec (.repairComplete n cells bad) s = .next (setTile n { t' with busy := 3 } { s with
          freeIdx := idx, cmds := s.cmds.map (fun x => if x = c then { x with work := .repair n true } else x) })))) ∧
  (∀ (s : State) (n : Nat) (c : PendingCmd) (st : Status) (t : TileStat), getTile (repairEnds n c st t s) n = { t with busy := 0 } ∧
    (t.uncovered = true → listed (repairEnds n c st t s) (.tile n) = true)) ∧
  (∀ (t : TileStat) (i k : Nat),
    (physRow t i = some k → k < 130 ∧ ¬ some k ∈ t.rskip ∧ ((List.range k).filter (fun j => !t.rskip.contains (some j))).length = i) ∧
    (physCol t i = some k → k < 258 ∧ ¬ some k ∈ t.cskip ∧ ((List.range k).filter (fun j => !t.cskip.contains (some j))).length = i))

/-- R381-R385, R431: a heartbeat is noted on the paths it arrives by; 250 µs without one lose a path, and both lose contact, demoting a
follower; 200 in a row restore it; a hub that is lost, or whose rails a verified TAKEOVER turned off, goes OUT; a rail in soft start is
ON at a voltage of its range, or, low or overcurrent, latches, takes its die and posts REGULATOR_FAULT. -/
def Obligations.HubsAndRailsRun : Prop :=
  (∀ (s : State) (h : Nat) (flit wire : Bool), hubUp s h = true → hubUp s (1 - h) = true → hubRoute s h = true →
    exec (.hubHeartbeat h flit wire) s = .next (modHub (1 - h) (fun b =>
      { b with flitAt := if flit then now s else b.flitAt, wireAt := if wire then now s else b.wireAt,
               flitLost := b.flitLost && !flit, wireLost := b.wireLost && !wire,
               beats := if b.contact then 0 else if flit && wire then b.beats + 1 else 0 }) s)) ∧
  (∀ (s : State) (h : Nat) (b : Hub), hubUp s h = true → getHub s h = b →
    (b.flitAt + 250000 ≤ now s → b.wireLost = false → exec (.pathLost h false) s = .next (setHub h { b with flitLost := true } s)) ∧
    (b.wireAt + 250000 ≤ now s → b.flitLost = true → b.contact = true → exec (.pathLost h true) s = .next
      (setHub h { b with wireLost := true, contact := false, beats := 0, lead := if b.lead = .follower then .demoted else b.lead } s))) ∧
  (∀ (s : State), exec .contactRestored s = .next { s with hubA := contactBack s.hubA, hubB := contactBack s.hubB }) ∧
  (∀ (b : Hub), b.contact = false → b.lead ≠ .out → 200 ≤ b.beats → (contactBack b).contact = true ∧ (b.lead = .demoted → (contactBack b).lead = .follower)) ∧
  (∀ (s : State) (h : Nat), hubUp s h = true → exec (.hubLost h) s = .next (loseHub h 0x01 s)) ∧
  (∀ (s : State) (sub : Submission) (token : BitVec 4096), Takes spTakeover (fun _ => true) sub s → checkCmd spTakeover false sub true true s = none →
    leadHub s ≠ fnHub sub.mbx.fn → tokenOk s 1 (fnHub sub.mbx.fn) token = true →
    exec (.takeover sub token true) s = .next (answers sub stOK 0 0 s (loseHub (1 - fnHub sub.mbx.fn) 0x02)) ∧
    exec (.takeover sub token false) s = .next (answers sub stNOT_PERMITTED 0 0 s id)) ∧
  (∀ (s : State) (i mv : Nat), i < 46 →
    (getRail s i = .softStart → exec (.softStartDone i) s = .next (setVolt i (setRail i .on s)) ∧ exec (.softStartLow i mv) s = .next
      (postDevice 0x0D (unitCode (.rail i)) (0x01 + at_ 16 (mv % 2 ^ 16)) (fenceRail i 0x04 .latched s))) ∧
    (getRail s i = .softStart ∨ getRail s i = .on → exec (.overcurrent i mv) s = .next
      (postDevice 0x0D (unitCode (.rail i)) (0x02 + at_ 16 (mv % 2 ^ 16)) (fenceRail i 0x04 .latched s)))) ∧
  (∀ (s : State) (i : Nat), (railRange i).1 ≤ SMap.get 0 (setVolt i s).power.volts i ∧ SMap.get 0 (setVolt i s).power.volts i ≤ (railRange i).2)

/-- R410, R412, R414-R419, R423-R425, R428: THERMAL_CONFIG and POWER_LIMIT take effect unless they would lower the floor of a busy island
(refused with NOT_PERMITTED, FORCE apart); a sensor sample sets every die's maxima and, where a reading reaches its die's trip, trips; an
external sample, a power sample, a budget rise and a new margin plan do what their rules say. -/
def Obligations.ThermalCommandsRun : Prop :=
  (∀ (s : State) (sub : Submission), Takes spThermal (fun _ => true) sub s → checkCmd spThermal false sub (thermalFields sub.entry) true s = none →
    (ent sub.entry 79 72 ≤ s.thermal.inletMax ∨ lowersBusy s (capStep s.power.capW) (inletLevel (ent sub.entry 79 72)) = false →
      exec (.thermalConfig sub) s = .next (answers sub stOK 0 0 s (fun s => { s with thermal := thermalSet sub.entry s.thermal }))) ∧
    (s.thermal.inletMax < ent sub.entry 79 72 → lowersBusy s (capStep s.power.capW) (inletLevel (ent sub.entry 79 72)) = true →
      exec (.thermalConfig sub) s = .next (answers sub stNOT_PERMITTED 0 0 s id))) ∧
  (∀ (s : State) (sub : Submission) (w : Nat), ent sub.entry 79 64 = w → checkCmd spPower false sub (capOk w) true s = none →
    (Takes spPower (fun e => !entFlag e) sub s → s.power.capW ≤ w ∨ lowersBusy s (capStep w) (inletLevel s.thermal.inletMax) = false →
      exec (.powerLimit sub) s = .next (answers sub stOK 0 0 s (fun s => { s with power := { s.power with capW := w, forced := false } }))) ∧
    (Takes spPower (fun e => !entFlag e) sub s → w < s.power.capW → lowersBusy s (capStep w) (inletLevel s.thermal.inletMax) = true →
      exec (.powerLimit sub) s = .next (answers sub stNOT_PERMITTED 0 0 s id)) ∧
    (Takes spPower entFlag sub s → s.power.capW ≤ w → exec (.powerLimitForce sub) s =
      .next (answers sub stOK 0 0 s (fun s => { s with power := { s.power with capW := w, forced := true } }))) ∧
    (Takes spPower entFlag sub s → w < s.power.capW → exec (.powerLimitForce sub) s = .next (answers sub stOK 0 0 s
      (fun s => { forceCap w s with power := { (forceCap w s).power with forced := true } })))) ∧
  (∀ (s t : State) (rs : List (List Int)), readingsOk rs = true → powered s = true →
    { s with thermal := { s.thermal with dies := (rs.zipIdx).foldl (fun m q =>
      SMap.set {} m q.2 (sampleDie q.2 q.1 (SMap.get {} s.thermal.dies q.2))) s.thermal.dies } } = t →
    ((rs.zipIdx).any (fun q => q.1.any (fun x => decide (tripAt q.2 ≤ x))) = true →
      exec (.sensorSample rs) s = .next (railsOff { logBoth 1 t with thermal := { (logBoth 1 t).thermal with trip := true } })) ∧
    ((rs.zipIdx).any (fun q => q.1.any (fun x => decide (tripAt q.2 ≤ x))) = false →
      exec (.sensorSample rs) s = .next (govern (steadyNow ((List.range 22).foldl (fun s n => rateDie n s) t))))) ∧
  (∀ (s : State) (n : Nat) (d : ThmDie), n < 22 → SMap.get {} s.thermal.dies n = d → d.action = false → d.budget < 100 →
    exec (.budgetRise n) s = .next (putThm n { d with budget := min 100 (d.budget + 10) } s)) ∧
  (∀ (s : State) (ds ts : List (Option Int)), ds.length = 4 → ts.length = 2 → powered s = true →
    ∃ t, exec (.externalSample ds ts) s = .next t ∧ t.thermal.diode = ds.map extValue ∧ t.thermal.therm = ts.map extValue ∧
      t.thermal.dfault = ds.map (fun x => x.isNone) ∧ t.thermal.tfault = ts.map (fun x => x.isNone)) ∧
  (∀ (s : State) (w : Nat) (l : List Nat), powered s = true → (w :: s.power.samples).take 100 = l →
    exec (.powerSample w) s = .next (govern { s with power := { s.power with samples := l, powerW := min 0xFFFF (l.foldl (· + ·) 0 / l.length) } })) ∧
  (∀ (s : State) (fl : List (Nat × Nat)) (plan : List (Nat × Nat)), s.fw.stage = 8 → fl.all (floorOk s) = true →
    fl.foldl (fun m f => SMap.set (islandTarget (f.1 % 50)) m f.1 f.2) s.power.floors = plan →
    exec (.marginReplan fl) s = .next (settlePlan (recordBoth (.marginPlan (nextPlanVer s) plan)
      { s with power := { s.power with hours := s.power.hours + 168 } })))

/-- R434-R439, R443, R444, R449-R451: LIFECYCLE READ answers the fuses; SET_OWNER, ROTATE_OWNER and RETIRE commit their fuse word and post OK,
RETIRE then erasing; a committed word is programmed inside the window; DEBUG_UNLOCK posts FIRST and begins its sequence, which with a
verified token counts, erases and opens, and which ends FENCED once the hub that led it is OUT (the steps by the same row are the model's,
log entry 44); the DRBG is reseeded after 2^20 requests; the oldest deferred write that may be replayed is carried out. -/
def Obligations.SecurityCommandsRun : Prop :=
  (∀ (s : State) (sub : Submission), Takes spLifecycle (fun e => lcMode e = 0) sub s →
    checkCmd spLifecycle false sub (ent sub.entry 191 128 = 0) true s = none →
    exec (.lifecycleRead sub) s = .next (answers sub stOK (lifecycle s + at_ 8 s.sec.dbgCount + at_ 16 (ownerSlot s)) (rollback s) s id)) ∧
  (∀ (s : State) (sub : Submission) (hash : BitVec 384) (token : BitVec 4096), checkCmd spLifecycle false sub true true s = none →
    s.sec.words = [] → fuseWindow s = true →
    (Takes spLifecycle (fun e => lcMode e = 1) sub s → lifecycle s = 0 →
      exec (.setOwner sub hash) s = .next (answers sub stOK 0 0 s (fun s => { s with sec := { s.sec with words := [(0, hash)] } }))) ∧
    (Takes spLifecycle (fun e => lcMode e = 2) sub s → lifecycle s ≠ 2 → lifecycle s ≠ 3 → tokenOk s 5 (ownerSlot s) token = true → ownerSlot s < 3 →
      exec (.rotateOwner sub token) s =
        .next (answers sub stOK 0 0 s (fun s => { s with sec := { s.sec with words := [(0, tokenNewKey token)] } }))) ∧
    (Takes spLifecycle (fun e => lcMode e = 3) sub s → lifecycle s ≠ 2 → lifecycle s ≠ 3 → tokenOk s 4 0 token = true →
      ∃ t, answers sub stOK 0 0 s (fun s => { s with sec := { s.sec with words := [(1, 0)] } }) = t ∧
        exec (.retire sub token) s = .next (eraseAll { t with sec := { t.sec with retiring := true } }))) ∧
  (∀ (s : State) (sub : Submission) (token : BitVec 4096), Takes spDebug (fun _ => true) sub s → checkCmd spDebug false sub true true s = none →
    (lifecycle s ≠ 1 → exec (.debugUnlock sub token) s = .next (answers sub stNOT_PERMITTED 0 0 s id)) ∧
    (lifecycle s = 1 → fuseWindow s = false → exec (.debugUnlock sub token) s = .next (answers sub stTEMP_WINDOW 0 0 s id)) ∧
    (lifecycle s = 1 → fuseWindow s = true → exec (.debugUnlock sub token) s = .next (unlockAt
      { sub := sub, tok := tokIn s sub, lead := leadHub s, good := tokenOk s 3 s.sec.dbgCount token, phase := 0 } 0
      (postFirst (tokIn s sub) 0 (taken sub s))))) ∧
  (∀ (s : State) (sub : Submission) (token : BitVec 4096) (u : Unlock), unlockOf sub s = some u →
    (u.phase = 0 → u.good = false → exec (.debugUnlock sub token) s = .next (unlockEnd u stNOT_PERMITTED s)) ∧
    (u.phase = 0 → u.good = true → unlockOrphan u s = false → fuseWindow s = true → exec (.debugUnlock sub token) s =
      .next (unlockAt u 1 { s with sec := { s.sec with dbgCount := min 255 (s.sec.dbgCount + 1) } })) ∧
    (u.phase = 1 → exec (.debugUnlock sub token) s = .next (unlockAt u 2 (fencePods s))) ∧
    (u.phase = 2 → exec (.debugUnlock sub token) s = .next (unlockAt u 3 (zeroHusk s))) ∧
    (u.phase = 3 → exec (.debugUnlock sub token) s = .next (unlockAt u 4 (reinit s))) ∧
    (u.phase = 4 → unlockOrphan u s = false → exec (.debugUnlock sub token) s = .next (unlockAt u 5 (logBoth 4 s))) ∧
    (u.phase = 5 → unlockOrphan u s = false → s.fw.defer.any (fun d => d.kind = .log 4) = false →
      exec (.debugUnlock sub token) s = .next (unlockEnd u stOK { s with sec := { s.sec with debugOpen := true } })) ∧
    (4 ≤ u.phase → unlockOrphan u s = true → exec (.debugUnlock sub token) s = .next (unlockEnd u stFENCED s))) ∧
  (∀ (s : State) (u : Unlock) (st : Status), (unlockEnd u st s).sec.unlock = none ∧ (unlockEnd u st s).sec.debugOpen = s.sec.debugOpen) ∧
  (∀ (s : State) (w : Nat × BitVec 384), s.sec.words.find? (fun w => !wordQueued s w.1) = some w → fuseWindow s = true →
    exec .lifecycleFuseWord s = .next (programWord w s)) ∧
  (∀ (s : State), 2 ^ 20 ≤ s.sec.drbgReq → exec .drbgReseed s = .next { s with sec := { s.sec with drbgReq := 0 } }) ∧
  (∀ (s : State) (d : Deferred), s.fw.defer.find? (replayable s) = some d →
    exec .deferredReplay s = .next (settlePlan (settleWord d (applyWrite d.hub d.kind d.queuedAt
      { s with fw := { s.fw with defer := s.fw.defer.erase d } }))))

/-- R385, R394, R421, R434-R436, R456, R460, R462, R465, R468: a part reset keeps the fuses, the record stores, the deferred writes and device
time and puts every pod, stream, region, mailbox and the rest as after reset; VAUX3, VIN48, PWR_GOOD and RESET_N act through it. -/
def Obligations.SuppliesAndResetsRun : Prop :=
  (∀ (s : State), (partReset s).sec.owners = s.sec.owners ∧ (partReset s).sec.retireFuse = s.sec.retireFuse ∧
    (partReset s).sec.dbgCount = s.sec.dbgCount ∧ (partReset s).sec.rollA = s.sec.rollA ∧ (partReset s).sec.rollB = s.sec.rollB ∧
    (partReset s).fw.storeA = s.fw.storeA ∧ (partReset s).fw.storeB = s.fw.storeB ∧ (partReset s).fw.defer = s.fw.defer ∧
    (partReset s).clock.timeA = s.clock.timeA ∧ (partReset s).clock.timeB = s.clock.timeB ∧ (partReset s).jtag = s.jtag ∧
    (partReset s).pods = State.reset.pods ∧ (partReset s).streams = State.reset.streams ∧ (partReset s).regions = State.reset.regions ∧
    (partReset s).mboxes = State.reset.mboxes ∧ (partReset s).fences = State.reset.fences ∧ (partReset s).engines = State.reset.engines ∧
    (partReset s).fw.stage = 0) ∧
  (∀ (s : State) (sel : Nat), s.pins.vaux3 = false → ∃ t, aonLost (partReset s) = t ∧ t.clock.timeA = 0 ∧ t.clock.timeB = 0 ∧ t.fw.defer = [] ∧
    exec (.vaux3Rise sel) s = .next (setT0 (restartAcorns { t with pins := { t.pins with vaux3 := true }, mgmt := { addrSel := sel % 8 } }))) ∧
  (∀ (s : State), s.pins.vaux3 = true → ∃ t, aonLost (railsOff s) = t ∧
    exec .vaux3Loss s = .next { t with pins := { t.pins with vaux3 := false }, mgmt := { addrSel := t.mgmt.addrSel } }) ∧
  (∀ (s : State), s.pins.pwrGood = true → s.pins.vaux3 = true → s.pins.supply = false →
    (∃ t, railsOff (logBoth 2 s) = t ∧ exec .vin48Undervoltage s = .next { t with pins := { t.pins with supply := true } }) ∧
    (∃ t, railsOff (logBoth 3 s) = t ∧ exec .vin48Overvoltage s = .next { t with pins := { t.pins with supply := true } })) ∧
  (∀ (s : State) (lead : Bool), s.pins.pwrGood = false → s.pins.resetN = false →
    exec (.pwrGoodRise lead) s = .next (setT0 (partReset { s with pins := { s.pins with pwrGood := true, leadSel := lead } }))) ∧
  (∀ (s : State), s.pins.pwrGood = true → ∃ t, railsOff s = t ∧ exec .pwrGoodFall s =
    .next { t with pins := { t.pins with pwrGood := false, supply := false }, thermal := { t.thermal with trip := false } }) ∧
  (∀ (s : State), s.pins.resetN = false →
    exec .resetNAssert s = .next (restartAcorns (partReset { s with pins := { s.pins with resetN := true } }))) ∧
  (∀ (s : State) (lead : Bool), s.pins.resetN = true →
    exec (.resetNDeassert lead) s = .next (setT0 { s with pins := { s.pins with resetN := false, leadSel := lead } }))

/-- R333-R335, R344, R381, R398, R442-R444: a powered part whose t0 has come completes its boot stages in order, each with its effect, and is
READY after the eighth, PF 0 its owner; its rails start group by group, hubs, matrix dies, stacks, each group once the one before has
settled; 1,500 ms after t0 without READY the bank is marked failed and, where the other is valid, the
control complexes boot that one. -/
def Obligations.BootRuns : Prop :=
  (∀ (s : State) (products sums : List (Nat × Nat × Nat)), powered s = true → s.fw.t0 ≤ now s →
    (s.fw.stage = 0 → exec (.bootStage products sums) s = .next { s with fw := { s.fw with bank := (chooseBank s).getD 0, stage := 1 } }) ∧
    (s.fw.stage = 1 → exec (.bootStage products sums) s = .next (bootRails s)) ∧
    (s.fw.stage = 2 → railsSettled s = true → exec (.bootStage products sums) s = .next (bootFabric s)) ∧
    (s.fw.stage = 3 → exec (.bootStage products sums) s = .next { s with fw := { s.fw with stage := 4 } }) ∧
    (s.fw.stage = 4 → bankValid s s.fw.bank = true → exec (.bootStage products sums) s = .next (bootFirmware s)) ∧
    (s.fw.stage = 5 → exec (.bootStage products sums) s = .next { s with fw := { s.fw with stage := 6 } }) ∧
    (s.fw.stage = 6 → exec (.bootStage products sums) s = .next (setStage 7 ((List.range 256).foldl (bistTile (products ++ sums)) s))) ∧
    (s.fw.stage = 7 → exec (.bootStage products sums) s = .next (bootReady s))) ∧
  (∀ (s : State), railsSettled s = false → bootRails s = s) ∧
  (∀ (s t : State) (g : Nat), railsSettled s = true → s.fw.railGroups = g → bootRails s = t →
    t.fw.railGroups = g + 1 ∧ t.fw.stage = (if 2 ≤ g then 2 else 1) ∧
    (∀ i, i ∈ railGroup g → getRail s i = .off → getRail t i = .softStart) ∧ (∀ i, i ∉ railGroup g → getRail t i = getRail s i)) ∧
  (∀ (s : State), portFenced s 0 = false → (bootReady s).owner = some 0 ∧ (bootReady s).fw.stage = 8) ∧
  (∀ (s t : State) (b : Nat), powered s = true → s.fw.t0 + 1500000000 ≤ now s → 1 ≤ s.fw.stage → s.fw.stage < 8 → s.fw.fallback = false →
    s.fw.bank = b → recordBoth (.failedBank b) s = t →
    (bankValid t (1 - b) = true → exec .firmwareFallback s =
      .next { t with fw := { t.fw with bank := 1 - b, fallback := true, stage := min 4 t.fw.stage } }) ∧
    (bankValid t (1 - b) = false → exec .firmwareFallback s = .next { t with fw := { t.fw with stage := min 4 t.fw.stage } }))

/-- R336, R443, R461: the PLDM update goes from learning its components over the transfer, verification and application of the image to the
activation that names the new bank as preferred; a command in the wrong state is answered with its code and changes nothing (the states
and codes are the model's, log entry 36). -/
def Obligations.FirmwareUpdateRuns : Prop :=
  (∀ (s : State), s.pins.vaux3 = true →
    (s.fw.pldm = .idle → exec .requestUpdate s = .next (pldmOut ccOK []
      { s with fw := { s.fw with pldm := .learn, image := [], imageLen := 0, verified := false } })) ∧
    (s.fw.pldm ≠ .idle → exec .requestUpdate s = .next (pldmOut ccALREADY [] s)) ∧
    (s.fw.pldm = .learn → exec .passComponentTable s = .next (pldmOut ccOK [] { s with fw := { s.fw with pldm := .ready } })) ∧
    (∀ size, s.fw.pldm = .ready → 1 ≤ size → size ≤ 2 ^ 24 → exec (.updateComponent size) s = .next (pldmOut ccOK []
      { s with fw := { s.fw with pldm := .download, image := [], imageLen := size, verified := false } })) ∧
    (∀ bs, s.fw.pldm = .download → exec (.requestFirmwareData bs) s =
      .next { s with fw := { s.fw with image := (s.fw.image ++ bs).take s.fw.imageLen } }) ∧
    (s.fw.pldm = .download → s.fw.imageLen ≤ s.fw.image.length → exec .transferComplete s =
      .next (pldmOut ccOK [] (toPldm .verify (setBank (1 - s.fw.bank) (imageBank s.fw.image) s)))) ∧
    (s.fw.pldm = .verify → bankValid s (1 - s.fw.bank) = true → exec .verifyComplete s =
      .next (pldmOut ccOK [] { s with fw := { s.fw with pldm := .apply, verified := true } })) ∧
    (s.fw.pldm = .verify → bankValid s (1 - s.fw.bank) = false → exec .verifyComplete s =
      .next (pldmOut ccINVALID_DATA [] { s with fw := { s.fw with pldm := .ready } })) ∧
    (s.fw.pldm = .apply → exec .applyComplete s = .next (pldmOut ccOK [] { s with fw := { s.fw with pldm := .ready } })) ∧
    (s.fw.pldm = .ready → s.fw.verified = true → exec .activateFirmware s =
      .next (pldmOut ccOK [] (toPldm .idle (recordBoth (.preferredBank (1 - s.fw.bank)) s)))) ∧
    (s.fw.pldm = .ready → s.fw.verified = false → exec .activateFirmware s = .next (pldmOut ccINCOMPLETE [] s)) ∧
    (s.fw.pldm = .download ∨ s.fw.pldm = .verify ∨ s.fw.pldm = .apply → exec .cancelUpdateComponent s = .next (pldmOut ccOK []
      { s with fw := { s.fw with pldm := .ready, image := [], imageLen := 0, verified := false } })) ∧
    (s.fw.pldm ≠ .idle → exec .cancelUpdate s = .next (pldmOut ccOK []
      { s with fw := { s.fw with pldm := .idle, image := [], imageLen := 0, verified := false } })) ∧
    exec .getStatus s = .next (pldmOut ccOK (leBytes 1 (pldmCode s.fw.pldm)) s) ∧
    exec .queryDeviceIdentifiers s = .next (pldmOut ccOK (leBytes 8 Config.serial.toNat) s)) ∧
  (∀ (s : State) (c : Instr), s.pins.vaux3 = true → s.fw.pldm = .idle →
    c ∈ ([.passComponentTable, .updateComponent 1, .requestFirmwareData [], .transferComplete, .verifyComplete, .applyComplete,
          .activateFirmware, .cancelUpdateComponent, .cancelUpdate] : List Instr) →
    exec c s = .next (pldmOut ccNOT_IN_UPDATE [] s))

/-- R445, R450: the SPDM responder answers its twelve requests once the firmware runs and the negotiation has come that far, with at most
eight sessions; in DEBUG_OPEN it signs and measures nothing and answers Unspecified (the codes are the model's, log entry 35). -/
def Obligations.SpdmResponderRuns : Prop :=
  (∀ (s : State), 5 ≤ s.fw.stage →
    exec .getVersion s = .next (spdmOut 0x04 [0x13] { s with sec := { s.sec with spdm := 1 } }) ∧
    (1 ≤ s.sec.spdm → exec .getCapabilities s = .next (spdmOut 0x61 [] { s with sec := { s.sec with spdm := max 2 s.sec.spdm } }))) ∧
  (∀ (s : State) (algs : BitVec 32), 5 ≤ s.fw.stage → lifecycle s ≠ 2 → 2 ≤ s.sec.spdm → algs.extractLsb' 0 4 = 0xF#4 →
    exec (.negotiateAlgorithms algs) s = .next (spdmOut 0x63 [0x0F] { s with sec := { s.sec with spdm := 3 } })) ∧
  (∀ (s : State), 5 ≤ s.fw.stage → lifecycle s ≠ 2 → 3 ≤ s.sec.spdm →
    exec .getDigests s = .next (spdmOut 0x01 (chainDigest s) s) ∧
    (∀ slot off len, exec (.getCertificate slot off len) s =
      .next (if slot ≠ 0 ∨ (chain s).length ≤ off then spdmError seInvalidRequest s else spdmOut 0x02 (((chain s).drop off).take len) s)) ∧
    (∀ nonce, exec (.challenge nonce) s =
      .next (spdmOut 0x03 (chainDigest s ++ vecBytes 256 nonce ++ signed384 s (chainDigest s ++ vecBytes 256 nonce)) s)) ∧
    (∀ k nonce, 1 ≤ k → k ≤ 6 → exec (.getMeasurements k nonce) s =
      .next (spdmOut 0x60 (measurement s k ++ vecBytes 256 nonce ++ signed384 s (measurement s k ++ vecBytes 256 nonce)) s)) ∧
    (∀ pub, s.sec.sessions.length < 8 → ∃ t, exec (.keyExchange pub) s = .next t ∧ t.sec.nextSession = s.sec.nextSession + 1 ∧
      t.sec.sessions = s.sec.sessions ++ [{ id := s.sec.nextSession, st := 0, keys := 0 }] ∧
      t = { s with out := t.out, sec := { s.sec with nextSession := t.sec.nextSession, sessions := t.sec.sessions }, freeIdx := t.freeIdx }) ∧
    (∀ pub, 8 ≤ s.sec.sessions.length → exec (.keyExchange pub) s = .next (spdmError seSessionLimit s)) ∧
    (∀ x, x ∈ s.sec.sessions → x.st = 0 →
      exec (.finish x.id) s = .next (spdmOut 0x65 [] (modSession x.id (fun x => { x with st := 1 }) s))) ∧
    (∀ x, x ∈ s.sec.sessions → x.st = 1 →
      exec (.heartbeat x.id) s = .next (spdmOut 0x68 [] s) ∧
      exec (.keyUpdate x.id) s = .next (spdmOut 0x69 [] (modSession x.id (fun x => { x with keys := x.keys + 1 }) s)) ∧
      exec (.endSession x.id) s = .next (spdmOut 0x6C []
        { s with sec := { s.sec with sessions := s.sec.sessions.filter (fun y => y.id ≠ x.id) } }))) ∧
  (∀ (s : State) (c : Instr), 5 ≤ s.fw.stage → lifecycle s = 2 →
    c ∈ ([.negotiateAlgorithms 0xF, .getDigests, .getCertificate 0 0 1, .challenge 0, .getMeasurements 1 0, .keyExchange 0, .finish 0, .heartbeat 0,
          .keyUpdate 0, .endSession 0] : List Instr) → exec c s = .next (spdmError seUnspecified s))

/-- R459, R460: the management bus, its acorn supplied: an address is taken once and given back; the directed codes act and answer in I3C mode
alone; the register reads answer in either mode; command bytes above those of the 22 dies are not acknowledged. -/
def Obligations.ManagementBusRuns : Prop :=
  (∀ (s : State) (a : Nat), s.pins.vaux3 = true → s.mgmt.dyn = none →
    exec (.entdaa a) s = .next (busOut (pidBytes ++ [Config.i3cBcr, Config.i3cDcr]) { s with mgmt := { s.mgmt with dyn := some (a % 128) } }) ∧
    exec (.setdasa a) s = .next (busOut [] { s with mgmt := { s.mgmt with dyn := some (a % 128) } })) ∧
  (∀ (s : State) (a b : Nat) (mask : BitVec 8) (len : BitVec 16), s.pins.vaux3 = true → s.mgmt.dyn = some a →
    exec (.entdaa b) s = .next (emit .nack s) ∧ exec (.setdasa b) s = .next (emit .nack s) ∧
    exec .rstdaa s = .next { s with mgmt := { s.mgmt with dyn := none } } ∧
    exec (.enec mask) s = .next { s with mgmt := { s.mgmt with events := s.mgmt.events ||| mask } } ∧
    exec (.disec mask) s = .next { s with mgmt := { s.mgmt with events := s.mgmt.events &&& ~~~mask } } ∧
    exec .getpid s = .next (busOut pidBytes s) ∧ exec .getbcr s = .next (busOut [Config.i3cBcr] s) ∧ exec .getdcr s = .next (busOut [Config.i3cDcr] s) ∧
    (∃ x y, exec .getstatus s = .next (busOut [x, y] { s with freeIdx := s.freeIdx + 2 })) ∧
    exec (.setmwl len) s = .next { s with mgmt := { s.mgmt with mwl := len } } ∧ exec .getmwl s = .next (busOut (word16 s.mgmt.mwl) s) ∧
    exec (.setmrl len) s = .next { s with mgmt := { s.mgmt with mrl := len } } ∧ exec .getmrl s = .next (busOut (word16 s.mgmt.mrl) s)) ∧
  (∀ (s : State) (c : Instr), s.pins.vaux3 = true → s.mgmt.dyn = none →
    c ∈ ([.enec 1, .disec 1, .getpid, .getbcr, .getdcr, .getstatus, .setmwl 8, .getmwl, .setmrl 8, .getmrl] : List Instr) →
    exec c s = .next (emit .nack s)) ∧
  (∀ (s : State), s.pins.vaux3 = true →
    exec .mgmtReadPkgTj s = .next (busOut (leBytes 1 (wholeC (packageTj s))) s) ∧
    exec .mgmtReadStatus s = .next (busOut (leBytes 1 (statusByte s)) s) ∧
    exec .mgmtReadPower s = .next (busOut (leBytes 2 s.power.powerW) s) ∧
    exec .mgmtReadCap s = .next (busOut (leBytes 2 s.power.capW) s) ∧
    exec .mgmtReadLifecycle s = .next (busOut (leBytes 1 (lifecycle s)) s) ∧
    (∀ i, i < 22 → exec (.mgmtReadDieTj i) s = .next (busOut (leBytes 1 (wholeC (indexTj s i))) s)) ∧
    (∀ i, 22 ≤ i → exec (.mgmtReadDieTj i) s = .next (emit .nack s)))

/-- R450, R452, R453, R462: IDCODE shifts out 0x0A1600D5 in 32 bits; EXTEST samples the pins only while RESET_N is asserted and is otherwise,
like CLAMP, HIGHZ and BYPASS, the one bypass bit; SAMPLE/PRELOAD samples and loads the boundary register; INTERNAL_ACCESS is BYPASS
outside DEBUG_OPEN; TRST_N selects IDCODE (log entry 16). -/
def Obligations.JtagCommandsRun : Prop :=
  ∀ (s : State), s.pins.vaux3 = true → ∀ (ir : Nat → State), (∀ k, ir k = { s with jtag := { s.jtag with ir := k } }) →
    exec .idcode s = .next (emit (.jtag 0x0A1600D5 32) (ir 0x01)) ∧
    (s.pins.resetN = true → ∃ x, exec .extest s = .next (emit (.jtag x 84) { ir 0x00 with freeIdx := s.freeIdx + 84 })) ∧
    (s.pins.resetN = false → exec .extest s = .next (emit (.jtag 0 1) (ir 0x00))) ∧
    (∀ cells, ∃ x, exec (.samplePreload cells) s = .next (emit (.jtag x 84) { s with
      jtag := { s.jtag with ir := 0x02, boundary := cells }, freeIdx := s.freeIdx + 84 })) ∧
    exec .clamp s = .next (emit (.jtag 0 1) (ir 0x03)) ∧ exec .highz s = .next (emit (.jtag 0 1) (ir 0x04)) ∧
    (lifecycle s ≠ 2 → exec .internalAccess s = .next (emit (.jtag 0 1) (ir 0x20))) ∧
    (lifecycle s = 2 → exec .internalAccess s = .next (ir 0x20)) ∧
    exec .bypass s = .next (emit (.jtag 0 1) (ir 0xFF)) ∧ exec .trstNAssert s = .next (ir 0x01) ∧
    (s.pins.resetN = true → jtagDrive (ir 0x00) = 1 ∧ jtagDrive (ir 0x03) = 1 ∧ jtagDrive (ir 0x04) = 2) ∧
    (s.pins.resetN = false → ∀ k, k < 256 → jtagDrive (ir k) = 0)

/-- R394-R397: TIME_SET sets both hubs' counters to the count of its calendar fields and moves everything counted from device time; TIME_GET
answers with device time. -/
def Obligations.TimeCommandsRun : Prop :=
  (∀ (s : State) (sub : Submission), Takes spTimeSet (fun _ => true) sub s →
    checkCmd spTimeSet false sub (timeFields sub.entry) true s = none →
    exec (.timeSet sub) s = .next (answers sub stOK 0 0 s (setTime (timeValue sub.entry))) ∧
    (setTime (timeValue sub.entry) (taken sub s)).clock.timeA = timeValue sub.entry ∧
    (setTime (timeValue sub.entry) (taken sub s)).clock.timeB = timeValue sub.entry) ∧
  (∀ (s : State) (sub : Submission), Takes spTimeGet (fun _ => true) sub s → checkCmd spTimeGet false sub true true s = none →
    exec (.timeGet sub) s = .next (answers sub stOK (now s) 0 s id))

/-- R402, R403: when the window of frame j closes and the active reference stays, each reference is judged and the next frame edge is placed
at B_j + F + φ, with φ the phase of the active reference held within F/100 either way, 0 for the internal timer. R398, R402, R407, R404:
the frame edge starts STEP_OUT and counts j; STEP_OUT ends 1 µs later; a STEP_SYNC transition after 1 µs at the other level is an edge of
reference 0, unless it is disabled or ignored; STEP_SYNC held at the edge level for more than 4 F is STUCK, and 1 µs at the other level
ends that. -/
def Obligations.FrameEdgesRun : Prop :=
  (-- the FrameEdgePlaced clauses
  ∀ (s : State) (c : Clock) (w : Nat), s.clock = c → halfWindow s = w → c.running = true → c.judged = false → c.bj + w ≤ now s →
    bestRef { c with ref0 := judgeRef ((edgesIn w c.bj c.ref0.edges).length = 1) c.ref0,
                     ref1 := judgeRef ((edgesIn w c.bj c.ref1.edges).length = 1) c.ref1 } = c.active →
    ∃ t, exec .frameWindowClose s = .next t ∧ t = { s with clock := t.clock } ∧ t.clock.judged = true ∧ t.clock.active = c.active ∧
      t.clock.ref0 = judgeRef ((edgesIn w c.bj c.ref0.edges).length = 1) c.ref0 ∧
      t.clock.ref1 = judgeRef ((edgesIn w c.bj c.ref1.edges).length = 1) c.ref1 ∧
      (c.active = 2 → t.clock.next = c.bj + c.f ∧ t.clock.pull = 0) ∧
      (∀ e, c.active = 0 → edgesIn w c.bj c.ref0.edges = [e] →
        t.clock.pull = max (-((c.f / 100 : Nat) : Int)) (min ((c.f / 100 : Nat) : Int) ((e : Int) - c.bj)) ∧
        t.clock.next = (((c.bj + c.f : Nat) : Int) + t.clock.pull).toNat)) ∧
  (-- the FrameEventsRun clauses
  (∀ (s : State), s.clock.running = true → s.clock.judged = true → s.clock.next ≤ now s → s.clock.devPend = none →
    ∃ t, exec .frameEdge s = .next t ∧ t = { s with clock := t.clock, pods := t.pods } ∧ t.clock.bj = s.clock.next ∧
      t.clock.j = s.clock.j + 1 ∧ t.clock.stepOut = true ∧ t.clock.judged = false ∧
      t.pods = s.pods.map (fun q => (q.1, edgePod s.clock.next q.2))) ∧
  (∀ (s : State), s.clock.stepOut = true → s.clock.bj + 1000 ≤ now s →
    exec .stepOutEnd s = .next { s with clock := { s.clock with stepOut := false } }) ∧
  (∀ (s : State) (l : Bool), s.clock.level ≠ l → s.clock.levelAt + 1000 ≤ now s → l = edgeLevel s.clock → s.clock.ignore = false →
    s.clock.useSync = true → s.clock.jumpPend = false →
    exec (.stepSyncEdge l) s = .next
      { s with clock := { s.clock with level := l, levelAt := now s, prevAt := s.clock.levelAt, ref0 := { s.clock.ref0 with edges := s.clock.ref0.edges ++ [now s] } } }) ∧
  (∀ (s : State), s.clock.level = edgeLevel s.clock → s.clock.levelAt + 4 * s.clock.f < now s → s.clock.ref0.state = .unqualified →
    s.clock.active = 2 → s.clock.ref1.state = .disabled →
    exec .syncStuck s = .next (postDevice 0x07 0 0 { s with clock := { s.clock with ref0 := { state := .stuck } } })) ∧
  (∀ (s : State), s.clock.level ≠ edgeLevel s.clock → s.clock.levelAt + 1000 ≤ now s → s.clock.ref0.state = .stuck →
    exec .stepSyncUnstuck s = .next { s with clock := { s.clock with ignore := false, ref0 := {} } }))

/-- R390, R399-R401: SYNC_CONFIG in each mode, and the qualification of a port's REFCLK. -/
def Obligations.SyncCommandsRun : Prop :=
  (∀ (s : State) (sub : Submission) (e : BitVec 512), sub.entry = e → Takes spSync (fun e => syncMode e = 0 || syncMode e = 3) sub s →
    checkCmd spSync false sub (syncMode e = 0 && noPodFields e && ent e 255 192 = 0 && 1000 ≤ ent e 99 80 && ent e 99 80 ≤ 1000000
      && !entPodV e) true s = none →
    isPF sub.mbx.fn = true → deviceBlocked s (1000 * ent e 99 80) = false →
    exec (.syncConfigDevice sub) s = .next (answers sub stOK 0 0 s (fun s =>
      { s with clock := { s.clock with devPend := some (1000 * ent e 99 80, bit e.toNat 66, bit e.toNat 67, bit e.toNat 68) } }))) ∧
  (∀ (s : State) (sub : Submission) (e : BitVec 512) (p : Nat), sub.entry = e → Takes spSync (fun e => syncMode e = 1) sub s →
    checkCmd spSync false sub (syncPodFields s e && (entPodV e || !isPF sub.mbx.fn)) true s = none → cmdPod sub = some p →
    holdsStep s p = false →
    exec (.syncConfigPod sub) s = .next (answers sub stOK 0 0 s
      (modPod p (fun v => { v with syncPend := some (bit e.toNat 69, ent e 113 104, ent e 147 128) })))) ∧
  (∀ (s : State) (sub : Submission) (e : BitVec 512), sub.entry = e → Takes spSync (fun e => syncMode e = 2) sub s →
    checkCmd spSync false sub (noPodFields e && noDeviceFields e && !entPodV e) true s = none → isPF sub.mbx.fn = true →
    s.clock.useHost = true → s.clock.bj ≤ ent e 255 192 + halfWindow s → s.clock.judged = false →
    exec (.syncConfigStamp sub) s = .next (answers sub stOK 0 0 s (fun s =>
      { s with clock := { s.clock with ref1 := { s.clock.ref1 with edges := s.clock.ref1.edges ++ [ent e 255 192] } } }))) ∧
  (∀ (s : State) (p : Nat), p < 4 → exec (.refclkQualified p) s = .next (setPort p { getPort s p with refclk := true } s)) ∧
  (∀ (s : State) (p : Nat), p < 4 → exec (.refclkLost p) s = .next (setPort p { getPort s p with refclk := false } s))
end

