-- ==== Sys2Proof/Laws/Sparse.lean ====
section
/-! SUPPORT. Sparse tables: what a read finds after a write, and the rising order of the keys. -/

namespace Sys2Proof

variable {α : Type}

@[simp] theorem SMap.find_nil (k : Nat) : SMap.find ([] : SMap α) k = none := rfl

@[simp] theorem SMap.get_nil (d : α) (k : Nat) : SMap.get d [] k = d := rfl

@[simp] theorem SMap.find_put_same (m : SMap α) (k : Nat) (v : α) : SMap.find (SMap.put m k v) k = some v := by
  induction m with
  | nil => simp [SMap.put, SMap.find]
  | cons p r ih =>
    obtain ⟨j, w⟩ := p
    simp only [SMap.put]
    split
    · simp [SMap.find]
    · split
      · simp [SMap.find]
      · have h : j ≠ k := by omega
        simp [SMap.find, h, ih]

theorem SMap.find_put_other (m : SMap α) {k j : Nat} (v : α) (h : j ≠ k) : SMap.find (SMap.put m k v) j = SMap.find m j := by
  induction m with
  | nil => simp [SMap.put, SMap.find, Ne.symm h]
  | cons p r ih =>
    obtain ⟨i, w⟩ := p
    simp only [SMap.put]
    split
    · simp [SMap.find, Ne.symm h]
    · split
      · subst i; simp [SMap.find, Ne.symm h]
      · simp [SMap.find, ih]

@[simp] theorem SMap.find_del_same (m : SMap α) (k : Nat) : SMap.find (SMap.del m k) k = none := by
  induction m with
  | nil => rfl
  | cons p r ih =>
    obtain ⟨j, w⟩ := p
    simp only [SMap.del]
    split
    · exact ih
    · rename_i h; simp [SMap.find, h, ih]

theorem SMap.find_del_other (m : SMap α) {k j : Nat} (h : j ≠ k) : SMap.find (SMap.del m k) j = SMap.find m j := by
  induction m with
  | nil => rfl
  | cons p r ih =>
    obtain ⟨i, w⟩ := p
    simp only [SMap.del]
    split
    · subst i; simp [SMap.find, Ne.symm h, ih]
    · simp [SMap.find, ih]

/-- Reading a key just written gives the value written. -/
@[simp] theorem SMap.get_set_same [DecidableEq α] (d : α) (m : SMap α) (k : Nat) (v : α) :
    SMap.get d (SMap.set d m k v) k = v := by
  unfold SMap.get SMap.set
  split
  · rename_i h; simp [h]
  · simp

/-- A write leaves every other key alone. -/
theorem SMap.get_set_other [DecidableEq α] (d : α) (m : SMap α) {k j : Nat} (v : α) (h : j ≠ k) :
    SMap.get d (SMap.set d m k v) j = SMap.get d m j := by
  unfold SMap.get SMap.set
  split
  · rw [SMap.find_del_other m h]
  · rw [SMap.find_put_other m v h]

/-- The first key of a table, above a bound. -/
def SMap.above (b : Nat) (m : SMap α) : Prop := ∀ p ∈ m.head?, b < p.1

theorem SMap.rising_cons (p : Nat × α) (r : SMap α) : SMap.rising (p :: r) = true ↔ SMap.above p.1 r ∧ SMap.rising r = true := by
  obtain ⟨j, w⟩ := p
  cases r with
  | nil => simp [SMap.rising, SMap.above]
  | cons q r => simp [SMap.rising, SMap.above]

theorem SMap.above_put {b : Nat} {m : SMap α} {k : Nat} (v : α) (hm : SMap.above b m) (hk : b < k) :
    SMap.above b (SMap.put m k v) := by
  cases m with
  | nil => simpa [SMap.put, SMap.above] using hk
  | cons p r =>
    simp only [SMap.put]
    split
    · simpa [SMap.above] using hk
    · split
      · simpa [SMap.above] using hk
      · simpa [SMap.above] using hm

theorem SMap.rising_put {m : SMap α} (k : Nat) (v : α) (h : SMap.rising m = true) : SMap.rising (SMap.put m k v) = true := by
  induction m with
  | nil => rfl
  | cons p r ih =>
    obtain ⟨j, w⟩ := p
    obtain ⟨ha, hr⟩ := (SMap.rising_cons _ _).mp h
    simp only [SMap.put]
    split
    · rename_i hk; exact (SMap.rising_cons _ _).mpr ⟨by simpa [SMap.above] using hk, h⟩
    · split
      · rename_i hk; subst hk; exact (SMap.rising_cons _ _).mpr ⟨ha, hr⟩
      · exact (SMap.rising_cons _ _).mpr ⟨SMap.above_put v ha (by omega), ih hr⟩

theorem SMap.above_filter {b : Nat} (f : Nat × α → Bool) {m : SMap α} (hm : SMap.above b m) (hr : SMap.rising m = true) :
    SMap.above b (m.filter f) := by
  induction m with
  | nil => exact hm
  | cons p r ih =>
    obtain ⟨ha, hr'⟩ := (SMap.rising_cons _ _).mp hr
    have hb : b < p.1 := hm p (by simp)
    by_cases hf : f p = true
    · rw [List.filter_cons_of_pos hf]; simpa [SMap.above] using hb
    · rw [List.filter_cons_of_neg hf]
      exact ih (fun q hq => Nat.lt_trans hb (ha q hq)) hr'

theorem SMap.rising_filter (f : Nat × α → Bool) {m : SMap α} (h : SMap.rising m = true) : SMap.rising (m.filter f) = true := by
  induction m with
  | nil => rfl
  | cons p r ih =>
    obtain ⟨ha, hr⟩ := (SMap.rising_cons _ _).mp h
    by_cases hf : f p = true
    · rw [List.filter_cons_of_pos hf]
      exact (SMap.rising_cons _ _).mpr ⟨SMap.above_filter f ha hr, ih hr⟩
    · rw [List.filter_cons_of_neg hf]; exact ih hr

theorem SMap.del_eq_filter (m : SMap α) (k : Nat) : SMap.del m k = m.filter (fun p => !decide (p.1 = k)) := by
  induction m with
  | nil => rfl
  | cons p r ih =>
    obtain ⟨j, w⟩ := p
    simp only [SMap.del]
    split
    · rename_i h; simp [h, ih]
    · rename_i h; simp [h, ih]

theorem SMap.rising_del {m : SMap α} (k : Nat) (h : SMap.rising m = true) : SMap.rising (SMap.del m k) = true := by
  rw [SMap.del_eq_filter]; exact SMap.rising_filter _ h

theorem SMap.rising_set [DecidableEq α] (d : α) {m : SMap α} (k : Nat) (v : α) (h : SMap.rising m = true) :
    SMap.rising (SMap.set d m k v) = true := by
  unfold SMap.set
  split
  · exact SMap.rising_del k h
  · exact SMap.rising_put k v h

end Sys2Proof
end

