-- ==== Sys2Proof/Laws/State.lean ====
section
/-! SUPPORT. What each write of one table of the state leaves: one lemma for each other field. -/

namespace Sys2Proof.Machine

open Sys2Proof

section
variable (p : Nat) (v : Pod) (s : State)
@[simp] theorem setPod_pending : (setPod p v s).pending = s.pending := rfl
@[simp] theorem setPod_mem : (setPod p v s).mem = s.mem := rfl
@[simp] theorem setPod_zeroed : (setPod p v s).zeroed = s.zeroed := rfl
@[simp] theorem setPod_poison : (setPod p v s).poison = s.poison := rfl
@[simp] theorem setPod_dramErr : (setPod p v s).dramErr = s.dramErr := rfl
@[simp] theorem setPod_sramErr : (setPod p v s).sramErr = s.sramErr := rfl
@[simp] theorem setPod_fabric : (setPod p v s).fabric = s.fabric := rfl
@[simp] theorem setPod_mxFmt : (setPod p v s).mxFmt = s.mxFmt := rfl
@[simp] theorem setPod_stkFmt : (setPod p v s).stkFmt = s.stkFmt := rfl
@[simp] theorem setPod_tiles : (setPod p v s).tiles = s.tiles := rfl
@[simp] theorem setPod_tileRuns : (setPod p v s).tileRuns = s.tileRuns := rfl
@[simp] theorem setPod_engines : (setPod p v s).engines = s.engines := rfl
@[simp] theorem setPod_flights : (setPod p v s).flights = s.flights := rfl
@[simp] theorem setPod_portq : (setPod p v s).portq = s.portq := rfl
@[simp] theorem setPod_graphs : (setPod p v s).graphs = s.graphs := rfl
@[simp] theorem setPod_nextGraph : (setPod p v s).nextGraph = s.nextGraph := rfl
@[simp] theorem setPod_insts : (setPod p v s).insts = s.insts := rfl
@[simp] theorem setPod_regions : (setPod p v s).regions = s.regions := rfl
@[simp] theorem setPod_mirrors : (setPod p v s).mirrors = s.mirrors := rfl
@[simp] theorem setPod_redirects : (setPod p v s).redirects = s.redirects := rfl
@[simp] theorem setPod_streams : (setPod p v s).streams = s.streams := rfl
@[simp] theorem setPod_closeSeq : (setPod p v s).closeSeq = s.closeSeq := rfl
@[simp] theorem setPod_sprout : (setPod p v s).sprout = s.sprout := rfl
@[simp] theorem setPod_pwu : (setPod p v s).pwu = s.pwu := rfl
@[simp] theorem setPod_kvDropped : (setPod p v s).kvDropped = s.kvDropped := rfl
@[simp] theorem setPod_land : (setPod p v s).land = s.land := rfl
@[simp] theorem setPod_aper : (setPod p v s).aper = s.aper := rfl
@[simp] theorem setPod_windows : (setPod p v s).windows = s.windows := rfl
@[simp] theorem setPod_partners : (setPod p v s).partners = s.partners := rfl
@[simp] theorem setPod_mboxes : (setPod p v s).mboxes = s.mboxes := rfl
@[simp] theorem setPod_funcs : (setPod p v s).funcs = s.funcs := rfl
@[simp] theorem setPod_ports : (setPod p v s).ports = s.ports := rfl
@[simp] theorem setPod_owner : (setPod p v s).owner = s.owner := rfl
@[simp] theorem setPod_offer : (setPod p v s).offer = s.offer := rfl
@[simp] theorem setPod_acked : (setPod p v s).acked = s.acked := rfl
@[simp] theorem setPod_cmds : (setPod p v s).cmds = s.cmds := rfl
@[simp] theorem setPod_eccCfg : (setPod p v s).eccCfg = s.eccCfg := rfl
@[simp] theorem setPod_eccWritten : (setPod p v s).eccWritten = s.eccWritten := rfl
@[simp] theorem setPod_leakAt : (setPod p v s).leakAt = s.leakAt := rfl
@[simp] theorem setPod_ecc : (setPod p v s).ecc = s.ecc := rfl
@[simp] theorem setPod_dies : (setPod p v s).dies = s.dies := rfl
@[simp] theorem setPod_fences : (setPod p v s).fences = s.fences := rfl
@[simp] theorem setPod_hubA : (setPod p v s).hubA = s.hubA := rfl
@[simp] theorem setPod_hubB : (setPod p v s).hubB = s.hubB := rfl
@[simp] theorem setPod_rails : (setPod p v s).rails = s.rails := rfl
@[simp] theorem setPod_clock : (setPod p v s).clock = s.clock := rfl
@[simp] theorem setPod_thermal : (setPod p v s).thermal = s.thermal := rfl
@[simp] theorem setPod_power : (setPod p v s).power = s.power := rfl
@[simp] theorem setPod_sec : (setPod p v s).sec = s.sec := rfl
@[simp] theorem setPod_fw : (setPod p v s).fw = s.fw := rfl
@[simp] theorem setPod_mgmt : (setPod p v s).mgmt = s.mgmt := rfl
@[simp] theorem setPod_jtag : (setPod p v s).jtag = s.jtag := rfl
@[simp] theorem setPod_pins : (setPod p v s).pins = s.pins := rfl
@[simp] theorem setPod_out : (setPod p v s).out = s.out := rfl
@[simp] theorem setPod_freeIdx : (setPod p v s).freeIdx = s.freeIdx := rfl
end

section
variable (k : Nat) (v : Stream) (s : State)
@[simp] theorem setStream_pending : (setStream k v s).pending = s.pending := rfl
@[simp] theorem setStream_mem : (setStream k v s).mem = s.mem := rfl
@[simp] theorem setStream_zeroed : (setStream k v s).zeroed = s.zeroed := rfl
@[simp] theorem setStream_poison : (setStream k v s).poison = s.poison := rfl
@[simp] theorem setStream_dramErr : (setStream k v s).dramErr = s.dramErr := rfl
@[simp] theorem setStream_sramErr : (setStream k v s).sramErr = s.sramErr := rfl
@[simp] theorem setStream_fabric : (setStream k v s).fabric = s.fabric := rfl
@[simp] theorem setStream_mxFmt : (setStream k v s).mxFmt = s.mxFmt := rfl
@[simp] theorem setStream_stkFmt : (setStream k v s).stkFmt = s.stkFmt := rfl
@[simp] theorem setStream_tiles : (setStream k v s).tiles = s.tiles := rfl
@[simp] theorem setStream_tileRuns : (setStream k v s).tileRuns = s.tileRuns := rfl
@[simp] theorem setStream_engines : (setStream k v s).engines = s.engines := rfl
@[simp] theorem setStream_flights : (setStream k v s).flights = s.flights := rfl
@[simp] theorem setStream_portq : (setStream k v s).portq = s.portq := rfl
@[simp] theorem setStream_pods : (setStream k v s).pods = s.pods := rfl
@[simp] theorem setStream_graphs : (setStream k v s).graphs = s.graphs := rfl
@[simp] theorem setStream_nextGraph : (setStream k v s).nextGraph = s.nextGraph := rfl
@[simp] theorem setStream_insts : (setStream k v s).insts = s.insts := rfl
@[simp] theorem setStream_regions : (setStream k v s).regions = s.regions := rfl
@[simp] theorem setStream_mirrors : (setStream k v s).mirrors = s.mirrors := rfl
@[simp] theorem setStream_redirects : (setStream k v s).redirects = s.redirects := rfl
@[simp] theorem setStream_closeSeq : (setStream k v s).closeSeq = s.closeSeq := rfl
@[simp] theorem setStream_sprout : (setStream k v s).sprout = s.sprout := rfl
@[simp] theorem setStream_pwu : (setStream k v s).pwu = s.pwu := rfl
@[simp] theorem setStream_kvDropped : (setStream k v s).kvDropped = s.kvDropped := rfl
@[simp] theorem setStream_land : (setStream k v s).land = s.land := rfl
@[simp] theorem setStream_aper : (setStream k v s).aper = s.aper := rfl
@[simp] theorem setStream_windows : (setStream k v s).windows = s.windows := rfl
@[simp] theorem setStream_partners : (setStream k v s).partners = s.partners := rfl
@[simp] theorem setStream_mboxes : (setStream k v s).mboxes = s.mboxes := rfl
@[simp] theorem setStream_funcs : (setStream k v s).funcs = s.funcs := rfl
@[simp] theorem setStream_ports : (setStream k v s).ports = s.ports := rfl
@[simp] theorem setStream_owner : (setStream k v s).owner = s.owner := rfl
@[simp] theorem setStream_offer : (setStream k v s).offer = s.offer := rfl
@[simp] theorem setStream_acked : (setStream k v s).acked = s.acked := rfl
@[simp] theorem setStream_cmds : (setStream k v s).cmds = s.cmds := rfl
@[simp] theorem setStream_eccCfg : (setStream k v s).eccCfg = s.eccCfg := rfl
@[simp] theorem setStream_eccWritten : (setStream k v s).eccWritten = s.eccWritten := rfl
@[simp] theorem setStream_leakAt : (setStream k v s).leakAt = s.leakAt := rfl
@[simp] theorem setStream_ecc : (setStream k v s).ecc = s.ecc := rfl
@[simp] theorem setStream_dies : (setStream k v s).dies = s.dies := rfl
@[simp] theorem setStream_fences : (setStream k v s).fences = s.fences := rfl
@[simp] theorem setStream_hubA : (setStream k v s).hubA = s.hubA := rfl
@[simp] theorem setStream_hubB : (setStream k v s).hubB = s.hubB := rfl
@[simp] theorem setStream_rails : (setStream k v s).rails = s.rails := rfl
@[simp] theorem setStream_clock : (setStream k v s).clock = s.clock := rfl
@[simp] theorem setStream_thermal : (setStream k v s).thermal = s.thermal := rfl
@[simp] theorem setStream_power : (setStream k v s).power = s.power := rfl
@[simp] theorem setStream_sec : (setStream k v s).sec = s.sec := rfl
@[simp] theorem setStream_fw : (setStream k v s).fw = s.fw := rfl
@[simp] theorem setStream_mgmt : (setStream k v s).mgmt = s.mgmt := rfl
@[simp] theorem setStream_jtag : (setStream k v s).jtag = s.jtag := rfl
@[simp] theorem setStream_pins : (setStream k v s).pins = s.pins := rfl
@[simp] theorem setStream_out : (setStream k v s).out = s.out := rfl
@[simp] theorem setStream_freeIdx : (setStream k v s).freeIdx = s.freeIdx := rfl
end

section
variable (k : Nat) (v : Option Region) (s : State)
@[simp] theorem setRegion_pending : (setRegion k v s).pending = s.pending := rfl
@[simp] theorem setRegion_mem : (setRegion k v s).mem = s.mem := rfl
@[simp] theorem setRegion_zeroed : (setRegion k v s).zeroed = s.zeroed := rfl
@[simp] theorem setRegion_poison : (setRegion k v s).poison = s.poison := rfl
@[simp] theorem setRegion_dramErr : (setRegion k v s).dramErr = s.dramErr := rfl
@[simp] theorem setRegion_sramErr : (setRegion k v s).sramErr = s.sramErr := rfl
@[simp] theorem setRegion_fabric : (setRegion k v s).fabric = s.fabric := rfl
@[simp] theorem setRegion_mxFmt : (setRegion k v s).mxFmt = s.mxFmt := rfl
@[simp] theorem setRegion_stkFmt : (setRegion k v s).stkFmt = s.stkFmt := rfl
@[simp] theorem setRegion_tiles : (setRegion k v s).tiles = s.tiles := rfl
@[simp] theorem setRegion_tileRuns : (setRegion k v s).tileRuns = s.tileRuns := rfl
@[simp] theorem setRegion_engines : (setRegion k v s).engines = s.engines := rfl
@[simp] theorem setRegion_flights : (setRegion k v s).flights = s.flights := rfl
@[simp] theorem setRegion_portq : (setRegion k v s).portq = s.portq := rfl
@[simp] theorem setRegion_pods : (setRegion k v s).pods = s.pods := rfl
@[simp] theorem setRegion_graphs : (setRegion k v s).graphs = s.graphs := rfl
@[simp] theorem setRegion_nextGraph : (setRegion k v s).nextGraph = s.nextGraph := rfl
@[simp] theorem setRegion_insts : (setRegion k v s).insts = s.insts := rfl
@[simp] theorem setRegion_mirrors : (setRegion k v s).mirrors = s.mirrors := rfl
@[simp] theorem setRegion_redirects : (setRegion k v s).redirects = s.redirects := rfl
@[simp] theorem setRegion_streams : (setRegion k v s).streams = s.streams := rfl
@[simp] theorem setRegion_closeSeq : (setRegion k v s).closeSeq = s.closeSeq := rfl
@[simp] theorem setRegion_sprout : (setRegion k v s).sprout = s.sprout := rfl
@[simp] theorem setRegion_pwu : (setRegion k v s).pwu = s.pwu := rfl
@[simp] theorem setRegion_kvDropped : (setRegion k v s).kvDropped = s.kvDropped := rfl
@[simp] theorem setRegion_land : (setRegion k v s).land = s.land := rfl
@[simp] theorem setRegion_aper : (setRegion k v s).aper = s.aper := rfl
@[simp] theorem setRegion_windows : (setRegion k v s).windows = s.windows := rfl
@[simp] theorem setRegion_partners : (setRegion k v s).partners = s.partners := rfl
@[simp] theorem setRegion_mboxes : (setRegion k v s).mboxes = s.mboxes := rfl
@[simp] theorem setRegion_funcs : (setRegion k v s).funcs = s.funcs := rfl
@[simp] theorem setRegion_ports : (setRegion k v s).ports = s.ports := rfl
@[simp] theorem setRegion_owner : (setRegion k v s).owner = s.owner := rfl
@[simp] theorem setRegion_offer : (setRegion k v s).offer = s.offer := rfl
@[simp] theorem setRegion_acked : (setRegion k v s).acked = s.acked := rfl
@[simp] theorem setRegion_cmds : (setRegion k v s).cmds = s.cmds := rfl
@[simp] theorem setRegion_eccCfg : (setRegion k v s).eccCfg = s.eccCfg := rfl
@[simp] theorem setRegion_eccWritten : (setRegion k v s).eccWritten = s.eccWritten := rfl
@[simp] theorem setRegion_leakAt : (setRegion k v s).leakAt = s.leakAt := rfl
@[simp] theorem setRegion_ecc : (setRegion k v s).ecc = s.ecc := rfl
@[simp] theorem setRegion_dies : (setRegion k v s).dies = s.dies := rfl
@[simp] theorem setRegion_fences : (setRegion k v s).fences = s.fences := rfl
@[simp] theorem setRegion_hubA : (setRegion k v s).hubA = s.hubA := rfl
@[simp] theorem setRegion_hubB : (setRegion k v s).hubB = s.hubB := rfl
@[simp] theorem setRegion_rails : (setRegion k v s).rails = s.rails := rfl
@[simp] theorem setRegion_clock : (setRegion k v s).clock = s.clock := rfl
@[simp] theorem setRegion_thermal : (setRegion k v s).thermal = s.thermal := rfl
@[simp] theorem setRegion_power : (setRegion k v s).power = s.power := rfl
@[simp] theorem setRegion_sec : (setRegion k v s).sec = s.sec := rfl
@[simp] theorem setRegion_fw : (setRegion k v s).fw = s.fw := rfl
@[simp] theorem setRegion_mgmt : (setRegion k v s).mgmt = s.mgmt := rfl
@[simp] theorem setRegion_jtag : (setRegion k v s).jtag = s.jtag := rfl
@[simp] theorem setRegion_pins : (setRegion k v s).pins = s.pins := rfl
@[simp] theorem setRegion_out : (setRegion k v s).out = s.out := rfl
@[simp] theorem setRegion_freeIdx : (setRegion k v s).freeIdx = s.freeIdx := rfl
end

section
variable (k : Nat) (v : Option Mirror) (s : State)
@[simp] theorem setMirror_pending : (setMirror k v s).pending = s.pending := rfl
@[simp] theorem setMirror_mem : (setMirror k v s).mem = s.mem := rfl
@[simp] theorem setMirror_zeroed : (setMirror k v s).zeroed = s.zeroed := rfl
@[simp] theorem setMirror_poison : (setMirror k v s).poison = s.poison := rfl
@[simp] theorem setMirror_dramErr : (setMirror k v s).dramErr = s.dramErr := rfl
@[simp] theorem setMirror_sramErr : (setMirror k v s).sramErr = s.sramErr := rfl
@[simp] theorem setMirror_fabric : (setMirror k v s).fabric = s.fabric := rfl
@[simp] theorem setMirror_mxFmt : (setMirror k v s).mxFmt = s.mxFmt := rfl
@[simp] theorem setMirror_stkFmt : (setMirror k v s).stkFmt = s.stkFmt := rfl
@[simp] theorem setMirror_tiles : (setMirror k v s).tiles = s.tiles := rfl
@[simp] theorem setMirror_tileRuns : (setMirror k v s).tileRuns = s.tileRuns := rfl
@[simp] theorem setMirror_engines : (setMirror k v s).engines = s.engines := rfl
@[simp] theorem setMirror_flights : (setMirror k v s).flights = s.flights := rfl
@[simp] theorem setMirror_portq : (setMirror k v s).portq = s.portq := rfl
@[simp] theorem setMirror_pods : (setMirror k v s).pods = s.pods := rfl
@[simp] theorem setMirror_graphs : (setMirror k v s).graphs = s.graphs := rfl
@[simp] theorem setMirror_nextGraph : (setMirror k v s).nextGraph = s.nextGraph := rfl
@[simp] theorem setMirror_insts : (setMirror k v s).insts = s.insts := rfl
@[simp] theorem setMirror_regions : (setMirror k v s).regions = s.regions := rfl
@[simp] theorem setMirror_redirects : (setMirror k v s).redirects = s.redirects := rfl
@[simp] theorem setMirror_streams : (setMirror k v s).streams = s.streams := rfl
@[simp] theorem setMirror_closeSeq : (setMirror k v s).closeSeq = s.closeSeq := rfl
@[simp] theorem setMirror_sprout : (setMirror k v s).sprout = s.sprout := rfl
@[simp] theorem setMirror_pwu : (setMirror k v s).pwu = s.pwu := rfl
@[simp] theorem setMirror_kvDropped : (setMirror k v s).kvDropped = s.kvDropped := rfl
@[simp] theorem setMirror_land : (setMirror k v s).land = s.land := rfl
@[simp] theorem setMirror_aper : (setMirror k v s).aper = s.aper := rfl
@[simp] theorem setMirror_windows : (setMirror k v s).windows = s.windows := rfl
@[simp] theorem setMirror_partners : (setMirror k v s).partners = s.partners := rfl
@[simp] theorem setMirror_mboxes : (setMirror k v s).mboxes = s.mboxes := rfl
@[simp] theorem setMirror_funcs : (setMirror k v s).funcs = s.funcs := rfl
@[simp] theorem setMirror_ports : (setMirror k v s).ports = s.ports := rfl
@[simp] theorem setMirror_owner : (setMirror k v s).owner = s.owner := rfl
@[simp] theorem setMirror_offer : (setMirror k v s).offer = s.offer := rfl
@[simp] theorem setMirror_acked : (setMirror k v s).acked = s.acked := rfl
@[simp] theorem setMirror_cmds : (setMirror k v s).cmds = s.cmds := rfl
@[simp] theorem setMirror_eccCfg : (setMirror k v s).eccCfg = s.eccCfg := rfl
@[simp] theorem setMirror_eccWritten : (setMirror k v s).eccWritten = s.eccWritten := rfl
@[simp] theorem setMirror_leakAt : (setMirror k v s).leakAt = s.leakAt := rfl
@[simp] theorem setMirror_ecc : (setMirror k v s).ecc = s.ecc := rfl
@[simp] theorem setMirror_dies : (setMirror k v s).dies = s.dies := rfl
@[simp] theorem setMirror_fences : (setMirror k v s).fences = s.fences := rfl
@[simp] theorem setMirror_hubA : (setMirror k v s).hubA = s.hubA := rfl
@[simp] theorem setMirror_hubB : (setMirror k v s).hubB = s.hubB := rfl
@[simp] theorem setMirror_rails : (setMirror k v s).rails = s.rails := rfl
@[simp] theorem setMirror_clock : (setMirror k v s).clock = s.clock := rfl
@[simp] theorem setMirror_thermal : (setMirror k v s).thermal = s.thermal := rfl
@[simp] theorem setMirror_power : (setMirror k v s).power = s.power := rfl
@[simp] theorem setMirror_sec : (setMirror k v s).sec = s.sec := rfl
@[simp] theorem setMirror_fw : (setMirror k v s).fw = s.fw := rfl
@[simp] theorem setMirror_mgmt : (setMirror k v s).mgmt = s.mgmt := rfl
@[simp] theorem setMirror_jtag : (setMirror k v s).jtag = s.jtag := rfl
@[simp] theorem setMirror_pins : (setMirror k v s).pins = s.pins := rfl
@[simp] theorem setMirror_out : (setMirror k v s).out = s.out := rfl
@[simp] theorem setMirror_freeIdx : (setMirror k v s).freeIdx = s.freeIdx := rfl
end

section
variable (k : Nat) (v : Link) (s : State)
@[simp] theorem setLink_pending : (setLink k v s).pending = s.pending := rfl
@[simp] theorem setLink_mem : (setLink k v s).mem = s.mem := rfl
@[simp] theorem setLink_zeroed : (setLink k v s).zeroed = s.zeroed := rfl
@[simp] theorem setLink_poison : (setLink k v s).poison = s.poison := rfl
@[simp] theorem setLink_dramErr : (setLink k v s).dramErr = s.dramErr := rfl
@[simp] theorem setLink_sramErr : (setLink k v s).sramErr = s.sramErr := rfl
@[simp] theorem setLink_mxFmt : (setLink k v s).mxFmt = s.mxFmt := rfl
@[simp] theorem setLink_stkFmt : (setLink k v s).stkFmt = s.stkFmt := rfl
@[simp] theorem setLink_tiles : (setLink k v s).tiles = s.tiles := rfl
@[simp] theorem setLink_tileRuns : (setLink k v s).tileRuns = s.tileRuns := rfl
@[simp] theorem setLink_engines : (setLink k v s).engines = s.engines := rfl
@[simp] theorem setLink_flights : (setLink k v s).flights = s.flights := rfl
@[simp] theorem setLink_portq : (setLink k v s).portq = s.portq := rfl
@[simp] theorem setLink_pods : (setLink k v s).pods = s.pods := rfl
@[simp] theorem setLink_graphs : (setLink k v s).graphs = s.graphs := rfl
@[simp] theorem setLink_nextGraph : (setLink k v s).nextGraph = s.nextGraph := rfl
@[simp] theorem setLink_insts : (setLink k v s).insts = s.insts := rfl
@[simp] theorem setLink_regions : (setLink k v s).regions = s.regions := rfl
@[simp] theorem setLink_mirrors : (setLink k v s).mirrors = s.mirrors := rfl
@[simp] theorem setLink_redirects : (setLink k v s).redirects = s.redirects := rfl
@[simp] theorem setLink_streams : (setLink k v s).streams = s.streams := rfl
@[simp] theorem setLink_closeSeq : (setLink k v s).closeSeq = s.closeSeq := rfl
@[simp] theorem setLink_sprout : (setLink k v s).sprout = s.sprout := rfl
@[simp] theorem setLink_pwu : (setLink k v s).pwu = s.pwu := rfl
@[simp] theorem setLink_kvDropped : (setLink k v s).kvDropped = s.kvDropped := rfl
@[simp] theorem setLink_land : (setLink k v s).land = s.land := rfl
@[simp] theorem setLink_aper : (setLink k v s).aper = s.aper := rfl
@[simp] theorem setLink_windows : (setLink k v s).windows = s.windows := rfl
@[simp] theorem setLink_partners : (setLink k v s).partners = s.partners := rfl
@[simp] theorem setLink_mboxes : (setLink k v s).mboxes = s.mboxes := rfl
@[simp] theorem setLink_funcs : (setLink k v s).funcs = s.funcs := rfl
@[simp] theorem setLink_ports : (setLink k v s).ports = s.ports := rfl
@[simp] theorem setLink_owner : (setLink k v s).owner = s.owner := rfl
@[simp] theorem setLink_offer : (setLink k v s).offer = s.offer := rfl
@[simp] theorem setLink_acked : (setLink k v s).acked = s.acked := rfl
@[simp] theorem setLink_cmds : (setLink k v s).cmds = s.cmds := rfl
@[simp] theorem setLink_eccCfg : (setLink k v s).eccCfg = s.eccCfg := rfl
@[simp] theorem setLink_eccWritten : (setLink k v s).eccWritten = s.eccWritten := rfl
@[simp] theorem setLink_leakAt : (setLink k v s).leakAt = s.leakAt := rfl
@[simp] theorem setLink_ecc : (setLink k v s).ecc = s.ecc := rfl
@[simp] theorem setLink_dies : (setLink k v s).dies = s.dies := rfl
@[simp] theorem setLink_fences : (setLink k v s).fences = s.fences := rfl
@[simp] theorem setLink_hubA : (setLink k v s).hubA = s.hubA := rfl
@[simp] theorem setLink_hubB : (setLink k v s).hubB = s.hubB := rfl
@[simp] theorem setLink_rails : (setLink k v s).rails = s.rails := rfl
@[simp] theorem setLink_clock : (setLink k v s).clock = s.clock := rfl
@[simp] theorem setLink_thermal : (setLink k v s).thermal = s.thermal := rfl
@[simp] theorem setLink_power : (setLink k v s).power = s.power := rfl
@[simp] theorem setLink_sec : (setLink k v s).sec = s.sec := rfl
@[simp] theorem setLink_fw : (setLink k v s).fw = s.fw := rfl
@[simp] theorem setLink_mgmt : (setLink k v s).mgmt = s.mgmt := rfl
@[simp] theorem setLink_jtag : (setLink k v s).jtag = s.jtag := rfl
@[simp] theorem setLink_pins : (setLink k v s).pins = s.pins := rfl
@[simp] theorem setLink_out : (setLink k v s).out = s.out := rfl
@[simp] theorem setLink_freeIdx : (setLink k v s).freeIdx = s.freeIdx := rfl
end

section
variable (k : Nat) (v : Func) (s : State)
@[simp] theorem setFunc_pending : (setFunc k v s).pending = s.pending := rfl
@[simp] theorem setFunc_mem : (setFunc k v s).mem = s.mem := rfl
@[simp] theorem setFunc_zeroed : (setFunc k v s).zeroed = s.zeroed := rfl
@[simp] theorem setFunc_poison : (setFunc k v s).poison = s.poison := rfl
@[simp] theorem setFunc_dramErr : (setFunc k v s).dramErr = s.dramErr := rfl
@[simp] theorem setFunc_sramErr : (setFunc k v s).sramErr = s.sramErr := rfl
@[simp] theorem setFunc_fabric : (setFunc k v s).fabric = s.fabric := rfl
@[simp] theorem setFunc_mxFmt : (setFunc k v s).mxFmt = s.mxFmt := rfl
@[simp] theorem setFunc_stkFmt : (setFunc k v s).stkFmt = s.stkFmt := rfl
@[simp] theorem setFunc_tiles : (setFunc k v s).tiles = s.tiles := rfl
@[simp] theorem setFunc_tileRuns : (setFunc k v s).tileRuns = s.tileRuns := rfl
@[simp] theorem setFunc_engines : (setFunc k v s).engines = s.engines := rfl
@[simp] theorem setFunc_flights : (setFunc k v s).flights = s.flights := rfl
@[simp] theorem setFunc_portq : (setFunc k v s).portq = s.portq := rfl
@[simp] theorem setFunc_pods : (setFunc k v s).pods = s.pods := rfl
@[simp] theorem setFunc_graphs : (setFunc k v s).graphs = s.graphs := rfl
@[simp] theorem setFunc_nextGraph : (setFunc k v s).nextGraph = s.nextGraph := rfl
@[simp] theorem setFunc_insts : (setFunc k v s).insts = s.insts := rfl
@[simp] theorem setFunc_regions : (setFunc k v s).regions = s.regions := rfl
@[simp] theorem setFunc_mirrors : (setFunc k v s).mirrors = s.mirrors := rfl
@[simp] theorem setFunc_redirects : (setFunc k v s).redirects = s.redirects := rfl
@[simp] theorem setFunc_streams : (setFunc k v s).streams = s.streams := rfl
@[simp] theorem setFunc_closeSeq : (setFunc k v s).closeSeq = s.closeSeq := rfl
@[simp] theorem setFunc_sprout : (setFunc k v s).sprout = s.sprout := rfl
@[simp] theorem setFunc_pwu : (setFunc k v s).pwu = s.pwu := rfl
@[simp] theorem setFunc_kvDropped : (setFunc k v s).kvDropped = s.kvDropped := rfl
@[simp] theorem setFunc_land : (setFunc k v s).land = s.land := rfl
@[simp] theorem setFunc_aper : (setFunc k v s).aper = s.aper := rfl
@[simp] theorem setFunc_windows : (setFunc k v s).windows = s.windows := rfl
@[simp] theorem setFunc_partners : (setFunc k v s).partners = s.partners := rfl
@[simp] theorem setFunc_mboxes : (setFunc k v s).mboxes = s.mboxes := rfl
@[simp] theorem setFunc_ports : (setFunc k v s).ports = s.ports := rfl
@[simp] theorem setFunc_owner : (setFunc k v s).owner = s.owner := rfl
@[simp] theorem setFunc_offer : (setFunc k v s).offer = s.offer := rfl
@[simp] theorem setFunc_acked : (setFunc k v s).acked = s.acked := rfl
@[simp] theorem setFunc_cmds : (setFunc k v s).cmds = s.cmds := rfl
@[simp] theorem setFunc_eccCfg : (setFunc k v s).eccCfg = s.eccCfg := rfl
@[simp] theorem setFunc_eccWritten : (setFunc k v s).eccWritten = s.eccWritten := rfl
@[simp] theorem setFunc_leakAt : (setFunc k v s).leakAt = s.leakAt := rfl
@[simp] theorem setFunc_ecc : (setFunc k v s).ecc = s.ecc := rfl
@[simp] theorem setFunc_dies : (setFunc k v s).dies = s.dies := rfl
@[simp] theorem setFunc_fences : (setFunc k v s).fences = s.fences := rfl
@[simp] theorem setFunc_hubA : (setFunc k v s).hubA = s.hubA := rfl
@[simp] theorem setFunc_hubB : (setFunc k v s).hubB = s.hubB := rfl
@[simp] theorem setFunc_rails : (setFunc k v s).rails = s.rails := rfl
@[simp] theorem setFunc_clock : (setFunc k v s).clock = s.clock := rfl
@[simp] theorem setFunc_thermal : (setFunc k v s).thermal = s.thermal := rfl
@[simp] theorem setFunc_power : (setFunc k v s).power = s.power := rfl
@[simp] theorem setFunc_sec : (setFunc k v s).sec = s.sec := rfl
@[simp] theorem setFunc_fw : (setFunc k v s).fw = s.fw := rfl
@[simp] theorem setFunc_mgmt : (setFunc k v s).mgmt = s.mgmt := rfl
@[simp] theorem setFunc_jtag : (setFunc k v s).jtag = s.jtag := rfl
@[simp] theorem setFunc_pins : (setFunc k v s).pins = s.pins := rfl
@[simp] theorem setFunc_out : (setFunc k v s).out = s.out := rfl
@[simp] theorem setFunc_freeIdx : (setFunc k v s).freeIdx = s.freeIdx := rfl
end

section
variable (k : Nat) (v : Port) (s : State)
@[simp] theorem setPort_pending : (setPort k v s).pending = s.pending := rfl
@[simp] theorem setPort_mem : (setPort k v s).mem = s.mem := rfl
@[simp] theorem setPort_zeroed : (setPort k v s).zeroed = s.zeroed := rfl
@[simp] theorem setPort_poison : (setPort k v s).poison = s.poison := rfl
@[simp] theorem setPort_dramErr : (setPort k v s).dramErr = s.dramErr := rfl
@[simp] theorem setPort_sramErr : (setPort k v s).sramErr = s.sramErr := rfl
@[simp] theorem setPort_fabric : (setPort k v s).fabric = s.fabric := rfl
@[simp] theorem setPort_mxFmt : (setPort k v s).mxFmt = s.mxFmt := rfl
@[simp] theorem setPort_stkFmt : (setPort k v s).stkFmt = s.stkFmt := rfl
@[simp] theorem setPort_tiles : (setPort k v s).tiles = s.tiles := rfl
@[simp] theorem setPort_tileRuns : (setPort k v s).tileRuns = s.tileRuns := rfl
@[simp] theorem setPort_engines : (setPort k v s).engines = s.engines := rfl
@[simp] theorem setPort_flights : (setPort k v s).flights = s.flights := rfl
@[simp] theorem setPort_portq : (setPort k v s).portq = s.portq := rfl
@[simp] theorem setPort_pods : (setPort k v s).pods = s.pods := rfl
@[simp] theorem setPort_graphs : (setPort k v s).graphs = s.graphs := rfl
@[simp] theorem setPort_nextGraph : (setPort k v s).nextGraph = s.nextGraph := rfl
@[simp] theorem setPort_insts : (setPort k v s).insts = s.insts := rfl
@[simp] theorem setPort_regions : (setPort k v s).regions = s.regions := rfl
@[simp] theorem setPort_mirrors : (setPort k v s).mirrors = s.mirrors := rfl
@[simp] theorem setPort_redirects : (setPort k v s).redirects = s.redirects := rfl
@[simp] theorem setPort_streams : (setPort k v s).streams = s.streams := rfl
@[simp] theorem setPort_closeSeq : (setPort k v s).closeSeq = s.closeSeq := rfl
@[simp] theorem setPort_sprout : (setPort k v s).sprout = s.sprout := rfl
@[simp] theorem setPort_pwu : (setPort k v s).pwu = s.pwu := rfl
@[simp] theorem setPort_kvDropped : (setPort k v s).kvDropped = s.kvDropped := rfl
@[simp] theorem setPort_land : (setPort k v s).land = s.land := rfl
@[simp] theorem setPort_aper : (setPort k v s).aper = s.aper := rfl
@[simp] theorem setPort_windows : (setPort k v s).windows = s.windows := rfl
@[simp] theorem setPort_partners : (setPort k v s).partners = s.partners := rfl
@[simp] theorem setPort_mboxes : (setPort k v s).mboxes = s.mboxes := rfl
@[simp] theorem setPort_funcs : (setPort k v s).funcs = s.funcs := rfl
@[simp] theorem setPort_owner : (setPort k v s).owner = s.owner := rfl
@[simp] theorem setPort_offer : (setPort k v s).offer = s.offer := rfl
@[simp] theorem setPort_acked : (setPort k v s).acked = s.acked := rfl
@[simp] theorem setPort_cmds : (setPort k v s).cmds = s.cmds := rfl
@[simp] theorem setPort_eccCfg : (setPort k v s).eccCfg = s.eccCfg := rfl
@[simp] theorem setPort_eccWritten : (setPort k v s).eccWritten = s.eccWritten := rfl
@[simp] theorem setPort_leakAt : (setPort k v s).leakAt = s.leakAt := rfl
@[simp] theorem setPort_ecc : (setPort k v s).ecc = s.ecc := rfl
@[simp] theorem setPort_dies : (setPort k v s).dies = s.dies := rfl
@[simp] theorem setPort_fences : (setPort k v s).fences = s.fences := rfl
@[simp] theorem setPort_hubA : (setPort k v s).hubA = s.hubA := rfl
@[simp] theorem setPort_hubB : (setPort k v s).hubB = s.hubB := rfl
@[simp] theorem setPort_rails : (setPort k v s).rails = s.rails := rfl
@[simp] theorem setPort_clock : (setPort k v s).clock = s.clock := rfl
@[simp] theorem setPort_thermal : (setPort k v s).thermal = s.thermal := rfl
@[simp] theorem setPort_power : (setPort k v s).power = s.power := rfl
@[simp] theorem setPort_sec : (setPort k v s).sec = s.sec := rfl
@[simp] theorem setPort_fw : (setPort k v s).fw = s.fw := rfl
@[simp] theorem setPort_mgmt : (setPort k v s).mgmt = s.mgmt := rfl
@[simp] theorem setPort_jtag : (setPort k v s).jtag = s.jtag := rfl
@[simp] theorem setPort_pins : (setPort k v s).pins = s.pins := rfl
@[simp] theorem setPort_out : (setPort k v s).out = s.out := rfl
@[simp] theorem setPort_freeIdx : (setPort k v s).freeIdx = s.freeIdx := rfl
end

section
variable (k : Nat) (v : Partner) (s : State)
@[simp] theorem setPartner_pending : (setPartner k v s).pending = s.pending := rfl
@[simp] theorem setPartner_mem : (setPartner k v s).mem = s.mem := rfl
@[simp] theorem setPartner_zeroed : (setPartner k v s).zeroed = s.zeroed := rfl
@[simp] theorem setPartner_poison : (setPartner k v s).poison = s.poison := rfl
@[simp] theorem setPartner_dramErr : (setPartner k v s).dramErr = s.dramErr := rfl
@[simp] theorem setPartner_sramErr : (setPartner k v s).sramErr = s.sramErr := rfl
@[simp] theorem setPartner_fabric : (setPartner k v s).fabric = s.fabric := rfl
@[simp] theorem setPartner_mxFmt : (setPartner k v s).mxFmt = s.mxFmt := rfl
@[simp] theorem setPartner_stkFmt : (setPartner k v s).stkFmt = s.stkFmt := rfl
@[simp] theorem setPartner_tiles : (setPartner k v s).tiles = s.tiles := rfl
@[simp] theorem setPartner_tileRuns : (setPartner k v s).tileRuns = s.tileRuns := rfl
@[simp] theorem setPartner_engines : (setPartner k v s).engines = s.engines := rfl
@[simp] theorem setPartner_flights : (setPartner k v s).flights = s.flights := rfl
@[simp] theorem setPartner_portq : (setPartner k v s).portq = s.portq := rfl
@[simp] theorem setPartner_pods : (setPartner k v s).pods = s.pods := rfl
@[simp] theorem setPartner_graphs : (setPartner k v s).graphs = s.graphs := rfl
@[simp] theorem setPartner_nextGraph : (setPartner k v s).nextGraph = s.nextGraph := rfl
@[simp] theorem setPartner_insts : (setPartner k v s).insts = s.insts := rfl
@[simp] theorem setPartner_regions : (setPartner k v s).regions = s.regions := rfl
@[simp] theorem setPartner_mirrors : (setPartner k v s).mirrors = s.mirrors := rfl
@[simp] theorem setPartner_redirects : (setPartner k v s).redirects = s.redirects := rfl
@[simp] theorem setPartner_streams : (setPartner k v s).streams = s.streams := rfl
@[simp] theorem setPartner_closeSeq : (setPartner k v s).closeSeq = s.closeSeq := rfl
@[simp] theorem setPartner_sprout : (setPartner k v s).sprout = s.sprout := rfl
@[simp] theorem setPartner_pwu : (setPartner k v s).pwu = s.pwu := rfl
@[simp] theorem setPartner_kvDropped : (setPartner k v s).kvDropped = s.kvDropped := rfl
@[simp] theorem setPartner_land : (setPartner k v s).land = s.land := rfl
@[simp] theorem setPartner_aper : (setPartner k v s).aper = s.aper := rfl
@[simp] theorem setPartner_windows : (setPartner k v s).windows = s.windows := rfl
@[simp] theorem setPartner_mboxes : (setPartner k v s).mboxes = s.mboxes := rfl
@[simp] theorem setPartner_funcs : (setPartner k v s).funcs = s.funcs := rfl
@[simp] theorem setPartner_ports : (setPartner k v s).ports = s.ports := rfl
@[simp] theorem setPartner_owner : (setPartner k v s).owner = s.owner := rfl
@[simp] theorem setPartner_offer : (setPartner k v s).offer = s.offer := rfl
@[simp] theorem setPartner_acked : (setPartner k v s).acked = s.acked := rfl
@[simp] theorem setPartner_cmds : (setPartner k v s).cmds = s.cmds := rfl
@[simp] theorem setPartner_eccCfg : (setPartner k v s).eccCfg = s.eccCfg := rfl
@[simp] theorem setPartner_eccWritten : (setPartner k v s).eccWritten = s.eccWritten := rfl
@[simp] theorem setPartner_leakAt : (setPartner k v s).leakAt = s.leakAt := rfl
@[simp] theorem setPartner_ecc : (setPartner k v s).ecc = s.ecc := rfl
@[simp] theorem setPartner_dies : (setPartner k v s).dies = s.dies := rfl
@[simp] theorem setPartner_fences : (setPartner k v s).fences = s.fences := rfl
@[simp] theorem setPartner_hubA : (setPartner k v s).hubA = s.hubA := rfl
@[simp] theorem setPartner_hubB : (setPartner k v s).hubB = s.hubB := rfl
@[simp] theorem setPartner_rails : (setPartner k v s).rails = s.rails := rfl
@[simp] theorem setPartner_clock : (setPartner k v s).clock = s.clock := rfl
@[simp] theorem setPartner_thermal : (setPartner k v s).thermal = s.thermal := rfl
@[simp] theorem setPartner_power : (setPartner k v s).power = s.power := rfl
@[simp] theorem setPartner_sec : (setPartner k v s).sec = s.sec := rfl
@[simp] theorem setPartner_fw : (setPartner k v s).fw = s.fw := rfl
@[simp] theorem setPartner_mgmt : (setPartner k v s).mgmt = s.mgmt := rfl
@[simp] theorem setPartner_jtag : (setPartner k v s).jtag = s.jtag := rfl
@[simp] theorem setPartner_pins : (setPartner k v s).pins = s.pins := rfl
@[simp] theorem setPartner_out : (setPartner k v s).out = s.out := rfl
@[simp] theorem setPartner_freeIdx : (setPartner k v s).freeIdx = s.freeIdx := rfl
end

section
variable (k : Nat) (v : PeerWindow) (s : State)
@[simp] theorem setWindow_pending : (setWindow k v s).pending = s.pending := rfl
@[simp] theorem setWindow_mem : (setWindow k v s).mem = s.mem := rfl
@[simp] theorem setWindow_zeroed : (setWindow k v s).zeroed = s.zeroed := rfl
@[simp] theorem setWindow_poison : (setWindow k v s).poison = s.poison := rfl
@[simp] theorem setWindow_dramErr : (setWindow k v s).dramErr = s.dramErr := rfl
@[simp] theorem setWindow_sramErr : (setWindow k v s).sramErr = s.sramErr := rfl
@[simp] theorem setWindow_fabric : (setWindow k v s).fabric = s.fabric := rfl
@[simp] theorem setWindow_mxFmt : (setWindow k v s).mxFmt = s.mxFmt := rfl
@[simp] theorem setWindow_stkFmt : (setWindow k v s).stkFmt = s.stkFmt := rfl
@[simp] theorem setWindow_tiles : (setWindow k v s).tiles = s.tiles := rfl
@[simp] theorem setWindow_tileRuns : (setWindow k v s).tileRuns = s.tileRuns := rfl
@[simp] theorem setWindow_engines : (setWindow k v s).engines = s.engines := rfl
@[simp] theorem setWindow_flights : (setWindow k v s).flights = s.flights := rfl
@[simp] theorem setWindow_portq : (setWindow k v s).portq = s.portq := rfl
@[simp] theorem setWindow_pods : (setWindow k v s).pods = s.pods := rfl
@[simp] theorem setWindow_graphs : (setWindow k v s).graphs = s.graphs := rfl
@[simp] theorem setWindow_nextGraph : (setWindow k v s).nextGraph = s.nextGraph := rfl
@[simp] theorem setWindow_insts : (setWindow k v s).insts = s.insts := rfl
@[simp] theorem setWindow_regions : (setWindow k v s).regions = s.regions := rfl
@[simp] theorem setWindow_mirrors : (setWindow k v s).mirrors = s.mirrors := rfl
@[simp] theorem setWindow_redirects : (setWindow k v s).redirects = s.redirects := rfl
@[simp] theorem setWindow_streams : (setWindow k v s).streams = s.streams := rfl
@[simp] theorem setWindow_closeSeq : (setWindow k v s).closeSeq = s.closeSeq := rfl
@[simp] theorem setWindow_sprout : (setWindow k v s).sprout = s.sprout := rfl
@[simp] theorem setWindow_pwu : (setWindow k v s).pwu = s.pwu := rfl
@[simp] theorem setWindow_kvDropped : (setWindow k v s).kvDropped = s.kvDropped := rfl
@[simp] theorem setWindow_land : (setWindow k v s).land = s.land := rfl
@[simp] theorem setWindow_aper : (setWindow k v s).aper = s.aper := rfl
@[simp] theorem setWindow_partners : (setWindow k v s).partners = s.partners := rfl
@[simp] theorem setWindow_mboxes : (setWindow k v s).mboxes = s.mboxes := rfl
@[simp] theorem setWindow_funcs : (setWindow k v s).funcs = s.funcs := rfl
@[simp] theorem setWindow_ports : (setWindow k v s).ports = s.ports := rfl
@[simp] theorem setWindow_owner : (setWindow k v s).owner = s.owner := rfl
@[simp] theorem setWindow_offer : (setWindow k v s).offer = s.offer := rfl
@[simp] theorem setWindow_acked : (setWindow k v s).acked = s.acked := rfl
@[simp] theorem setWindow_cmds : (setWindow k v s).cmds = s.cmds := rfl
@[simp] theorem setWindow_eccCfg : (setWindow k v s).eccCfg = s.eccCfg := rfl
@[simp] theorem setWindow_eccWritten : (setWindow k v s).eccWritten = s.eccWritten := rfl
@[simp] theorem setWindow_leakAt : (setWindow k v s).leakAt = s.leakAt := rfl
@[simp] theorem setWindow_ecc : (setWindow k v s).ecc = s.ecc := rfl
@[simp] theorem setWindow_dies : (setWindow k v s).dies = s.dies := rfl
@[simp] theorem setWindow_fences : (setWindow k v s).fences = s.fences := rfl
@[simp] theorem setWindow_hubA : (setWindow k v s).hubA = s.hubA := rfl
@[simp] theorem setWindow_hubB : (setWindow k v s).hubB = s.hubB := rfl
@[simp] theorem setWindow_rails : (setWindow k v s).rails = s.rails := rfl
@[simp] theorem setWindow_clock : (setWindow k v s).clock = s.clock := rfl
@[simp] theorem setWindow_thermal : (setWindow k v s).thermal = s.thermal := rfl
@[simp] theorem setWindow_power : (setWindow k v s).power = s.power := rfl
@[simp] theorem setWindow_sec : (setWindow k v s).sec = s.sec := rfl
@[simp] theorem setWindow_fw : (setWindow k v s).fw = s.fw := rfl
@[simp] theorem setWindow_mgmt : (setWindow k v s).mgmt = s.mgmt := rfl
@[simp] theorem setWindow_jtag : (setWindow k v s).jtag = s.jtag := rfl
@[simp] theorem setWindow_pins : (setWindow k v s).pins = s.pins := rfl
@[simp] theorem setWindow_out : (setWindow k v s).out = s.out := rfl
@[simp] theorem setWindow_freeIdx : (setWindow k v s).freeIdx = s.freeIdx := rfl
end

section
variable (k : Nat) (v : TileStat) (s : State)
@[simp] theorem setTile_pending : (setTile k v s).pending = s.pending := rfl
@[simp] theorem setTile_mem : (setTile k v s).mem = s.mem := rfl
@[simp] theorem setTile_zeroed : (setTile k v s).zeroed = s.zeroed := rfl
@[simp] theorem setTile_poison : (setTile k v s).poison = s.poison := rfl
@[simp] theorem setTile_dramErr : (setTile k v s).dramErr = s.dramErr := rfl
@[simp] theorem setTile_sramErr : (setTile k v s).sramErr = s.sramErr := rfl
@[simp] theorem setTile_fabric : (setTile k v s).fabric = s.fabric := rfl
@[simp] theorem setTile_mxFmt : (setTile k v s).mxFmt = s.mxFmt := rfl
@[simp] theorem setTile_stkFmt : (setTile k v s).stkFmt = s.stkFmt := rfl
@[simp] theorem setTile_tileRuns : (setTile k v s).tileRuns = s.tileRuns := rfl
@[simp] theorem setTile_engines : (setTile k v s).engines = s.engines := rfl
@[simp] theorem setTile_flights : (setTile k v s).flights = s.flights := rfl
@[simp] theorem setTile_portq : (setTile k v s).portq = s.portq := rfl
@[simp] theorem setTile_pods : (setTile k v s).pods = s.pods := rfl
@[simp] theorem setTile_graphs : (setTile k v s).graphs = s.graphs := rfl
@[simp] theorem setTile_nextGraph : (setTile k v s).nextGraph = s.nextGraph := rfl
@[simp] theorem setTile_insts : (setTile k v s).insts = s.insts := rfl
@[simp] theorem setTile_regions : (setTile k v s).regions = s.regions := rfl
@[simp] theorem setTile_mirrors : (setTile k v s).mirrors = s.mirrors := rfl
@[simp] theorem setTile_redirects : (setTile k v s).redirects = s.redirects := rfl
@[simp] theorem setTile_streams : (setTile k v s).streams = s.streams := rfl
@[simp] theorem setTile_closeSeq : (setTile k v s).closeSeq = s.closeSeq := rfl
@[simp] theorem setTile_sprout : (setTile k v s).sprout = s.sprout := rfl
@[simp] theorem setTile_pwu : (setTile k v s).pwu = s.pwu := rfl
@[simp] theorem setTile_kvDropped : (setTile k v s).kvDropped = s.kvDropped := rfl
@[simp] theorem setTile_land : (setTile k v s).land = s.land := rfl
@[simp] theorem setTile_aper : (setTile k v s).aper = s.aper := rfl
@[simp] theorem setTile_windows : (setTile k v s).windows = s.windows := rfl
@[simp] theorem setTile_partners : (setTile k v s).partners = s.partners := rfl
@[simp] theorem setTile_mboxes : (setTile k v s).mboxes = s.mboxes := rfl
@[simp] theorem setTile_funcs : (setTile k v s).funcs = s.funcs := rfl
@[simp] theorem setTile_ports : (setTile k v s).ports = s.ports := rfl
@[simp] theorem setTile_owner : (setTile k v s).owner = s.owner := rfl
@[simp] theorem setTile_offer : (setTile k v s).offer = s.offer := rfl
@[simp] theorem setTile_acked : (setTile k v s).acked = s.acked := rfl
@[simp] theorem setTile_cmds : (setTile k v s).cmds = s.cmds := rfl
@[simp] theorem setTile_eccCfg : (setTile k v s).eccCfg = s.eccCfg := rfl
@[simp] theorem setTile_eccWritten : (setTile k v s).eccWritten = s.eccWritten := rfl
@[simp] theorem setTile_leakAt : (setTile k v s).leakAt = s.leakAt := rfl
@[simp] theorem setTile_ecc : (setTile k v s).ecc = s.ecc := rfl
@[simp] theorem setTile_dies : (setTile k v s).dies = s.dies := rfl
@[simp] theorem setTile_fences : (setTile k v s).fences = s.fences := rfl
@[simp] theorem setTile_hubA : (setTile k v s).hubA = s.hubA := rfl
@[simp] theorem setTile_hubB : (setTile k v s).hubB = s.hubB := rfl
@[simp] theorem setTile_rails : (setTile k v s).rails = s.rails := rfl
@[simp] theorem setTile_clock : (setTile k v s).clock = s.clock := rfl
@[simp] theorem setTile_thermal : (setTile k v s).thermal = s.thermal := rfl
@[simp] theorem setTile_power : (setTile k v s).power = s.power := rfl
@[simp] theorem setTile_sec : (setTile k v s).sec = s.sec := rfl
@[simp] theorem setTile_fw : (setTile k v s).fw = s.fw := rfl
@[simp] theorem setTile_mgmt : (setTile k v s).mgmt = s.mgmt := rfl
@[simp] theorem setTile_jtag : (setTile k v s).jtag = s.jtag := rfl
@[simp] theorem setTile_pins : (setTile k v s).pins = s.pins := rfl
@[simp] theorem setTile_out : (setTile k v s).out = s.out := rfl
@[simp] theorem setTile_freeIdx : (setTile k v s).freeIdx = s.freeIdx := rfl
end

section
variable (k : Nat) (v : DieMap) (s : State)
@[simp] theorem setDie_pending : (setDie k v s).pending = s.pending := rfl
@[simp] theorem setDie_mem : (setDie k v s).mem = s.mem := rfl
@[simp] theorem setDie_zeroed : (setDie k v s).zeroed = s.zeroed := rfl
@[simp] theorem setDie_poison : (setDie k v s).poison = s.poison := rfl
@[simp] theorem setDie_dramErr : (setDie k v s).dramErr = s.dramErr := rfl
@[simp] theorem setDie_sramErr : (setDie k v s).sramErr = s.sramErr := rfl
@[simp] theorem setDie_fabric : (setDie k v s).fabric = s.fabric := rfl
@[simp] theorem setDie_mxFmt : (setDie k v s).mxFmt = s.mxFmt := rfl
@[simp] theorem setDie_stkFmt : (setDie k v s).stkFmt = s.stkFmt := rfl
@[simp] theorem setDie_tiles : (setDie k v s).tiles = s.tiles := rfl
@[simp] theorem setDie_tileRuns : (setDie k v s).tileRuns = s.tileRuns := rfl
@[simp] theorem setDie_engines : (setDie k v s).engines = s.engines := rfl
@[simp] theorem setDie_flights : (setDie k v s).flights = s.flights := rfl
@[simp] theorem setDie_portq : (setDie k v s).portq = s.portq := rfl
@[simp] theorem setDie_pods : (setDie k v s).pods = s.pods := rfl
@[simp] theorem setDie_graphs : (setDie k v s).graphs = s.graphs := rfl
@[simp] theorem setDie_nextGraph : (setDie k v s).nextGraph = s.nextGraph := rfl
@[simp] theorem setDie_insts : (setDie k v s).insts = s.insts := rfl
@[simp] theorem setDie_regions : (setDie k v s).regions = s.regions := rfl
@[simp] theorem setDie_mirrors : (setDie k v s).mirrors = s.mirrors := rfl
@[simp] theorem setDie_redirects : (setDie k v s).redirects = s.redirects := rfl
@[simp] theorem setDie_streams : (setDie k v s).streams = s.streams := rfl
@[simp] theorem setDie_closeSeq : (setDie k v s).closeSeq = s.closeSeq := rfl
@[simp] theorem setDie_sprout : (setDie k v s).sprout = s.sprout := rfl
@[simp] theorem setDie_pwu : (setDie k v s).pwu = s.pwu := rfl
@[simp] theorem setDie_kvDropped : (setDie k v s).kvDropped = s.kvDropped := rfl
@[simp] theorem setDie_land : (setDie k v s).land = s.land := rfl
@[simp] theorem setDie_aper : (setDie k v s).aper = s.aper := rfl
@[simp] theorem setDie_windows : (setDie k v s).windows = s.windows := rfl
@[simp] theorem setDie_partners : (setDie k v s).partners = s.partners := rfl
@[simp] theorem setDie_mboxes : (setDie k v s).mboxes = s.mboxes := rfl
@[simp] theorem setDie_funcs : (setDie k v s).funcs = s.funcs := rfl
@[simp] theorem setDie_ports : (setDie k v s).ports = s.ports := rfl
@[simp] theorem setDie_owner : (setDie k v s).owner = s.owner := rfl
@[simp] theorem setDie_offer : (setDie k v s).offer = s.offer := rfl
@[simp] theorem setDie_acked : (setDie k v s).acked = s.acked := rfl
@[simp] theorem setDie_cmds : (setDie k v s).cmds = s.cmds := rfl
@[simp] theorem setDie_eccCfg : (setDie k v s).eccCfg = s.eccCfg := rfl
@[simp] theorem setDie_eccWritten : (setDie k v s).eccWritten = s.eccWritten := rfl
@[simp] theorem setDie_leakAt : (setDie k v s).leakAt = s.leakAt := rfl
@[simp] theorem setDie_ecc : (setDie k v s).ecc = s.ecc := rfl
@[simp] theorem setDie_fences : (setDie k v s).fences = s.fences := rfl
@[simp] theorem setDie_hubA : (setDie k v s).hubA = s.hubA := rfl
@[simp] theorem setDie_hubB : (setDie k v s).hubB = s.hubB := rfl
@[simp] theorem setDie_rails : (setDie k v s).rails = s.rails := rfl
@[simp] theorem setDie_clock : (setDie k v s).clock = s.clock := rfl
@[simp] theorem setDie_thermal : (setDie k v s).thermal = s.thermal := rfl
@[simp] theorem setDie_power : (setDie k v s).power = s.power := rfl
@[simp] theorem setDie_sec : (setDie k v s).sec = s.sec := rfl
@[simp] theorem setDie_fw : (setDie k v s).fw = s.fw := rfl
@[simp] theorem setDie_mgmt : (setDie k v s).mgmt = s.mgmt := rfl
@[simp] theorem setDie_jtag : (setDie k v s).jtag = s.jtag := rfl
@[simp] theorem setDie_pins : (setDie k v s).pins = s.pins := rfl
@[simp] theorem setDie_out : (setDie k v s).out = s.out := rfl
@[simp] theorem setDie_freeIdx : (setDie k v s).freeIdx = s.freeIdx := rfl
end

section
variable (k : Nat) (v : RailState) (s : State)
@[simp] theorem setRail_pending : (setRail k v s).pending = s.pending := rfl
@[simp] theorem setRail_mem : (setRail k v s).mem = s.mem := rfl
@[simp] theorem setRail_zeroed : (setRail k v s).zeroed = s.zeroed := rfl
@[simp] theorem setRail_poison : (setRail k v s).poison = s.poison := rfl
@[simp] theorem setRail_dramErr : (setRail k v s).dramErr = s.dramErr := rfl
@[simp] theorem setRail_sramErr : (setRail k v s).sramErr = s.sramErr := rfl
@[simp] theorem setRail_fabric : (setRail k v s).fabric = s.fabric := rfl
@[simp] theorem setRail_mxFmt : (setRail k v s).mxFmt = s.mxFmt := rfl
@[simp] theorem setRail_stkFmt : (setRail k v s).stkFmt = s.stkFmt := rfl
@[simp] theorem setRail_tiles : (setRail k v s).tiles = s.tiles := rfl
@[simp] theorem setRail_tileRuns : (setRail k v s).tileRuns = s.tileRuns := rfl
@[simp] theorem setRail_engines : (setRail k v s).engines = s.engines := rfl
@[simp] theorem setRail_flights : (setRail k v s).flights = s.flights := rfl
@[simp] theorem setRail_portq : (setRail k v s).portq = s.portq := rfl
@[simp] theorem setRail_pods : (setRail k v s).pods = s.pods := rfl
@[simp] theorem setRail_graphs : (setRail k v s).graphs = s.graphs := rfl
@[simp] theorem setRail_nextGraph : (setRail k v s).nextGraph = s.nextGraph := rfl
@[simp] theorem setRail_insts : (setRail k v s).insts = s.insts := rfl
@[simp] theorem setRail_regions : (setRail k v s).regions = s.regions := rfl
@[simp] theorem setRail_mirrors : (setRail k v s).mirrors = s.mirrors := rfl
@[simp] theorem setRail_redirects : (setRail k v s).redirects = s.redirects := rfl
@[simp] theorem setRail_streams : (setRail k v s).streams = s.streams := rfl
@[simp] theorem setRail_closeSeq : (setRail k v s).closeSeq = s.closeSeq := rfl
@[simp] theorem setRail_sprout : (setRail k v s).sprout = s.sprout := rfl
@[simp] theorem setRail_pwu : (setRail k v s).pwu = s.pwu := rfl
@[simp] theorem setRail_kvDropped : (setRail k v s).kvDropped = s.kvDropped := rfl
@[simp] theorem setRail_land : (setRail k v s).land = s.land := rfl
@[simp] theorem setRail_aper : (setRail k v s).aper = s.aper := rfl
@[simp] theorem setRail_windows : (setRail k v s).windows = s.windows := rfl
@[simp] theorem setRail_partners : (setRail k v s).partners = s.partners := rfl
@[simp] theorem setRail_mboxes : (setRail k v s).mboxes = s.mboxes := rfl
@[simp] theorem setRail_funcs : (setRail k v s).funcs = s.funcs := rfl
@[simp] theorem setRail_ports : (setRail k v s).ports = s.ports := rfl
@[simp] theorem setRail_owner : (setRail k v s).owner = s.owner := rfl
@[simp] theorem setRail_offer : (setRail k v s).offer = s.offer := rfl
@[simp] theorem setRail_acked : (setRail k v s).acked = s.acked := rfl
@[simp] theorem setRail_cmds : (setRail k v s).cmds = s.cmds := rfl
@[simp] theorem setRail_eccCfg : (setRail k v s).eccCfg = s.eccCfg := rfl
@[simp] theorem setRail_eccWritten : (setRail k v s).eccWritten = s.eccWritten := rfl
@[simp] theorem setRail_leakAt : (setRail k v s).leakAt = s.leakAt := rfl
@[simp] theorem setRail_ecc : (setRail k v s).ecc = s.ecc := rfl
@[simp] theorem setRail_dies : (setRail k v s).dies = s.dies := rfl
@[simp] theorem setRail_fences : (setRail k v s).fences = s.fences := rfl
@[simp] theorem setRail_hubA : (setRail k v s).hubA = s.hubA := rfl
@[simp] theorem setRail_hubB : (setRail k v s).hubB = s.hubB := rfl
@[simp] theorem setRail_clock : (setRail k v s).clock = s.clock := rfl
@[simp] theorem setRail_thermal : (setRail k v s).thermal = s.thermal := rfl
@[simp] theorem setRail_power : (setRail k v s).power = s.power := rfl
@[simp] theorem setRail_sec : (setRail k v s).sec = s.sec := rfl
@[simp] theorem setRail_fw : (setRail k v s).fw = s.fw := rfl
@[simp] theorem setRail_mgmt : (setRail k v s).mgmt = s.mgmt := rfl
@[simp] theorem setRail_jtag : (setRail k v s).jtag = s.jtag := rfl
@[simp] theorem setRail_pins : (setRail k v s).pins = s.pins := rfl
@[simp] theorem setRail_out : (setRail k v s).out = s.out := rfl
@[simp] theorem setRail_freeIdx : (setRail k v s).freeIdx = s.freeIdx := rfl
end

section
variable (k : Mbx) (v : Mailbox) (s : State)
@[simp] theorem setMbx_pending : (setMbx k v s).pending = s.pending := rfl
@[simp] theorem setMbx_mem : (setMbx k v s).mem = s.mem := rfl
@[simp] theorem setMbx_zeroed : (setMbx k v s).zeroed = s.zeroed := rfl
@[simp] theorem setMbx_poison : (setMbx k v s).poison = s.poison := rfl
@[simp] theorem setMbx_dramErr : (setMbx k v s).dramErr = s.dramErr := rfl
@[simp] theorem setMbx_sramErr : (setMbx k v s).sramErr = s.sramErr := rfl
@[simp] theorem setMbx_fabric : (setMbx k v s).fabric = s.fabric := rfl
@[simp] theorem setMbx_mxFmt : (setMbx k v s).mxFmt = s.mxFmt := rfl
@[simp] theorem setMbx_stkFmt : (setMbx k v s).stkFmt = s.stkFmt := rfl
@[simp] theorem setMbx_tiles : (setMbx k v s).tiles = s.tiles := rfl
@[simp] theorem setMbx_tileRuns : (setMbx k v s).tileRuns = s.tileRuns := rfl
@[simp] theorem setMbx_engines : (setMbx k v s).engines = s.engines := rfl
@[simp] theorem setMbx_flights : (setMbx k v s).flights = s.flights := rfl
@[simp] theorem setMbx_portq : (setMbx k v s).portq = s.portq := rfl
@[simp] theorem setMbx_pods : (setMbx k v s).pods = s.pods := rfl
@[simp] theorem setMbx_graphs : (setMbx k v s).graphs = s.graphs := rfl
@[simp] theorem setMbx_nextGraph : (setMbx k v s).nextGraph = s.nextGraph := rfl
@[simp] theorem setMbx_insts : (setMbx k v s).insts = s.insts := rfl
@[simp] theorem setMbx_regions : (setMbx k v s).regions = s.regions := rfl
@[simp] theorem setMbx_mirrors : (setMbx k v s).mirrors = s.mirrors := rfl
@[simp] theorem setMbx_redirects : (setMbx k v s).redirects = s.redirects := rfl
@[simp] theorem setMbx_streams : (setMbx k v s).streams = s.streams := rfl
@[simp] theorem setMbx_closeSeq : (setMbx k v s).closeSeq = s.closeSeq := rfl
@[simp] theorem setMbx_sprout : (setMbx k v s).sprout = s.sprout := rfl
@[simp] theorem setMbx_pwu : (setMbx k v s).pwu = s.pwu := rfl
@[simp] theorem setMbx_kvDropped : (setMbx k v s).kvDropped = s.kvDropped := rfl
@[simp] theorem setMbx_land : (setMbx k v s).land = s.land := rfl
@[simp] theorem setMbx_aper : (setMbx k v s).aper = s.aper := rfl
@[simp] theorem setMbx_windows : (setMbx k v s).windows = s.windows := rfl
@[simp] theorem setMbx_partners : (setMbx k v s).partners = s.partners := rfl
@[simp] theorem setMbx_funcs : (setMbx k v s).funcs = s.funcs := rfl
@[simp] theorem setMbx_ports : (setMbx k v s).ports = s.ports := rfl
@[simp] theorem setMbx_owner : (setMbx k v s).owner = s.owner := rfl
@[simp] theorem setMbx_offer : (setMbx k v s).offer = s.offer := rfl
@[simp] theorem setMbx_acked : (setMbx k v s).acked = s.acked := rfl
@[simp] theorem setMbx_cmds : (setMbx k v s).cmds = s.cmds := rfl
@[simp] theorem setMbx_eccCfg : (setMbx k v s).eccCfg = s.eccCfg := rfl
@[simp] theorem setMbx_eccWritten : (setMbx k v s).eccWritten = s.eccWritten := rfl
@[simp] theorem setMbx_leakAt : (setMbx k v s).leakAt = s.leakAt := rfl
@[simp] theorem setMbx_ecc : (setMbx k v s).ecc = s.ecc := rfl
@[simp] theorem setMbx_dies : (setMbx k v s).dies = s.dies := rfl
@[simp] theorem setMbx_fences : (setMbx k v s).fences = s.fences := rfl
@[simp] theorem setMbx_hubA : (setMbx k v s).hubA = s.hubA := rfl
@[simp] theorem setMbx_hubB : (setMbx k v s).hubB = s.hubB := rfl
@[simp] theorem setMbx_rails : (setMbx k v s).rails = s.rails := rfl
@[simp] theorem setMbx_clock : (setMbx k v s).clock = s.clock := rfl
@[simp] theorem setMbx_thermal : (setMbx k v s).thermal = s.thermal := rfl
@[simp] theorem setMbx_power : (setMbx k v s).power = s.power := rfl
@[simp] theorem setMbx_sec : (setMbx k v s).sec = s.sec := rfl
@[simp] theorem setMbx_fw : (setMbx k v s).fw = s.fw := rfl
@[simp] theorem setMbx_mgmt : (setMbx k v s).mgmt = s.mgmt := rfl
@[simp] theorem setMbx_jtag : (setMbx k v s).jtag = s.jtag := rfl
@[simp] theorem setMbx_pins : (setMbx k v s).pins = s.pins := rfl
@[simp] theorem setMbx_out : (setMbx k v s).out = s.out := rfl
@[simp] theorem setMbx_freeIdx : (setMbx k v s).freeIdx = s.freeIdx := rfl
end

section
variable (v : Out) (s : State)
@[simp] theorem emit_pending : (emit v s).pending = s.pending := rfl
@[simp] theorem emit_mem : (emit v s).mem = s.mem := rfl
@[simp] theorem emit_zeroed : (emit v s).zeroed = s.zeroed := rfl
@[simp] theorem emit_poison : (emit v s).poison = s.poison := rfl
@[simp] theorem emit_dramErr : (emit v s).dramErr = s.dramErr := rfl
@[simp] theorem emit_sramErr : (emit v s).sramErr = s.sramErr := rfl
@[simp] theorem emit_fabric : (emit v s).fabric = s.fabric := rfl
@[simp] theorem emit_mxFmt : (emit v s).mxFmt = s.mxFmt := rfl
@[simp] theorem emit_stkFmt : (emit v s).stkFmt = s.stkFmt := rfl
@[simp] theorem emit_tiles : (emit v s).tiles = s.tiles := rfl
@[simp] theorem emit_tileRuns : (emit v s).tileRuns = s.tileRuns := rfl
@[simp] theorem emit_engines : (emit v s).engines = s.engines := rfl
@[simp] theorem emit_flights : (emit v s).flights = s.flights := rfl
@[simp] theorem emit_portq : (emit v s).portq = s.portq := rfl
@[simp] theorem emit_pods : (emit v s).pods = s.pods := rfl
@[simp] theorem emit_graphs : (emit v s).graphs = s.graphs := rfl
@[simp] theorem emit_nextGraph : (emit v s).nextGraph = s.nextGraph := rfl
@[simp] theorem emit_insts : (emit v s).insts = s.insts := rfl
@[simp] theorem emit_regions : (emit v s).regions = s.regions := rfl
@[simp] theorem emit_mirrors : (emit v s).mirrors = s.mirrors := rfl
@[simp] theorem emit_redirects : (emit v s).redirects = s.redirects := rfl
@[simp] theorem emit_streams : (emit v s).streams = s.streams := rfl
@[simp] theorem emit_closeSeq : (emit v s).closeSeq = s.closeSeq := rfl
@[simp] theorem emit_sprout : (emit v s).sprout = s.sprout := rfl
@[simp] theorem emit_pwu : (emit v s).pwu = s.pwu := rfl
@[simp] theorem emit_kvDropped : (emit v s).kvDropped = s.kvDropped := rfl
@[simp] theorem emit_land : (emit v s).land = s.land := rfl
@[simp] theorem emit_aper : (emit v s).aper = s.aper := rfl
@[simp] theorem emit_windows : (emit v s).windows = s.windows := rfl
@[simp] theorem emit_partners : (emit v s).partners = s.partners := rfl
@[simp] theorem emit_mboxes : (emit v s).mboxes = s.mboxes := rfl
@[simp] theorem emit_funcs : (emit v s).funcs = s.funcs := rfl
@[simp] theorem emit_ports : (emit v s).ports = s.ports := rfl
@[simp] theorem emit_owner : (emit v s).owner = s.owner := rfl
@[simp] theorem emit_offer : (emit v s).offer = s.offer := rfl
@[simp] theorem emit_acked : (emit v s).acked = s.acked := rfl
@[simp] theorem emit_cmds : (emit v s).cmds = s.cmds := rfl
@[simp] theorem emit_eccCfg : (emit v s).eccCfg = s.eccCfg := rfl
@[simp] theorem emit_eccWritten : (emit v s).eccWritten = s.eccWritten := rfl
@[simp] theorem emit_leakAt : (emit v s).leakAt = s.leakAt := rfl
@[simp] theorem emit_ecc : (emit v s).ecc = s.ecc := rfl
@[simp] theorem emit_dies : (emit v s).dies = s.dies := rfl
@[simp] theorem emit_fences : (emit v s).fences = s.fences := rfl
@[simp] theorem emit_hubA : (emit v s).hubA = s.hubA := rfl
@[simp] theorem emit_hubB : (emit v s).hubB = s.hubB := rfl
@[simp] theorem emit_rails : (emit v s).rails = s.rails := rfl
@[simp] theorem emit_clock : (emit v s).clock = s.clock := rfl
@[simp] theorem emit_thermal : (emit v s).thermal = s.thermal := rfl
@[simp] theorem emit_power : (emit v s).power = s.power := rfl
@[simp] theorem emit_sec : (emit v s).sec = s.sec := rfl
@[simp] theorem emit_fw : (emit v s).fw = s.fw := rfl
@[simp] theorem emit_mgmt : (emit v s).mgmt = s.mgmt := rfl
@[simp] theorem emit_jtag : (emit v s).jtag = s.jtag := rfl
@[simp] theorem emit_pins : (emit v s).pins = s.pins := rfl
@[simp] theorem emit_freeIdx : (emit v s).freeIdx = s.freeIdx := rfl
end

section
variable (h : Nat) (v : Hub) (s : State)
@[simp] theorem setHub_pending : (setHub h v s).pending = s.pending := by unfold setHub; split <;> rfl
@[simp] theorem setHub_mem : (setHub h v s).mem = s.mem := by unfold setHub; split <;> rfl
@[simp] theorem setHub_zeroed : (setHub h v s).zeroed = s.zeroed := by unfold setHub; split <;> rfl
@[simp] theorem setHub_poison : (setHub h v s).poison = s.poison := by unfold setHub; split <;> rfl
@[simp] theorem setHub_dramErr : (setHub h v s).dramErr = s.dramErr := by unfold setHub; split <;> rfl
@[simp] theorem setHub_sramErr : (setHub h v s).sramErr = s.sramErr := by unfold setHub; split <;> rfl
@[simp] theorem setHub_fabric : (setHub h v s).fabric = s.fabric := by unfold setHub; split <;> rfl
@[simp] theorem setHub_mxFmt : (setHub h v s).mxFmt = s.mxFmt := by unfold setHub; split <;> rfl
@[simp] theorem setHub_stkFmt : (setHub h v s).stkFmt = s.stkFmt := by unfold setHub; split <;> rfl
@[simp] theorem setHub_tiles : (setHub h v s).tiles = s.tiles := by unfold setHub; split <;> rfl
@[simp] theorem setHub_tileRuns : (setHub h v s).tileRuns = s.tileRuns := by unfold setHub; split <;> rfl
@[simp] theorem setHub_engines : (setHub h v s).engines = s.engines := by unfold setHub; split <;> rfl
@[simp] theorem setHub_flights : (setHub h v s).flights = s.flights := by unfold setHub; split <;> rfl
@[simp] theorem setHub_portq : (setHub h v s).portq = s.portq := by unfold setHub; split <;> rfl
@[simp] theorem setHub_pods : (setHub h v s).pods = s.pods := by unfold setHub; split <;> rfl
@[simp] theorem setHub_graphs : (setHub h v s).graphs = s.graphs := by unfold setHub; split <;> rfl
@[simp] theorem setHub_nextGraph : (setHub h v s).nextGraph = s.nextGraph := by unfold setHub; split <;> rfl
@[simp] theorem setHub_insts : (setHub h v s).insts = s.insts := by unfold setHub; split <;> rfl
@[simp] theorem setHub_regions : (setHub h v s).regions = s.regions := by unfold setHub; split <;> rfl
@[simp] theorem setHub_mirrors : (setHub h v s).mirrors = s.mirrors := by unfold setHub; split <;> rfl
@[simp] theorem setHub_redirects : (setHub h v s).redirects = s.redirects := by unfold setHub; split <;> rfl
@[simp] theorem setHub_streams : (setHub h v s).streams = s.streams := by unfold setHub; split <;> rfl
@[simp] theorem setHub_closeSeq : (setHub h v s).closeSeq = s.closeSeq := by unfold setHub; split <;> rfl
@[simp] theorem setHub_sprout : (setHub h v s).sprout = s.sprout := by unfold setHub; split <;> rfl
@[simp] theorem setHub_pwu : (setHub h v s).pwu = s.pwu := by unfold setHub; split <;> rfl
@[simp] theorem setHub_kvDropped : (setHub h v s).kvDropped = s.kvDropped := by unfold setHub; split <;> rfl
@[simp] theorem setHub_land : (setHub h v s).land = s.land := by unfold setHub; split <;> rfl
@[simp] theorem setHub_aper : (setHub h v s).aper = s.aper := by unfold setHub; split <;> rfl
@[simp] theorem setHub_windows : (setHub h v s).windows = s.windows := by unfold setHub; split <;> rfl
@[simp] theorem setHub_partners : (setHub h v s).partners = s.partners := by unfold setHub; split <;> rfl
@[simp] theorem setHub_mboxes : (setHub h v s).mboxes = s.mboxes := by unfold setHub; split <;> rfl
@[simp] theorem setHub_funcs : (setHub h v s).funcs = s.funcs := by unfold setHub; split <;> rfl
@[simp] theorem setHub_ports : (setHub h v s).ports = s.ports := by unfold setHub; split <;> rfl
@[simp] theorem setHub_owner : (setHub h v s).owner = s.owner := by unfold setHub; split <;> rfl
@[simp] theorem setHub_offer : (setHub h v s).offer = s.offer := by unfold setHub; split <;> rfl
@[simp] theorem setHub_acked : (setHub h v s).acked = s.acked := by unfold setHub; split <;> rfl
@[simp] theorem setHub_cmds : (setHub h v s).cmds = s.cmds := by unfold setHub; split <;> rfl
@[simp] theorem setHub_eccCfg : (setHub h v s).eccCfg = s.eccCfg := by unfold setHub; split <;> rfl
@[simp] theorem setHub_eccWritten : (setHub h v s).eccWritten = s.eccWritten := by unfold setHub; split <;> rfl
@[simp] theorem setHub_leakAt : (setHub h v s).leakAt = s.leakAt := by unfold setHub; split <;> rfl
@[simp] theorem setHub_ecc : (setHub h v s).ecc = s.ecc := by unfold setHub; split <;> rfl
@[simp] theorem setHub_dies : (setHub h v s).dies = s.dies := by unfold setHub; split <;> rfl
@[simp] theorem setHub_fences : (setHub h v s).fences = s.fences := by unfold setHub; split <;> rfl
@[simp] theorem setHub_rails : (setHub h v s).rails = s.rails := by unfold setHub; split <;> rfl
@[simp] theorem setHub_clock : (setHub h v s).clock = s.clock := by unfold setHub; split <;> rfl
@[simp] theorem setHub_thermal : (setHub h v s).thermal = s.thermal := by unfold setHub; split <;> rfl
@[simp] theorem setHub_power : (setHub h v s).power = s.power := by unfold setHub; split <;> rfl
@[simp] theorem setHub_sec : (setHub h v s).sec = s.sec := by unfold setHub; split <;> rfl
@[simp] theorem setHub_fw : (setHub h v s).fw = s.fw := by unfold setHub; split <;> rfl
@[simp] theorem setHub_mgmt : (setHub h v s).mgmt = s.mgmt := by unfold setHub; split <;> rfl
@[simp] theorem setHub_jtag : (setHub h v s).jtag = s.jtag := by unfold setHub; split <;> rfl
@[simp] theorem setHub_pins : (setHub h v s).pins = s.pins := by unfold setHub; split <;> rfl
@[simp] theorem setHub_out : (setHub h v s).out = s.out := by unfold setHub; split <;> rfl
@[simp] theorem setHub_freeIdx : (setHub h v s).freeIdx = s.freeIdx := by unfold setHub; split <;> rfl
end

end Sys2Proof.Machine
end

