-- ==== Sys2Proof/Laws/Tables.lean ====
section
/-! SUPPORT. The tables of the state read back what was written, and other entries stay. -/

namespace Sys2Proof.Machine

open Sys2Proof

variable (s : State)

@[simp] theorem getPod_setPod (p : Nat) (v : Pod) : getPod (setPod p v s) p = v := by simp [getPod, setPod]
theorem getPod_setPod_other {p q : Nat} (v : Pod) (h : q ≠ p) : getPod (setPod p v s) q = getPod s q := SMap.get_set_other _ _ _ h
@[simp] theorem getStream_setStream (p : Nat) (v : Stream) : getStream (setStream p v s) p = v := by simp [getStream, setStream]
theorem getStream_setStream_other {p q : Nat} (v : Stream) (h : q ≠ p) : getStream (setStream p v s) q = getStream s q :=
  SMap.get_set_other _ _ _ h
@[simp] theorem getRegion_setRegion (p : Nat) (v : Option Region) : getRegion (setRegion p v s) p = v := by simp [getRegion, setRegion]
theorem getRegion_setRegion_other {p q : Nat} (v : Option Region) (h : q ≠ p) : getRegion (setRegion p v s) q = getRegion s q :=
  SMap.get_set_other _ _ _ h
@[simp] theorem getMirror_setMirror (p : Nat) (v : Option Mirror) : getMirror (setMirror p v s) p = v := by simp [getMirror, setMirror]
@[simp] theorem getLink_setLink (p : Nat) (v : Link) : getLink (setLink p v s) p = v := by simp [getLink, setLink]
theorem getLink_setLink_other {p q : Nat} (v : Link) (h : q ≠ p) : getLink (setLink p v s) q = getLink s q := SMap.get_set_other _ _ _ h
@[simp] theorem getFunc_setFunc (p : Nat) (v : Func) : getFunc (setFunc p v s) p = v := by simp [getFunc, setFunc]
theorem getFunc_setFunc_other {p q : Nat} (v : Func) (h : q ≠ p) : getFunc (setFunc p v s) q = getFunc s q := SMap.get_set_other _ _ _ h
@[simp] theorem getPort_setPort (p : Nat) (v : Port) : getPort (setPort p v s) p = v := by simp [getPort, setPort]
theorem getPort_setPort_other {p q : Nat} (v : Port) (h : q ≠ p) : getPort (setPort p v s) q = getPort s q := SMap.get_set_other _ _ _ h
@[simp] theorem getPartner_setPartner (p : Nat) (v : Partner) : getPartner (setPartner p v s) p = v := by simp [getPartner, setPartner]
@[simp] theorem getWindow_setWindow (p : Nat) (v : PeerWindow) : getWindow (setWindow p v s) p = v := by simp [getWindow, setWindow]
@[simp] theorem getTile_setTile (p : Nat) (v : TileStat) : getTile (setTile p v s) p = v := by simp [getTile, setTile]
theorem getTile_setTile_other {p q : Nat} (v : TileStat) (h : q ≠ p) : getTile (setTile p v s) q = getTile s q := SMap.get_set_other _ _ _ h
@[simp] theorem getDie_setDie (p : Nat) (v : DieMap) : getDie (setDie p v s) p = v := by simp [getDie, setDie]
theorem getDie_setDie_other {p q : Nat} (v : DieMap) (h : q ≠ p) : getDie (setDie p v s) q = getDie s q := SMap.get_set_other _ _ _ h
@[simp] theorem getRail_setRail (p : Nat) (v : RailState) : getRail (setRail p v s) p = v := by simp [getRail, setRail]
theorem getRail_setRail_other {p q : Nat} (v : RailState) (h : q ≠ p) : getRail (setRail p v s) q = getRail s q := SMap.get_set_other _ _ _ h
@[simp] theorem getMbx_setMbx (m : Mbx) (v : Mailbox) : getMbx (setMbx m v s) m = v := by simp [getMbx, setMbx]
theorem getMbx_setMbx_other {m n : Mbx} (v : Mailbox) (h : mbxKey n ≠ mbxKey m) : getMbx (setMbx m v s) n = getMbx s n :=
  SMap.get_set_other _ _ _ h

@[simp] theorem getHub_setHub (h : Nat) (v : Hub) : getHub (setHub h v s) h = v := by
  unfold getHub setHub
  split <;> simp

end Sys2Proof.Machine
end

