-- ==== Sys2Proof/Laws/Events.lean ====
section
/-! SUPPORT. What posting an event or a completion can do: rings, vectors, mailboxes and outputs, and nothing else. -/

namespace Sys2Proof.Machine

open Sys2Proof

theorem postTo_frame (fn code : Nat) (pod : Option Nat) (d0 d1 : Nat) (s : State) :
    postTo fn code pod d0 d1 s = { s with funcs := (postTo fn code pod d0 d1 s).funcs, out := (postTo fn code pod d0 d1 s).out } := by
  unfold postTo
  dsimp only
  split
  · rfl
  · split <;> rfl

theorem postDevice_frame (code d0 d1 : Nat) (s : State) :
    postDevice code d0 d1 s = { s with funcs := (postDevice code d0 d1 s).funcs, out := (postDevice code d0 d1 s).out } := by
  have h : postDevice code d0 d1 s = postTo 3 code none d0 d1 (postTo 2 code none d0 d1 (postTo 1 code none d0 d1 (postTo 0 code none d0 d1 s))) := rfl
  rw [h, postTo_frame 3, postTo_frame 2, postTo_frame 1, postTo_frame 0]

/-- Two stretches of posting are one. -/
theorem reporting_trans {s t u : State} (h : t = { s with funcs := t.funcs, out := t.out }) (k : u = { t with funcs := u.funcs, out := u.out }) :
    u = { s with funcs := u.funcs, out := u.out } := by
  rw [k, h]

theorem postPod_frame (p code d0 d1 : Nat) (s : State) :
    postPod p code d0 d1 s = { s with funcs := (postPod p code d0 d1 s).funcs, out := (postPod p code d0 d1 s).out } := by
  have step (o : Option Nat) (g : Nat → Nat) (s : State) :
      (match o with | some o => postTo (g o) code (some p) d0 d1 s | none => s) =
        { s with funcs := (match o with | some o => postTo (g o) code (some p) d0 d1 s | none => s).funcs,
                 out := (match o with | some o => postTo (g o) code (some p) d0 d1 s | none => s).out } := by
    cases o with
    | none => rfl
    | some o => exact postTo_frame (g o) code (some p) d0 d1 s
  exact reporting_trans (step (getPod s p).vf (4 + ·) s) (step _ (·) _)

theorem postComp_frame (tok : CmdTok) (k : CKind) (r : Nat) (st : Status) (v0 v1 : Nat) (s : State) :
    postComp tok k r st v0 v1 s = { s with mboxes := (postComp tok k r st v0 v1 s).mboxes, funcs := (postComp tok k r st v0 v1 s).funcs, out := (postComp tok k r st v0 v1 s).out } := by
  unfold postComp
  dsimp only
  split <;> rfl

@[simp] theorem postTo_pending (fn c : Nat) (p : Option Nat) (d e : Nat) (s : State) : (postTo fn c p d e s).pending = s.pending := by rw [postTo_frame]
@[simp] theorem postDevice_pending (c d e : Nat) (s : State) : (postDevice c d e s).pending = s.pending := by rw [postDevice_frame]
@[simp] theorem postPod_pending (p c d e : Nat) (s : State) : (postPod p c d e s).pending = s.pending := by rw [postPod_frame]
@[simp] theorem postComp_pending (k : CmdTok) (c : CKind) (r : Nat) (st : Status) (v w : Nat) (s : State) : (postComp k c r st v w s).pending = s.pending := by rw [postComp_frame]
@[simp] theorem postTo_mem (fn c : Nat) (p : Option Nat) (d e : Nat) (s : State) : (postTo fn c p d e s).mem = s.mem := by rw [postTo_frame]
@[simp] theorem postDevice_mem (c d e : Nat) (s : State) : (postDevice c d e s).mem = s.mem := by rw [postDevice_frame]
@[simp] theorem postPod_mem (p c d e : Nat) (s : State) : (postPod p c d e s).mem = s.mem := by rw [postPod_frame]
@[simp] theorem postComp_mem (k : CmdTok) (c : CKind) (r : Nat) (st : Status) (v w : Nat) (s : State) : (postComp k c r st v w s).mem = s.mem := by rw [postComp_frame]
@[simp] theorem postTo_zeroed (fn c : Nat) (p : Option Nat) (d e : Nat) (s : State) : (postTo fn c p d e s).zeroed = s.zeroed := by rw [postTo_frame]
@[simp] theorem postDevice_zeroed (c d e : Nat) (s : State) : (postDevice c d e s).zeroed = s.zeroed := by rw [postDevice_frame]
@[simp] theorem postPod_zeroed (p c d e : Nat) (s : State) : (postPod p c d e s).zeroed = s.zeroed := by rw [postPod_frame]
@[simp] theorem postComp_zeroed (k : CmdTok) (c : CKind) (r : Nat) (st : Status) (v w : Nat) (s : State) : (postComp k c r st v w s).zeroed = s.zeroed := by rw [postComp_frame]
@[simp] theorem postTo_poison (fn c : Nat) (p : Option Nat) (d e : Nat) (s : State) : (postTo fn c p d e s).poison = s.poison := by rw [postTo_frame]
@[simp] theorem postDevice_poison (c d e : Nat) (s : State) : (postDevice c d e s).poison = s.poison := by rw [postDevice_frame]
@[simp] theorem postPod_poison (p c d e : Nat) (s : State) : (postPod p c d e s).poison = s.poison := by rw [postPod_frame]
@[simp] theorem postComp_poison (k : CmdTok) (c : CKind) (r : Nat) (st : Status) (v w : Nat) (s : State) : (postComp k c r st v w s).poison = s.poison := by rw [postComp_frame]
@[simp] theorem postTo_dramErr (fn c : Nat) (p : Option Nat) (d e : Nat) (s : State) : (postTo fn c p d e s).dramErr = s.dramErr := by rw [postTo_frame]
@[simp] theorem postDevice_dramErr (c d e : Nat) (s : State) : (postDevice c d e s).dramErr = s.dramErr := by rw [postDevice_frame]
@[simp] theorem postPod_dramErr (p c d e : Nat) (s : State) : (postPod p c d e s).dramErr = s.dramErr := by rw [postPod_frame]
@[simp] theorem postComp_dramErr (k : CmdTok) (c : CKind) (r : Nat) (st : Status) (v w : Nat) (s : State) : (postComp k c r st v w s).dramErr = s.dramErr := by rw [postComp_frame]
@[simp] theorem postTo_sramErr (fn c : Nat) (p : Option Nat) (d e : Nat) (s : State) : (postTo fn c p d e s).sramErr = s.sramErr := by rw [postTo_frame]
@[simp] theorem postDevice_sramErr (c d e : Nat) (s : State) : (postDevice c d e s).sramErr = s.sramErr := by rw [postDevice_frame]
@[simp] theorem postPod_sramErr (p c d e : Nat) (s : State) : (postPod p c d e s).sramErr = s.sramErr := by rw [postPod_frame]
@[simp] theorem postComp_sramErr (k : CmdTok) (c : CKind) (r : Nat) (st : Status) (v w : Nat) (s : State) : (postComp k c r st v w s).sramErr = s.sramErr := by rw [postComp_frame]
@[simp] theorem postTo_fabric (fn c : Nat) (p : Option Nat) (d e : Nat) (s : State) : (postTo fn c p d e s).fabric = s.fabric := by rw [postTo_frame]
@[simp] theorem postDevice_fabric (c d e : Nat) (s : State) : (postDevice c d e s).fabric = s.fabric := by rw [postDevice_frame]
@[simp] theorem postPod_fabric (p c d e : Nat) (s : State) : (postPod p c d e s).fabric = s.fabric := by rw [postPod_frame]
@[simp] theorem postComp_fabric (k : CmdTok) (c : CKind) (r : Nat) (st : Status) (v w : Nat) (s : State) : (postComp k c r st v w s).fabric = s.fabric := by rw [postComp_frame]
@[simp] theorem postTo_mxFmt (fn c : Nat) (p : Option Nat) (d e : Nat) (s : State) : (postTo fn c p d e s).mxFmt = s.mxFmt := by rw [postTo_frame]
@[simp] theorem postDevice_mxFmt (c d e : Nat) (s : State) : (postDevice c d e s).mxFmt = s.mxFmt := by rw [postDevice_frame]
@[simp] theorem postPod_mxFmt (p c d e : Nat) (s : State) : (postPod p c d e s).mxFmt = s.mxFmt := by rw [postPod_frame]
@[simp] theorem postComp_mxFmt (k : CmdTok) (c : CKind) (r : Nat) (st : Status) (v w : Nat) (s : State) : (postComp k c r st v w s).mxFmt = s.mxFmt := by rw [postComp_frame]
@[simp] theorem postTo_stkFmt (fn c : Nat) (p : Option Nat) (d e : Nat) (s : State) : (postTo fn c p d e s).stkFmt = s.stkFmt := by rw [postTo_frame]
@[simp] theorem postDevice_stkFmt (c d e : Nat) (s : State) : (postDevice c d e s).stkFmt = s.stkFmt := by rw [postDevice_frame]
@[simp] theorem postPod_stkFmt (p c d e : Nat) (s : State) : (postPod p c d e s).stkFmt = s.stkFmt := by rw [postPod_frame]
@[simp] theorem postComp_stkFmt (k : CmdTok) (c : CKind) (r : Nat) (st : Status) (v w : Nat) (s : State) : (postComp k c r st v w s).stkFmt = s.stkFmt := by rw [postComp_frame]
@[simp] theorem postTo_tiles (fn c : Nat) (p : Option Nat) (d e : Nat) (s : State) : (postTo fn c p d e s).tiles = s.tiles := by rw [postTo_frame]
@[simp] theorem postDevice_tiles (c d e : Nat) (s : State) : (postDevice c d e s).tiles = s.tiles := by rw [postDevice_frame]
@[simp] theorem postPod_tiles (p c d e : Nat) (s : State) : (postPod p c d e s).tiles = s.tiles := by rw [postPod_frame]
@[simp] theorem postComp_tiles (k : CmdTok) (c : CKind) (r : Nat) (st : Status) (v w : Nat) (s : State) : (postComp k c r st v w s).tiles = s.tiles := by rw [postComp_frame]
@[simp] theorem postTo_tileRuns (fn c : Nat) (p : Option Nat) (d e : Nat) (s : State) : (postTo fn c p d e s).tileRuns = s.tileRuns := by rw [postTo_frame]
@[simp] theorem postDevice_tileRuns (c d e : Nat) (s : State) : (postDevice c d e s).tileRuns = s.tileRuns := by rw [postDevice_frame]
@[simp] theorem postPod_tileRuns (p c d e : Nat) (s : State) : (postPod p c d e s).tileRuns = s.tileRuns := by rw [postPod_frame]
@[simp] theorem postComp_tileRuns (k : CmdTok) (c : CKind) (r : Nat) (st : Status) (v w : Nat) (s : State) : (postComp k c r st v w s).tileRuns = s.tileRuns := by rw [postComp_frame]
@[simp] theorem postTo_engines (fn c : Nat) (p : Option Nat) (d e : Nat) (s : State) : (postTo fn c p d e s).engines = s.engines := by rw [postTo_frame]
@[simp] theorem postDevice_engines (c d e : Nat) (s : State) : (postDevice c d e s).engines = s.engines := by rw [postDevice_frame]
@[simp] theorem postPod_engines (p c d e : Nat) (s : State) : (postPod p c d e s).engines = s.engines := by rw [postPod_frame]
@[simp] theorem postComp_engines (k : CmdTok) (c : CKind) (r : Nat) (st : Status) (v w : Nat) (s : State) : (postComp k c r st v w s).engines = s.engines := by rw [postComp_frame]
@[simp] theorem postTo_flights (fn c : Nat) (p : Option Nat) (d e : Nat) (s : State) : (postTo fn c p d e s).flights = s.flights := by rw [postTo_frame]
@[simp] theorem postDevice_flights (c d e : Nat) (s : State) : (postDevice c d e s).flights = s.flights := by rw [postDevice_frame]
@[simp] theorem postPod_flights (p c d e : Nat) (s : State) : (postPod p c d e s).flights = s.flights := by rw [postPod_frame]
@[simp] theorem postComp_flights (k : CmdTok) (c : CKind) (r : Nat) (st : Status) (v w : Nat) (s : State) : (postComp k c r st v w s).flights = s.flights := by rw [postComp_frame]
@[simp] theorem postTo_portq (fn c : Nat) (p : Option Nat) (d e : Nat) (s : State) : (postTo fn c p d e s).portq = s.portq := by rw [postTo_frame]
@[simp] theorem postDevice_portq (c d e : Nat) (s : State) : (postDevice c d e s).portq = s.portq := by rw [postDevice_frame]
@[simp] theorem postPod_portq (p c d e : Nat) (s : State) : (postPod p c d e s).portq = s.portq := by rw [postPod_frame]
@[simp] theorem postComp_portq (k : CmdTok) (c : CKind) (r : Nat) (st : Status) (v w : Nat) (s : State) : (postComp k c r st v w s).portq = s.portq := by rw [postComp_frame]
@[simp] theorem postTo_pods (fn c : Nat) (p : Option Nat) (d e : Nat) (s : State) : (postTo fn c p d e s).pods = s.pods := by rw [postTo_frame]
@[simp] theorem postDevice_pods (c d e : Nat) (s : State) : (postDevice c d e s).pods = s.pods := by rw [postDevice_frame]
@[simp] theorem postPod_pods (p c d e : Nat) (s : State) : (postPod p c d e s).pods = s.pods := by rw [postPod_frame]
@[simp] theorem postComp_pods (k : CmdTok) (c : CKind) (r : Nat) (st : Status) (v w : Nat) (s : State) : (postComp k c r st v w s).pods = s.pods := by rw [postComp_frame]
@[simp] theorem postTo_graphs (fn c : Nat) (p : Option Nat) (d e : Nat) (s : State) : (postTo fn c p d e s).graphs = s.graphs := by rw [postTo_frame]
@[simp] theorem postDevice_graphs (c d e : Nat) (s : State) : (postDevice c d e s).graphs = s.graphs := by rw [postDevice_frame]
@[simp] theorem postPod_graphs (p c d e : Nat) (s : State) : (postPod p c d e s).graphs = s.graphs := by rw [postPod_frame]
@[simp] theorem postComp_graphs (k : CmdTok) (c : CKind) (r : Nat) (st : Status) (v w : Nat) (s : State) : (postComp k c r st v w s).graphs = s.graphs := by rw [postComp_frame]
@[simp] theorem postTo_nextGraph (fn c : Nat) (p : Option Nat) (d e : Nat) (s : State) : (postTo fn c p d e s).nextGraph = s.nextGraph := by rw [postTo_frame]
@[simp] theorem postDevice_nextGraph (c d e : Nat) (s : State) : (postDevice c d e s).nextGraph = s.nextGraph := by rw [postDevice_frame]
@[simp] theorem postPod_nextGraph (p c d e : Nat) (s : State) : (postPod p c d e s).nextGraph = s.nextGraph := by rw [postPod_frame]
@[simp] theorem postComp_nextGraph (k : CmdTok) (c : CKind) (r : Nat) (st : Status) (v w : Nat) (s : State) : (postComp k c r st v w s).nextGraph = s.nextGraph := by rw [postComp_frame]
@[simp] theorem postTo_insts (fn c : Nat) (p : Option Nat) (d e : Nat) (s : State) : (postTo fn c p d e s).insts = s.insts := by rw [postTo_frame]
@[simp] theorem postDevice_insts (c d e : Nat) (s : State) : (postDevice c d e s).insts = s.insts := by rw [postDevice_frame]
@[simp] theorem postPod_insts (p c d e : Nat) (s : State) : (postPod p c d e s).insts = s.insts := by rw [postPod_frame]
@[simp] theorem postComp_insts (k : CmdTok) (c : CKind) (r : Nat) (st : Status) (v w : Nat) (s : State) : (postComp k c r st v w s).insts = s.insts := by rw [postComp_frame]
@[simp] theorem postTo_regions (fn c : Nat) (p : Option Nat) (d e : Nat) (s : State) : (postTo fn c p d e s).regions = s.regions := by rw [postTo_frame]
@[simp] theorem postDevice_regions (c d e : Nat) (s : State) : (postDevice c d e s).regions = s.regions := by rw [postDevice_frame]
@[simp] theorem postPod_regions (p c d e : Nat) (s : State) : (postPod p c d e s).regions = s.regions := by rw [postPod_frame]
@[simp] theorem postComp_regions (k : CmdTok) (c : CKind) (r : Nat) (st : Status) (v w : Nat) (s : State) : (postComp k c r st v w s).regions = s.regions := by rw [postComp_frame]
@[simp] theorem postTo_mirrors (fn c : Nat) (p : Option Nat) (d e : Nat) (s : State) : (postTo fn c p d e s).mirrors = s.mirrors := by rw [postTo_frame]
@[simp] theorem postDevice_mirrors (c d e : Nat) (s : State) : (postDevice c d e s).mirrors = s.mirrors := by rw [postDevice_frame]
@[simp] theorem postPod_mirrors (p c d e : Nat) (s : State) : (postPod p c d e s).mirrors = s.mirrors := by rw [postPod_frame]
@[simp] theorem postComp_mirrors (k : CmdTok) (c : CKind) (r : Nat) (st : Status) (v w : Nat) (s : State) : (postComp k c r st v w s).mirrors = s.mirrors := by rw [postComp_frame]
@[simp] theorem postTo_redirects (fn c : Nat) (p : Option Nat) (d e : Nat) (s : State) : (postTo fn c p d e s).redirects = s.redirects := by rw [postTo_frame]
@[simp] theorem postDevice_redirects (c d e : Nat) (s : State) : (postDevice c d e s).redirects = s.redirects := by rw [postDevice_frame]
@[simp] theorem postPod_redirects (p c d e : Nat) (s : State) : (postPod p c d e s).redirects = s.redirects := by rw [postPod_frame]
@[simp] theorem postComp_redirects (k : CmdTok) (c : CKind) (r : Nat) (st : Status) (v w : Nat) (s : State) : (postComp k c r st v w s).redirects = s.redirects := by rw [postComp_frame]
@[simp] theorem postTo_streams (fn c : Nat) (p : Option Nat) (d e : Nat) (s : State) : (postTo fn c p d e s).streams = s.streams := by rw [postTo_frame]
@[simp] theorem postDevice_streams (c d e : Nat) (s : State) : (postDevice c d e s).streams = s.streams := by rw [postDevice_frame]
@[simp] theorem postPod_streams (p c d e : Nat) (s : State) : (postPod p c d e s).streams = s.streams := by rw [postPod_frame]
@[simp] theorem postComp_streams (k : CmdTok) (c : CKind) (r : Nat) (st : Status) (v w : Nat) (s : State) : (postComp k c r st v w s).streams = s.streams := by rw [postComp_frame]
@[simp] theorem postTo_closeSeq (fn c : Nat) (p : Option Nat) (d e : Nat) (s : State) : (postTo fn c p d e s).closeSeq = s.closeSeq := by rw [postTo_frame]
@[simp] theorem postDevice_closeSeq (c d e : Nat) (s : State) : (postDevice c d e s).closeSeq = s.closeSeq := by rw [postDevice_frame]
@[simp] theorem postPod_closeSeq (p c d e : Nat) (s : State) : (postPod p c d e s).closeSeq = s.closeSeq := by rw [postPod_frame]
@[simp] theorem postComp_closeSeq (k : CmdTok) (c : CKind) (r : Nat) (st : Status) (v w : Nat) (s : State) : (postComp k c r st v w s).closeSeq = s.closeSeq := by rw [postComp_frame]
@[simp] theorem postTo_sprout (fn c : Nat) (p : Option Nat) (d e : Nat) (s : State) : (postTo fn c p d e s).sprout = s.sprout := by rw [postTo_frame]
@[simp] theorem postDevice_sprout (c d e : Nat) (s : State) : (postDevice c d e s).sprout = s.sprout := by rw [postDevice_frame]
@[simp] theorem postPod_sprout (p c d e : Nat) (s : State) : (postPod p c d e s).sprout = s.sprout := by rw [postPod_frame]
@[simp] theorem postComp_sprout (k : CmdTok) (c : CKind) (r : Nat) (st : Status) (v w : Nat) (s : State) : (postComp k c r st v w s).sprout = s.sprout := by rw [postComp_frame]
@[simp] theorem postTo_pwu (fn c : Nat) (p : Option Nat) (d e : Nat) (s : State) : (postTo fn c p d e s).pwu = s.pwu := by rw [postTo_frame]
@[simp] theorem postDevice_pwu (c d e : Nat) (s : State) : (postDevice c d e s).pwu = s.pwu := by rw [postDevice_frame]
@[simp] theorem postPod_pwu (p c d e : Nat) (s : State) : (postPod p c d e s).pwu = s.pwu := by rw [postPod_frame]
@[simp] theorem postComp_pwu (k : CmdTok) (c : CKind) (r : Nat) (st : Status) (v w : Nat) (s : State) : (postComp k c r st v w s).pwu = s.pwu := by rw [postComp_frame]
@[simp] theorem postTo_kvDropped (fn c : Nat) (p : Option Nat) (d e : Nat) (s : State) : (postTo fn c p d e s).kvDropped = s.kvDropped := by rw [postTo_frame]
@[simp] theorem postDevice_kvDropped (c d e : Nat) (s : State) : (postDevice c d e s).kvDropped = s.kvDropped := by rw [postDevice_frame]
@[simp] theorem postPod_kvDropped (p c d e : Nat) (s : State) : (postPod p c d e s).kvDropped = s.kvDropped := by rw [postPod_frame]
@[simp] theorem postComp_kvDropped (k : CmdTok) (c : CKind) (r : Nat) (st : Status) (v w : Nat) (s : State) : (postComp k c r st v w s).kvDropped = s.kvDropped := by rw [postComp_frame]
@[simp] theorem postTo_land (fn c : Nat) (p : Option Nat) (d e : Nat) (s : State) : (postTo fn c p d e s).land = s.land := by rw [postTo_frame]
@[simp] theorem postDevice_land (c d e : Nat) (s : State) : (postDevice c d e s).land = s.land := by rw [postDevice_frame]
@[simp] theorem postPod_land (p c d e : Nat) (s : State) : (postPod p c d e s).land = s.land := by rw [postPod_frame]
@[simp] theorem postComp_land (k : CmdTok) (c : CKind) (r : Nat) (st : Status) (v w : Nat) (s : State) : (postComp k c r st v w s).land = s.land := by rw [postComp_frame]
@[simp] theorem postTo_aper (fn c : Nat) (p : Option Nat) (d e : Nat) (s : State) : (postTo fn c p d e s).aper = s.aper := by rw [postTo_frame]
@[simp] theorem postDevice_aper (c d e : Nat) (s : State) : (postDevice c d e s).aper = s.aper := by rw [postDevice_frame]
@[simp] theorem postPod_aper (p c d e : Nat) (s : State) : (postPod p c d e s).aper = s.aper := by rw [postPod_frame]
@[simp] theorem postComp_aper (k : CmdTok) (c : CKind) (r : Nat) (st : Status) (v w : Nat) (s : State) : (postComp k c r st v w s).aper = s.aper := by rw [postComp_frame]
@[simp] theorem postTo_windows (fn c : Nat) (p : Option Nat) (d e : Nat) (s : State) : (postTo fn c p d e s).windows = s.windows := by rw [postTo_frame]
@[simp] theorem postDevice_windows (c d e : Nat) (s : State) : (postDevice c d e s).windows = s.windows := by rw [postDevice_frame]
@[simp] theorem postPod_windows (p c d e : Nat) (s : State) : (postPod p c d e s).windows = s.windows := by rw [postPod_frame]
@[simp] theorem postComp_windows (k : CmdTok) (c : CKind) (r : Nat) (st : Status) (v w : Nat) (s : State) : (postComp k c r st v w s).windows = s.windows := by rw [postComp_frame]
@[simp] theorem postTo_partners (fn c : Nat) (p : Option Nat) (d e : Nat) (s : State) : (postTo fn c p d e s).partners = s.partners := by rw [postTo_frame]
@[simp] theorem postDevice_partners (c d e : Nat) (s : State) : (postDevice c d e s).partners = s.partners := by rw [postDevice_frame]
@[simp] theorem postPod_partners (p c d e : Nat) (s : State) : (postPod p c d e s).partners = s.partners := by rw [postPod_frame]
@[simp] theorem postComp_partners (k : CmdTok) (c : CKind) (r : Nat) (st : Status) (v w : Nat) (s : State) : (postComp k c r st v w s).partners = s.partners := by rw [postComp_frame]
@[simp] theorem postTo_mboxes (fn c : Nat) (p : Option Nat) (d e : Nat) (s : State) : (postTo fn c p d e s).mboxes = s.mboxes := by rw [postTo_frame]
@[simp] theorem postDevice_mboxes (c d e : Nat) (s : State) : (postDevice c d e s).mboxes = s.mboxes := by rw [postDevice_frame]
@[simp] theorem postPod_mboxes (p c d e : Nat) (s : State) : (postPod p c d e s).mboxes = s.mboxes := by rw [postPod_frame]
@[simp] theorem postTo_ports (fn c : Nat) (p : Option Nat) (d e : Nat) (s : State) : (postTo fn c p d e s).ports = s.ports := by rw [postTo_frame]
@[simp] theorem postDevice_ports (c d e : Nat) (s : State) : (postDevice c d e s).ports = s.ports := by rw [postDevice_frame]
@[simp] theorem postPod_ports (p c d e : Nat) (s : State) : (postPod p c d e s).ports = s.ports := by rw [postPod_frame]
@[simp] theorem postComp_ports (k : CmdTok) (c : CKind) (r : Nat) (st : Status) (v w : Nat) (s : State) : (postComp k c r st v w s).ports = s.ports := by rw [postComp_frame]
@[simp] theorem postTo_owner (fn c : Nat) (p : Option Nat) (d e : Nat) (s : State) : (postTo fn c p d e s).owner = s.owner := by rw [postTo_frame]
@[simp] theorem postDevice_owner (c d e : Nat) (s : State) : (postDevice c d e s).owner = s.owner := by rw [postDevice_frame]
@[simp] theorem postPod_owner (p c d e : Nat) (s : State) : (postPod p c d e s).owner = s.owner := by rw [postPod_frame]
@[simp] theorem postComp_owner (k : CmdTok) (c : CKind) (r : Nat) (st : Status) (v w : Nat) (s : State) : (postComp k c r st v w s).owner = s.owner := by rw [postComp_frame]
@[simp] theorem postTo_offer (fn c : Nat) (p : Option Nat) (d e : Nat) (s : State) : (postTo fn c p d e s).offer = s.offer := by rw [postTo_frame]
@[simp] theorem postDevice_offer (c d e : Nat) (s : State) : (postDevice c d e s).offer = s.offer := by rw [postDevice_frame]
@[simp] theorem postPod_offer (p c d e : Nat) (s : State) : (postPod p c d e s).offer = s.offer := by rw [postPod_frame]
@[simp] theorem postComp_offer (k : CmdTok) (c : CKind) (r : Nat) (st : Status) (v w : Nat) (s : State) : (postComp k c r st v w s).offer = s.offer := by rw [postComp_frame]
@[simp] theorem postTo_acked (fn c : Nat) (p : Option Nat) (d e : Nat) (s : State) : (postTo fn c p d e s).acked = s.acked := by rw [postTo_frame]
@[simp] theorem postDevice_acked (c d e : Nat) (s : State) : (postDevice c d e s).acked = s.acked := by rw [postDevice_frame]
@[simp] theorem postPod_acked (p c d e : Nat) (s : State) : (postPod p c d e s).acked = s.acked := by rw [postPod_frame]
@[simp] theorem postComp_acked (k : CmdTok) (c : CKind) (r : Nat) (st : Status) (v w : Nat) (s : State) : (postComp k c r st v w s).acked = s.acked := by rw [postComp_frame]
@[simp] theorem postTo_cmds (fn c : Nat) (p : Option Nat) (d e : Nat) (s : State) : (postTo fn c p d e s).cmds = s.cmds := by rw [postTo_frame]
@[simp] theorem postDevice_cmds (c d e : Nat) (s : State) : (postDevice c d e s).cmds = s.cmds := by rw [postDevice_frame]
@[simp] theorem postPod_cmds (p c d e : Nat) (s : State) : (postPod p c d e s).cmds = s.cmds := by rw [postPod_frame]
@[simp] theorem postComp_cmds (k : CmdTok) (c : CKind) (r : Nat) (st : Status) (v w : Nat) (s : State) : (postComp k c r st v w s).cmds = s.cmds := by rw [postComp_frame]
@[simp] theorem postTo_eccCfg (fn c : Nat) (p : Option Nat) (d e : Nat) (s : State) : (postTo fn c p d e s).eccCfg = s.eccCfg := by rw [postTo_frame]
@[simp] theorem postDevice_eccCfg (c d e : Nat) (s : State) : (postDevice c d e s).eccCfg = s.eccCfg := by rw [postDevice_frame]
@[simp] theorem postPod_eccCfg (p c d e : Nat) (s : State) : (postPod p c d e s).eccCfg = s.eccCfg := by rw [postPod_frame]
@[simp] theorem postComp_eccCfg (k : CmdTok) (c : CKind) (r : Nat) (st : Status) (v w : Nat) (s : State) : (postComp k c r st v w s).eccCfg = s.eccCfg := by rw [postComp_frame]
@[simp] theorem postTo_eccWritten (fn c : Nat) (p : Option Nat) (d e : Nat) (s : State) : (postTo fn c p d e s).eccWritten = s.eccWritten := by rw [postTo_frame]
@[simp] theorem postDevice_eccWritten (c d e : Nat) (s : State) : (postDevice c d e s).eccWritten = s.eccWritten := by rw [postDevice_frame]
@[simp] theorem postPod_eccWritten (p c d e : Nat) (s : State) : (postPod p c d e s).eccWritten = s.eccWritten := by rw [postPod_frame]
@[simp] theorem postComp_eccWritten (k : CmdTok) (c : CKind) (r : Nat) (st : Status) (v w : Nat) (s : State) : (postComp k c r st v w s).eccWritten = s.eccWritten := by rw [postComp_frame]
@[simp] theorem postTo_leakAt (fn c : Nat) (p : Option Nat) (d e : Nat) (s : State) : (postTo fn c p d e s).leakAt = s.leakAt := by rw [postTo_frame]
@[simp] theorem postDevice_leakAt (c d e : Nat) (s : State) : (postDevice c d e s).leakAt = s.leakAt := by rw [postDevice_frame]
@[simp] theorem postPod_leakAt (p c d e : Nat) (s : State) : (postPod p c d e s).leakAt = s.leakAt := by rw [postPod_frame]
@[simp] theorem postComp_leakAt (k : CmdTok) (c : CKind) (r : Nat) (st : Status) (v w : Nat) (s : State) : (postComp k c r st v w s).leakAt = s.leakAt := by rw [postComp_frame]
@[simp] theorem postTo_ecc (fn c : Nat) (p : Option Nat) (d e : Nat) (s : State) : (postTo fn c p d e s).ecc = s.ecc := by rw [postTo_frame]
@[simp] theorem postDevice_ecc (c d e : Nat) (s : State) : (postDevice c d e s).ecc = s.ecc := by rw [postDevice_frame]
@[simp] theorem postPod_ecc (p c d e : Nat) (s : State) : (postPod p c d e s).ecc = s.ecc := by rw [postPod_frame]
@[simp] theorem postComp_ecc (k : CmdTok) (c : CKind) (r : Nat) (st : Status) (v w : Nat) (s : State) : (postComp k c r st v w s).ecc = s.ecc := by rw [postComp_frame]
@[simp] theorem postTo_dies (fn c : Nat) (p : Option Nat) (d e : Nat) (s : State) : (postTo fn c p d e s).dies = s.dies := by rw [postTo_frame]
@[simp] theorem postDevice_dies (c d e : Nat) (s : State) : (postDevice c d e s).dies = s.dies := by rw [postDevice_frame]
@[simp] theorem postPod_dies (p c d e : Nat) (s : State) : (postPod p c d e s).dies = s.dies := by rw [postPod_frame]
@[simp] theorem postComp_dies (k : CmdTok) (c : CKind) (r : Nat) (st : Status) (v w : Nat) (s : State) : (postComp k c r st v w s).dies = s.dies := by rw [postComp_frame]
@[simp] theorem postTo_fences (fn c : Nat) (p : Option Nat) (d e : Nat) (s : State) : (postTo fn c p d e s).fences = s.fences := by rw [postTo_frame]
@[simp] theorem postDevice_fences (c d e : Nat) (s : State) : (postDevice c d e s).fences = s.fences := by rw [postDevice_frame]
@[simp] theorem postPod_fences (p c d e : Nat) (s : State) : (postPod p c d e s).fences = s.fences := by rw [postPod_frame]
@[simp] theorem postComp_fences (k : CmdTok) (c : CKind) (r : Nat) (st : Status) (v w : Nat) (s : State) : (postComp k c r st v w s).fences = s.fences := by rw [postComp_frame]
@[simp] theorem postTo_hubA (fn c : Nat) (p : Option Nat) (d e : Nat) (s : State) : (postTo fn c p d e s).hubA = s.hubA := by rw [postTo_frame]
@[simp] theorem postDevice_hubA (c d e : Nat) (s : State) : (postDevice c d e s).hubA = s.hubA := by rw [postDevice_frame]
@[simp] theorem postPod_hubA (p c d e : Nat) (s : State) : (postPod p c d e s).hubA = s.hubA := by rw [postPod_frame]
@[simp] theorem postComp_hubA (k : CmdTok) (c : CKind) (r : Nat) (st : Status) (v w : Nat) (s : State) : (postComp k c r st v w s).hubA = s.hubA := by rw [postComp_frame]
@[simp] theorem postTo_hubB (fn c : Nat) (p : Option Nat) (d e : Nat) (s : State) : (postTo fn c p d e s).hubB = s.hubB := by rw [postTo_frame]
@[simp] theorem postDevice_hubB (c d e : Nat) (s : State) : (postDevice c d e s).hubB = s.hubB := by rw [postDevice_frame]
@[simp] theorem postPod_hubB (p c d e : Nat) (s : State) : (postPod p c d e s).hubB = s.hubB := by rw [postPod_frame]
@[simp] theorem postComp_hubB (k : CmdTok) (c : CKind) (r : Nat) (st : Status) (v w : Nat) (s : State) : (postComp k c r st v w s).hubB = s.hubB := by rw [postComp_frame]
@[simp] theorem postTo_rails (fn c : Nat) (p : Option Nat) (d e : Nat) (s : State) : (postTo fn c p d e s).rails = s.rails := by rw [postTo_frame]
@[simp] theorem postDevice_rails (c d e : Nat) (s : State) : (postDevice c d e s).rails = s.rails := by rw [postDevice_frame]
@[simp] theorem postPod_rails (p c d e : Nat) (s : State) : (postPod p c d e s).rails = s.rails := by rw [postPod_frame]
@[simp] theorem postComp_rails (k : CmdTok) (c : CKind) (r : Nat) (st : Status) (v w : Nat) (s : State) : (postComp k c r st v w s).rails = s.rails := by rw [postComp_frame]
@[simp] theorem postTo_clock (fn c : Nat) (p : Option Nat) (d e : Nat) (s : State) : (postTo fn c p d e s).clock = s.clock := by rw [postTo_frame]
@[simp] theorem postDevice_clock (c d e : Nat) (s : State) : (postDevice c d e s).clock = s.clock := by rw [postDevice_frame]
@[simp] theorem postPod_clock (p c d e : Nat) (s : State) : (postPod p c d e s).clock = s.clock := by rw [postPod_frame]
@[simp] theorem postComp_clock (k : CmdTok) (c : CKind) (r : Nat) (st : Status) (v w : Nat) (s : State) : (postComp k c r st v w s).clock = s.clock := by rw [postComp_frame]
@[simp] theorem postTo_thermal (fn c : Nat) (p : Option Nat) (d e : Nat) (s : State) : (postTo fn c p d e s).thermal = s.thermal := by rw [postTo_frame]
@[simp] theorem postDevice_thermal (c d e : Nat) (s : State) : (postDevice c d e s).thermal = s.thermal := by rw [postDevice_frame]
@[simp] theorem postPod_thermal (p c d e : Nat) (s : State) : (postPod p c d e s).thermal = s.thermal := by rw [postPod_frame]
@[simp] theorem postComp_thermal (k : CmdTok) (c : CKind) (r : Nat) (st : Status) (v w : Nat) (s : State) : (postComp k c r st v w s).thermal = s.thermal := by rw [postComp_frame]
@[simp] theorem postTo_power (fn c : Nat) (p : Option Nat) (d e : Nat) (s : State) : (postTo fn c p d e s).power = s.power := by rw [postTo_frame]
@[simp] theorem postDevice_power (c d e : Nat) (s : State) : (postDevice c d e s).power = s.power := by rw [postDevice_frame]
@[simp] theorem postPod_power (p c d e : Nat) (s : State) : (postPod p c d e s).power = s.power := by rw [postPod_frame]
@[simp] theorem postComp_power (k : CmdTok) (c : CKind) (r : Nat) (st : Status) (v w : Nat) (s : State) : (postComp k c r st v w s).power = s.power := by rw [postComp_frame]
@[simp] theorem postTo_sec (fn c : Nat) (p : Option Nat) (d e : Nat) (s : State) : (postTo fn c p d e s).sec = s.sec := by rw [postTo_frame]
@[simp] theorem postDevice_sec (c d e : Nat) (s : State) : (postDevice c d e s).sec = s.sec := by rw [postDevice_frame]
@[simp] theorem postPod_sec (p c d e : Nat) (s : State) : (postPod p c d e s).sec = s.sec := by rw [postPod_frame]
@[simp] theorem postComp_sec (k : CmdTok) (c : CKind) (r : Nat) (st : Status) (v w : Nat) (s : State) : (postComp k c r st v w s).sec = s.sec := by rw [postComp_frame]
@[simp] theorem postTo_fw (fn c : Nat) (p : Option Nat) (d e : Nat) (s : State) : (postTo fn c p d e s).fw = s.fw := by rw [postTo_frame]
@[simp] theorem postDevice_fw (c d e : Nat) (s : State) : (postDevice c d e s).fw = s.fw := by rw [postDevice_frame]
@[simp] theorem postPod_fw (p c d e : Nat) (s : State) : (postPod p c d e s).fw = s.fw := by rw [postPod_frame]
@[simp] theorem postComp_fw (k : CmdTok) (c : CKind) (r : Nat) (st : Status) (v w : Nat) (s : State) : (postComp k c r st v w s).fw = s.fw := by rw [postComp_frame]
@[simp] theorem postTo_mgmt (fn c : Nat) (p : Option Nat) (d e : Nat) (s : State) : (postTo fn c p d e s).mgmt = s.mgmt := by rw [postTo_frame]
@[simp] theorem postDevice_mgmt (c d e : Nat) (s : State) : (postDevice c d e s).mgmt = s.mgmt := by rw [postDevice_frame]
@[simp] theorem postPod_mgmt (p c d e : Nat) (s : State) : (postPod p c d e s).mgmt = s.mgmt := by rw [postPod_frame]
@[simp] theorem postComp_mgmt (k : CmdTok) (c : CKind) (r : Nat) (st : Status) (v w : Nat) (s : State) : (postComp k c r st v w s).mgmt = s.mgmt := by rw [postComp_frame]
@[simp] theorem postTo_jtag (fn c : Nat) (p : Option Nat) (d e : Nat) (s : State) : (postTo fn c p d e s).jtag = s.jtag := by rw [postTo_frame]
@[simp] theorem postDevice_jtag (c d e : Nat) (s : State) : (postDevice c d e s).jtag = s.jtag := by rw [postDevice_frame]
@[simp] theorem postPod_jtag (p c d e : Nat) (s : State) : (postPod p c d e s).jtag = s.jtag := by rw [postPod_frame]
@[simp] theorem postComp_jtag (k : CmdTok) (c : CKind) (r : Nat) (st : Status) (v w : Nat) (s : State) : (postComp k c r st v w s).jtag = s.jtag := by rw [postComp_frame]
@[simp] theorem postTo_pins (fn c : Nat) (p : Option Nat) (d e : Nat) (s : State) : (postTo fn c p d e s).pins = s.pins := by rw [postTo_frame]
@[simp] theorem postDevice_pins (c d e : Nat) (s : State) : (postDevice c d e s).pins = s.pins := by rw [postDevice_frame]
@[simp] theorem postPod_pins (p c d e : Nat) (s : State) : (postPod p c d e s).pins = s.pins := by rw [postPod_frame]
@[simp] theorem postComp_pins (k : CmdTok) (c : CKind) (r : Nat) (st : Status) (v w : Nat) (s : State) : (postComp k c r st v w s).pins = s.pins := by rw [postComp_frame]
@[simp] theorem postTo_freeIdx (fn c : Nat) (p : Option Nat) (d e : Nat) (s : State) : (postTo fn c p d e s).freeIdx = s.freeIdx := by rw [postTo_frame]
@[simp] theorem postDevice_freeIdx (c d e : Nat) (s : State) : (postDevice c d e s).freeIdx = s.freeIdx := by rw [postDevice_frame]
@[simp] theorem postPod_freeIdx (p c d e : Nat) (s : State) : (postPod p c d e s).freeIdx = s.freeIdx := by rw [postPod_frame]
@[simp] theorem postComp_freeIdx (k : CmdTok) (c : CKind) (r : Nat) (st : Status) (v w : Nat) (s : State) : (postComp k c r st v w s).freeIdx = s.freeIdx := by rw [postComp_frame]

end Sys2Proof.Machine
end

