-- ==== Sys2Proof/Laws/Commands.lean ====
section
/-! SUPPORT. Taking a mailbox command, the checks of R323 and the completion: each said once. -/

namespace Sys2Proof.Machine

open Sys2Proof

/-! ### The taken state differs in the acknowledged list alone -/

@[simp] theorem taken_pending (sub : Submission) (s : State) : (taken sub s).pending = s.pending := rfl
@[simp] theorem taken_mem (sub : Submission) (s : State) : (taken sub s).mem = s.mem := rfl
@[simp] theorem taken_zeroed (sub : Submission) (s : State) : (taken sub s).zeroed = s.zeroed := rfl
@[simp] theorem taken_poison (sub : Submission) (s : State) : (taken sub s).poison = s.poison := rfl
@[simp] theorem taken_dramErr (sub : Submission) (s : State) : (taken sub s).dramErr = s.dramErr := rfl
@[simp] theorem taken_sramErr (sub : Submission) (s : State) : (taken sub s).sramErr = s.sramErr := rfl
@[simp] theorem taken_fabric (sub : Submission) (s : State) : (taken sub s).fabric = s.fabric := rfl
@[simp] theorem taken_mxFmt (sub : Submission) (s : State) : (taken sub s).mxFmt = s.mxFmt := rfl
@[simp] theorem taken_stkFmt (sub : Submission) (s : State) : (taken sub s).stkFmt = s.stkFmt := rfl
@[simp] theorem taken_tiles (sub : Submission) (s : State) : (taken sub s).tiles = s.tiles := rfl
@[simp] theorem taken_tileRuns (sub : Submission) (s : State) : (taken sub s).tileRuns = s.tileRuns := rfl
@[simp] theorem taken_engines (sub : Submission) (s : State) : (taken sub s).engines = s.engines := rfl
@[simp] theorem taken_flights (sub : Submission) (s : State) : (taken sub s).flights = s.flights := rfl
@[simp] theorem taken_portq (sub : Submission) (s : State) : (taken sub s).portq = s.portq := rfl
@[simp] theorem taken_pods (sub : Submission) (s : State) : (taken sub s).pods = s.pods := rfl
@[simp] theorem taken_graphs (sub : Submission) (s : State) : (taken sub s).graphs = s.graphs := rfl
@[simp] theorem taken_nextGraph (sub : Submission) (s : State) : (taken sub s).nextGraph = s.nextGraph := rfl
@[simp] theorem taken_insts (sub : Submission) (s : State) : (taken sub s).insts = s.insts := rfl
@[simp] theorem taken_regions (sub : Submission) (s : State) : (taken sub s).regions = s.regions := rfl
@[simp] theorem taken_mirrors (sub : Submission) (s : State) : (taken sub s).mirrors = s.mirrors := rfl
@[simp] theorem taken_redirects (sub : Submission) (s : State) : (taken sub s).redirects = s.redirects := rfl
@[simp] theorem taken_streams (sub : Submission) (s : State) : (taken sub s).streams = s.streams := rfl
@[simp] theorem taken_closeSeq (sub : Submission) (s : State) : (taken sub s).closeSeq = s.closeSeq := rfl
@[simp] theorem taken_sprout (sub : Submission) (s : State) : (taken sub s).sprout = s.sprout := rfl
@[simp] theorem taken_pwu (sub : Submission) (s : State) : (taken sub s).pwu = s.pwu := rfl
@[simp] theorem taken_kvDropped (sub : Submission) (s : State) : (taken sub s).kvDropped = s.kvDropped := rfl
@[simp] theorem taken_land (sub : Submission) (s : State) : (taken sub s).land = s.land := rfl
@[simp] theorem taken_aper (sub : Submission) (s : State) : (taken sub s).aper = s.aper := rfl
@[simp] theorem taken_windows (sub : Submission) (s : State) : (taken sub s).windows = s.windows := rfl
@[simp] theorem taken_partners (sub : Submission) (s : State) : (taken sub s).partners = s.partners := rfl
@[simp] theorem taken_mboxes (sub : Submission) (s : State) : (taken sub s).mboxes = s.mboxes := rfl
@[simp] theorem taken_funcs (sub : Submission) (s : State) : (taken sub s).funcs = s.funcs := rfl
@[simp] theorem taken_ports (sub : Submission) (s : State) : (taken sub s).ports = s.ports := rfl
@[simp] theorem taken_owner (sub : Submission) (s : State) : (taken sub s).owner = s.owner := rfl
@[simp] theorem taken_offer (sub : Submission) (s : State) : (taken sub s).offer = s.offer := rfl
@[simp] theorem taken_cmds (sub : Submission) (s : State) : (taken sub s).cmds = s.cmds := rfl
@[simp] theorem taken_eccCfg (sub : Submission) (s : State) : (taken sub s).eccCfg = s.eccCfg := rfl
@[simp] theorem taken_eccWritten (sub : Submission) (s : State) : (taken sub s).eccWritten = s.eccWritten := rfl
@[simp] theorem taken_leakAt (sub : Submission) (s : State) : (taken sub s).leakAt = s.leakAt := rfl
@[simp] theorem taken_ecc (sub : Submission) (s : State) : (taken sub s).ecc = s.ecc := rfl
@[simp] theorem taken_dies (sub : Submission) (s : State) : (taken sub s).dies = s.dies := rfl
@[simp] theorem taken_fences (sub : Submission) (s : State) : (taken sub s).fences = s.fences := rfl
@[simp] theorem taken_hubA (sub : Submission) (s : State) : (taken sub s).hubA = s.hubA := rfl
@[simp] theorem taken_hubB (sub : Submission) (s : State) : (taken sub s).hubB = s.hubB := rfl
@[simp] theorem taken_rails (sub : Submission) (s : State) : (taken sub s).rails = s.rails := rfl
@[simp] theorem taken_clock (sub : Submission) (s : State) : (taken sub s).clock = s.clock := rfl
@[simp] theorem taken_thermal (sub : Submission) (s : State) : (taken sub s).thermal = s.thermal := rfl
@[simp] theorem taken_power (sub : Submission) (s : State) : (taken sub s).power = s.power := rfl
@[simp] theorem taken_sec (sub : Submission) (s : State) : (taken sub s).sec = s.sec := rfl
@[simp] theorem taken_fw (sub : Submission) (s : State) : (taken sub s).fw = s.fw := rfl
@[simp] theorem taken_mgmt (sub : Submission) (s : State) : (taken sub s).mgmt = s.mgmt := rfl
@[simp] theorem taken_jtag (sub : Submission) (s : State) : (taken sub s).jtag = s.jtag := rfl
@[simp] theorem taken_pins (sub : Submission) (s : State) : (taken sub s).pins = s.pins := rfl
@[simp] theorem taken_out (sub : Submission) (s : State) : (taken sub s).out = s.out := rfl
@[simp] theorem taken_freeIdx (sub : Submission) (s : State) : (taken sub s).freeIdx = s.freeIdx := rfl
@[simp] theorem getPod_taken (sub : Submission) (s : State) (p : Nat) : getPod (taken sub s) p = getPod s p := rfl
@[simp] theorem getStream_taken (sub : Submission) (s : State) (p : Nat) : getStream (taken sub s) p = getStream s p := rfl
@[simp] theorem getRegion_taken (sub : Submission) (s : State) (p : Nat) : getRegion (taken sub s) p = getRegion s p := rfl
@[simp] theorem getMirror_taken (sub : Submission) (s : State) (p : Nat) : getMirror (taken sub s) p = getMirror s p := rfl
@[simp] theorem getLink_taken (sub : Submission) (s : State) (p : Nat) : getLink (taken sub s) p = getLink s p := rfl
@[simp] theorem getFunc_taken (sub : Submission) (s : State) (p : Nat) : getFunc (taken sub s) p = getFunc s p := rfl
@[simp] theorem getPort_taken (sub : Submission) (s : State) (p : Nat) : getPort (taken sub s) p = getPort s p := rfl
@[simp] theorem getPartner_taken (sub : Submission) (s : State) (p : Nat) : getPartner (taken sub s) p = getPartner s p := rfl
@[simp] theorem getWindow_taken (sub : Submission) (s : State) (p : Nat) : getWindow (taken sub s) p = getWindow s p := rfl
@[simp] theorem getTile_taken (sub : Submission) (s : State) (p : Nat) : getTile (taken sub s) p = getTile s p := rfl
@[simp] theorem getDie_taken (sub : Submission) (s : State) (p : Nat) : getDie (taken sub s) p = getDie s p := rfl
@[simp] theorem getRail_taken (sub : Submission) (s : State) (p : Nat) : getRail (taken sub s) p = getRail s p := rfl
@[simp] theorem getHub_taken (sub : Submission) (s : State) (p : Nat) : getHub (taken sub s) p = getHub s p := rfl
@[simp] theorem boundPod_taken (sub : Submission) (s : State) (p : Nat) : boundPod (taken sub s) p = boundPod s p := rfl
@[simp] theorem podOfCore_taken (sub : Submission) (s : State) (p : Nat) : podOfCore (taken sub s) p = podOfCore s p := rfl
@[simp] theorem podOfSlice_taken (sub : Submission) (s : State) (p : Nat) : podOfSlice (taken sub s) p = podOfSlice s p := rfl
@[simp] theorem hubFenced_taken (sub : Submission) (s : State) (p : Nat) : hubFenced (taken sub s) p = hubFenced s p := rfl
@[simp] theorem ready_taken (sub : Submission) (s : State) (p : Nat) : ready (taken sub s) p = ready s p := rfl
@[simp] theorem podMissing_taken (sub : Submission) (s : State) (p : Option Nat) : podMissing (taken sub s) p = podMissing s p := rfl
@[simp] theorem podBlocked_taken (sub : Submission) (s : State) (p : Option Nat) : podBlocked (taken sub s) p = podBlocked s p := rfl
@[simp] theorem getMbx_taken (sub : Submission) (s : State) (m : Mbx) : getMbx (taken sub s) m = getMbx s m := rfl
@[simp] theorem now_taken (sub : Submission) (s : State) : now (taken sub s) = now s := rfl
@[simp] theorem lifecycle_taken (sub : Submission) (s : State) : lifecycle (taken sub s) = lifecycle s := rfl

/-- A row that takes its command runs its body on it. -/
theorem runCmd_takes {sp : Spec} {sel : BitVec 512 → Bool} {sub : Submission} {s : State} (body : CmdTok → State → State)
    (h : Takes sp sel sub s) : runCmd sp sel sub s body = body (tokIn s sub) (taken sub s) := by
  obtain ⟨h1, h2, h3⟩ := h
  unfold runCmd
  rw [h1]
  dsimp only
  rw [if_pos ⟨rfl, h2, h3⟩, ← h2]
  rfl

/-- A row whose submission is not the one to take leaves the state alone (log entry 3). -/
theorem runCmd_other {sp : Spec} {sel : BitVec 512 → Bool} {sub : Submission} {s : State} (body : CmdTok → State → State)
    (h : ∀ a, nextAcked s sub.mbx = some a → ¬(a.1 = sub ∧ entOpcode sub.entry = sp.op ∧ sel sub.entry = true)) :
    runCmd sp sel sub s body = s := by
  unfold runCmd
  cases hf : nextAcked s sub.mbx with
  | none => rfl
  | some a => dsimp only; rw [if_neg (h a hf)]

/-- The checks do not look at the acknowledged list. -/
theorem checkCmd_taken (sp : Spec) (fp : Bool) (sub : Submission) (f k : Bool) (s : State) :
    checkCmd sp fp sub f k (taken sub s) = checkCmd sp fp sub f k s := rfl

theorem guarded_pass {sp : Spec} {fp : Bool} {sub : Submission} {tok : CmdTok} {f k : Bool} {s : State} (home : State → State)
    (h : checkCmd sp fp sub f k s = none) : guarded sp fp sub tok f k s home = home s := by
  unfold guarded; rw [h]

theorem guarded_stop {sp : Spec} {fp : Bool} {sub : Submission} {tok : CmdTok} {f k : Bool} {s : State} {st : Status} (home : State → State)
    (h : checkCmd sp fp sub f k s = some st) : guarded sp fp sub tok f k s home = only sub tok st 0 0 s := by
  unfold guarded; rw [h]

/-- Outputs only grow under a completion. -/
theorem out_postComp (tok : CmdTok) (k : CKind) (r : Nat) (st : Status) (v0 v1 : Nat) (s : State) (o : Out) (h : o ∈ s.out) :
    o ∈ (postComp tok k r st v0 v1 s).out := by
  unfold postComp
  dsimp only
  split
  · exact List.mem_cons_of_mem _ h
  · exact h

theorem out_postTo (fn code : Nat) (pod : Option Nat) (d0 d1 : Nat) (s : State) (o : Out) (h : o ∈ s.out) :
    o ∈ (postTo fn code pod d0 d1 s).out := by
  unfold postTo
  dsimp only
  split
  · exact List.mem_cons_of_mem _ h
  · split <;> exact h

theorem out_postDevice (code d0 d1 : Nat) (s : State) (o : Out) (h : o ∈ s.out) : o ∈ (postDevice code d0 d1 s).out :=
  out_postTo _ _ _ _ _ _ _ (out_postTo _ _ _ _ _ _ _ (out_postTo _ _ _ _ _ _ _ (out_postTo _ _ _ _ _ _ _ h)))

theorem out_postPod (p code d0 d1 : Nat) (s : State) (o : Out) (h : o ∈ s.out) : o ∈ (postPod p code d0 d1 s).out := by
  unfold postPod
  dsimp only
  split
  · split
    · exact out_postTo _ _ _ _ _ _ _ (out_postTo _ _ _ _ _ _ _ h)
    · exact out_postTo _ _ _ _ _ _ _ h
  · split
    · exact out_postTo _ _ _ _ _ _ _ h
    · exact h

/-- A completion of the mailbox's own epoch is written into the next slot. -/
theorem posts_postComp {sub : Submission} {s t : State} (k : CKind) (r : Nat) (st : Status) (v0 v1 : Nat)
    (h : getMbx t sub.mbx = getMbx s sub.mbx) : Posts sub k st v0 v1 s (postComp (tokIn s sub) k r st v0 v1 t) := by
  have he : (tokIn s sub).epoch = (getMbx t sub.mbx).epoch := by rw [h]; rfl
  have hm : (tokIn s sub).mbx = sub.mbx := rfl
  unfold Posts postComp
  dsimp only
  rw [hm, if_pos he, h]
  exact List.mem_cons_self

end Sys2Proof.Machine
end

