-- ==== Sys2Proof/Laws/Engine.lean ====
section
/-! SUPPORT. What engine instructions share, said once: issuing, and writing one register, predicate or accumulator lane by lane. -/

namespace Sys2Proof.Machine

open Sys2Proof

/-! ### Issuing -/

theorem issue_on {op : EngOp} {at_ : Issue} {w : EngFields} {body : Body} {s t : State} {run : EngineRun} {g h : Group}
    (hr : readyGroup op at_ w s = some (run, g)) (hb : body at_.engine run g s = .ok { s := t, g := h, goes := .on }) :
    issue op at_ w body s = advanced op at_ w run g h t := by
  unfold issue advanced
  rw [hr]
  dsimp only
  rw [hb]

theorem issue_to {op : EngOp} {at_ : Issue} {w : EngFields} {body : Body} {s t : State} {run : EngineRun} {g h : Group} {n : Nat}
    (hr : readyGroup op at_ w s = some (run, g)) (hb : body at_.engine run g s = .ok { s := t, g := h, goes := .to n }) :
    issue op at_ w body s = putGroup at_.engine { h with pc := n, late := lateAfter op w g.late } t := by
  unfold issue
  rw [hr]
  dsimp only
  rw [hb]

theorem issue_ends {op : EngOp} {at_ : Issue} {w : EngFields} {body : Body} {s t : State} {run : EngineRun} {g h : Group}
    (hr : readyGroup op at_ w s = some (run, g)) (hb : body at_.engine run g s = .ok { s := t, g := h, goes := .ends }) :
    issue op at_ w body s = endGroup at_.engine at_.slot t := by
  unfold issue
  rw [hr]
  dsimp only
  rw [hb]

/-- A fault ends the node before any effect (R171). -/
theorem issue_fault {op : EngOp} {at_ : Issue} {w : EngFields} {body : Body} {s : State} {run : EngineRun} {g : Group} {c : Nat}
    (hr : readyGroup op at_ w s = some (run, g)) (hb : body at_.engine run g s = .error c) :
    issue op at_ w body s = faultNode run.node c s := by
  unfold issue
  rw [hr]
  dsimp only
  rw [hb]

/-- An instruction that is not the next of a group that may issue does nothing (log entry 3). -/
theorem issue_not_ready {op : EngOp} {at_ : Issue} {w : EngFields} (body : Body) {s : State} (hr : readyGroup op at_ w s = none) :
    issue op at_ w body s = s := by
  unfold issue
  rw [hr]

/-! ### Lanes -/

theorem lane_active {g : Group} {i : Nat} (h : i ∈ activeLanes g) : i < 32 := by
  unfold activeLanes at h
  exact List.mem_range.mp (List.mem_filter.mp h).1

theorem lane_guarded {g : Group} {w : EngFields} {i : Nat} (h : i ∈ guarded_ g w) : i < 32 :=
  lane_active (List.mem_filter.mp h).1

theorem nodup_active (g : Group) : (activeLanes g).Nodup := List.Pairwise.filter _ List.nodup_range

theorem nodup_guarded (g : Group) (w : EngFields) : (guarded_ g w).Nodup := List.Pairwise.filter _ (nodup_active g)

/-! ### One register -/

@[simp] theorem rv_wv_same (g : Group) (i r : Nat) (x : BitVec 32) (po : Bool) : rv (wv i r x po g) i r = x := by
  simp [rv, wv]

@[simp] theorem rpo_wv_same (g : Group) (i r : Nat) (x : BitVec 32) (po : Bool) : rpo (wv i r x po g) i r = po := by
  simp [rpo, wv]

theorem rv_wv_other {g : Group} {i r j q : Nat} (x : BitVec 32) (po : Bool) (hr : r < 64) (hq : q < 64) (h : i ≠ j ∨ r ≠ q) :
    rv (wv j q x po g) i r = rv g i r := by
  unfold rv wv
  dsimp only
  rw [SMap.get_set_other]
  omega

theorem rpo_wv_other {g : Group} {i r j q : Nat} (x : BitVec 32) (po : Bool) (hr : r < 64) (hq : q < 64) (h : i ≠ j ∨ r ≠ q) :
    rpo (wv j q x po g) i r = rpo g i r := by
  unfold rpo wv
  dsimp only
  rw [SMap.get_set_other]
  omega

theorem ppo_wv {g : Group} {i k j q : Nat} (x : BitVec 32) (po : Bool) (hj : j < 32) (hq : q < 64) :
    ppo (wv j q x po g) i k = ppo g i k := by
  unfold ppo wv
  dsimp only
  split
  · rfl
  · rw [SMap.get_set_other]
    omega

@[simp] theorem pv_wv (g : Group) (i k j q : Nat) (x : BitVec 32) (po : Bool) : pv (wv j q x po g) i k = pv g i k := rfl

@[simp] theorem acv_wv (g : Group) (i k j q : Nat) (x : BitVec 32) (po : Bool) : acv (wv j q x po g) i k = acv g i k := rfl

/-- Nothing of lane i differs between two groups but other lanes' registers. -/
def SameLane (i : Nat) (g h : Group) : Prop :=
  (∀ r, r < 64 → rv h i r = rv g i r ∧ rpo h i r = rpo g i r) ∧ (∀ k, k < 8 → ppo h i k = ppo g i k) ∧
    h = { g with v := h.v, poison := h.poison }

/-- A group changed lane by lane, each lane's change a change of that lane's registers and formed from that lane alone: the group
becomes what every lane of the first group gives. -/
theorem regs_lanes {l : List Nat} (hn : l.Nodup) (hl : ∀ i ∈ l, i < 32) (u : Nat → Group → Group)
    (new : Nat → Group → Nat → Option (BitVec 32 × Bool)) (hu : ∀ i g, i < 32 → RegsBecome g (u i g) [i] (fun i r => new i g r))
    (hf : ∀ i g h, i < 32 → SameLane i g h → new i h = new i g) (g : Group) :
    RegsBecome g (eachLane l u g) l (fun i r => new i g r) := by
  induction l generalizing g with
  | nil => exact ⟨fun i r hi hr => by simp [eachLane], fun i k hi hk => rfl, rfl⟩
  | cons a l ih =>
    have ha : a < 32 := hl a (List.mem_cons_self ..)
    have hnl : a ∉ l := (List.nodup_cons.mp hn).1
    obtain ⟨u1, u2, u3⟩ := hu a g ha
    have ho : ∀ i r, i < 32 → r < 64 → i ≠ a → (rv (u a g) i r, rpo (u a g) i r) = (rv g i r, rpo g i r) := fun i r hi hr hia => by
      rw [u1 i r hi hr, if_neg (by simpa using hia)]
    have hg : ∀ i, i < 32 → i ≠ a → new i (u a g) = new i g := fun i hi hia =>
      hf i g _ hi ⟨fun r hr => Prod.mk.inj (ho i r hi hr hia), fun k hk => u2 i k hi hk, u3⟩
    obtain ⟨h1, h2, h3⟩ := ih (List.nodup_cons.mp hn).2 (fun i hi => hl i (List.mem_cons_of_mem _ hi)) (u a g)
    refine ⟨fun i r hi hr => ?_, fun i k hi hk => (h2 i k hi hk).trans (u2 i k hi hk), ?_⟩
    · refine (h1 i r hi hr).trans ?_
      by_cases hia : i = a
      · subst hia
        rw [if_neg hnl, if_pos (List.mem_cons_self ..), u1 i r hi hr, if_pos (List.mem_singleton.mpr rfl)]
      · simp only [ho i r hi hr hia, hg i hi hia, List.mem_cons, hia, false_or]
    · show eachLane l u (u a g) = _
      refine h3.trans ?_
      show _ = { g with v := (eachLane l u (u a g)).v, poison := (eachLane l u (u a g)).poison }
      generalize eachLane l u (u a g) = x
      rw [u3]

theorem regs_wv {i d : Nat} (hi : i < 32) (hd : d < 64) (x : BitVec 32) (po : Bool) (g : Group) :
    RegsBecome g (wv i d x po g) [i] (fun _ r => if r = d then some (x, po) else none) := by
  refine ⟨fun j r hj hr => ?_, fun j k hj hk => ppo_wv _ _ hi hd, rfl⟩
  by_cases hji : j = i
  · subst hji
    rw [if_pos (List.mem_singleton.mpr rfl)]
    by_cases hrd : r = d
    · subst hrd; simp
    · rw [rv_wv_other _ _ hr hd (.inr hrd), rpo_wv_other _ _ hr hd (.inr hrd)]
      simp [hrd]
  · rw [rv_wv_other _ _ hr hd (.inl hji), rpo_wv_other _ _ hr hd (.inl hji), if_neg (by simpa using hji)]

/-- Writing register d of every lane of a list with a value formed from that lane alone. -/
theorem regs_eachLane {l : List Nat} (hn : l.Nodup) (hl : ∀ i ∈ l, i < 32) {d : Nat} (hd : d < 64) (f : Nat → Group → BitVec 32 × Bool)
    (hf : ∀ i g h, i < 32 → SameLane i g h → f i h = f i g) (g : Group) :
    RegsBecome g (eachLane l (fun i h => wv i d (f i h).1 (f i h).2 h) g) l (fun i r => if r = d then some (f i g) else none) :=
  regs_lanes hn hl (fun i h => wv i d (f i h).1 (f i h).2 h) (fun i g r => if r = d then some (f i g) else none)
    (fun i g hi => by
      obtain ⟨h1, h2, h3⟩ := regs_wv hi hd (f i g).1 (f i g).2 g
      refine ⟨fun j r hj hr => (h1 j r hj hr).trans ?_, h2, h3⟩
      by_cases hji : j = i
      · subst hji; rfl
      · rw [if_neg (by simpa using hji), if_neg (by simpa using hji)])
    (fun i g h hi hs => by funext r; rw [hf i g h hi hs]) g

end Sys2Proof.Machine
end

