-- ==== Sys2Proof/Laws/Memory.lean ====
section
/-! SUPPORT. Memory: a read after a write, the bytes a write leaves alone, and the canonical form that every write keeps. -/

namespace Sys2Proof.Machine

open Sys2Proof

/-- The byte that a list of cells holds at an address. -/
def cellByte (z : List (Nat × Nat)) (m : List Host.Cell) (a : Nat) : Byte :=
  (SMap.find m a).getD (if zeroAt z a then 0 else Config.unwritten a)

theorem rawByte_eq (s : State) (a : Nat) : rawByte s a = cellByte s.zeroed s.mem a := rfl

theorem cellByte_putByte_same (z : List (Nat × Nat)) (m : List Host.Cell) (a : Nat) (b : Byte) : cellByte z (putByte z m a b) a = b := by
  unfold cellByte putByte
  split
  · rename_i h; simp [h.1, h.2]
  · simp

theorem cellByte_putByte_other (z : List (Nat × Nat)) (m : List Host.Cell) {a x : Nat} (b : Byte) (h : x ≠ a) :
    cellByte z (putByte z m a b) x = cellByte z m x := by
  unfold cellByte putByte
  split
  · rw [SMap.find_del_other m h]
  · rw [SMap.find_put_other m b h]

/-- A run of byte writes at distinct places from a base: each place holds its byte, every other is as before. -/
theorem cellByte_writes (z : List (Nat × Nat)) (base : Nat) (sel : Nat → Bool) (val : Nat → Byte) (n : Nat) (m : List Host.Cell) (x : Nat) :
    cellByte z ((List.range n).foldl (fun m i => if sel i then putByte z m (base + i) (val i) else m) m) x =
      if base ≤ x ∧ x < base + n ∧ sel (x - base) then val (x - base) else cellByte z m x := by
  induction n with
  | zero => simp; intro h1 h2; omega
  | succ n ih =>
    rw [List.range_succ, List.foldl_append]
    simp only [List.foldl_cons, List.foldl_nil]
    by_cases hx : x = base + n
    · subst hx
      by_cases hs : sel n = true
      · simp [hs, cellByte_putByte_same]
      · rw [if_neg hs, ih]
        simp [hs]
    · by_cases hs : sel n = true
      · rw [if_pos hs, cellByte_putByte_other _ _ _ hx, ih]
        congr 1
        apply propext
        constructor
        · rintro ⟨h1, h2, h3⟩; exact ⟨h1, by omega, h3⟩
        · rintro ⟨h1, h2, h3⟩; exact ⟨h1, by omega, h3⟩
      · rw [if_neg hs, ih]
        congr 1
        apply propext
        constructor
        · rintro ⟨h1, h2, h3⟩; exact ⟨h1, by omega, h3⟩
        · rintro ⟨h1, h2, h3⟩; exact ⟨h1, by omega, h3⟩

/-- The masked bytes of a granule, read back. -/
theorem cellByte_putBytes (z : List (Nat × Nat)) (g : Nat) (mask : BitVec 64) (data : List Byte) (m : List Host.Cell) (x : Nat) :
    cellByte z (putBytes z g mask data m) x =
      if 64 * g ≤ x ∧ x < 64 * g + 64 ∧ mask.getLsbD (x - 64 * g) then nth 0 data (x - 64 * g) else cellByte z m x :=
  cellByte_writes z (64 * g) (fun i => mask.getLsbD i) (fun i => nth 0 data i) 64 m x

/-! ### The canonical form -/

theorem wf_iff (z : List (Nat × Nat)) (m : List Host.Cell) :
    Memory.wf z m = true ↔ SMap.rising m = true ∧ ∀ c ∈ m, ¬(c.2 = 0 ∧ zeroAt z c.1 = true) := by
  unfold Memory.wf
  simp only [Bool.and_eq_true, List.all_eq_true, Bool.not_eq_true', Bool.and_eq_false_iff, decide_eq_false_iff_not]
  refine and_congr_right (fun _ => forall_congr' (fun c => imp_congr_right (fun _ => ?_)))
  cases zeroAt z c.1 <;> simp

theorem mem_put {α : Type} {m : SMap α} {k : Nat} {v : α} {c : Nat × α} (h : c ∈ SMap.put m k v) : c = (k, v) ∨ c ∈ m := by
  induction m with
  | nil => simp [SMap.put] at h; exact Or.inl h
  | cons p r ih =>
    obtain ⟨j, w⟩ := p
    simp only [SMap.put] at h
    split at h
    · simp at h; simp; exact h
    · split at h
      · simp at h; simp; rcases h with h | h
        · exact Or.inl h
        · exact Or.inr (Or.inr h)
      · simp at h; simp; rcases h with h | h
        · exact Or.inr (Or.inl h)
        · rcases ih h with h | h
          · exact Or.inl h
          · exact Or.inr (Or.inr h)

theorem wf_putByte {z : List (Nat × Nat)} {m : List Host.Cell} (a : Nat) (b : Byte) (h : Memory.wf z m = true) :
    Memory.wf z (putByte z m a b) = true := by
  rw [wf_iff] at *
  unfold putByte
  split
  · refine ⟨SMap.rising_del a h.1, ?_⟩
    intro c hc
    rw [SMap.del_eq_filter] at hc
    exact h.2 c ((List.mem_filter.mp hc).1)
  · rename_i hb
    refine ⟨SMap.rising_put a b h.1, ?_⟩
    intro c hc
    rcases mem_put hc with rfl | hc
    · exact hb
    · exact h.2 c hc

theorem wf_writes {z : List (Nat × Nat)} (base : Nat) (sel : Nat → Bool) (val : Nat → Byte) (l : List Nat) {m : List Host.Cell}
    (h : Memory.wf z m = true) :
    Memory.wf z (l.foldl (fun m i => if sel i then putByte z m (base + i) (val i) else m) m) = true := by
  induction l generalizing m with
  | nil => exact h
  | cons i r ih =>
    rw [List.foldl_cons]
    apply ih
    split
    · exact wf_putByte _ _ h
    · exact h

theorem wf_putBytes {z : List (Nat × Nat)} (g : Nat) (mask : BitVec 64) (data : List Byte) {m : List Host.Cell} (h : Memory.wf z m = true) :
    Memory.wf z (putBytes z g mask data m) = true :=
  wf_writes (64 * g) (fun i => mask.getLsbD i) (fun i => nth 0 data i) _ h

theorem zeroAt_cutZero {a e x : Nat} {z : List (Nat × Nat)} (h : zeroAt (cutZero a e z) x = true) : zeroAt z x = true := by
  unfold zeroAt cutZero at *
  simp only [List.any_eq_true, List.mem_filter, List.mem_flatMap, Bool.and_eq_true, decide_eq_true_eq] at *
  obtain ⟨r, ⟨⟨q, hq, hr⟩, _⟩, h1, h2⟩ := h
  refine ⟨q, hq, ?_⟩
  simp at hr
  rcases hr with rfl | rfl
  · dsimp only at h1 h2; omega
  · dsimp only at h1 h2; omega

/-- R285: clearing bytes keeps the form. -/
theorem form_clearBytes (a e : Nat) {s : State} (h : MemoryForm s) : MemoryForm (clearBytes a e s) := by
  unfold MemoryForm clearBytes at *
  rw [wf_iff] at *
  refine ⟨SMap.rising_filter _ h.1, ?_⟩
  intro c hc hz
  refine h.2 c ((List.mem_filter.mp hc).1) ⟨hz.1, ?_⟩
  have := hz.2
  dsimp only at this
  split at this
  · exact zeroAt_cutZero this
  · exact this

/-- R358: storing poison keeps the form. -/
theorem form_storePoison (g : Nat) {s : State} (h : MemoryForm s) : MemoryForm (storePoison g s) := by
  have key := wf_writes (64 * g) (fun _ => true) (fun _ => (0 : Byte)) (List.range 64) h
  simp only [if_true] at key
  unfold MemoryForm storePoison
  exact key

theorem form_landCount (g n : Nat) {s : State} (h : MemoryForm s) : MemoryForm (landCount g n s) := h

/-- R289, R292: a write that lands keeps the form. -/
theorem form_landGranule (g : Nat) (mask : BitVec 64) (data : List Byte) {s : State} (h : MemoryForm s) :
    MemoryForm (landGranule g mask data s) := by
  unfold landGranule
  apply form_landCount
  split
  · exact wf_putBytes g mask data h
  · split
    · exact h
    · exact wf_putBytes g mask data h

theorem form_landPoison (g : Nat) (mask : BitVec 64) {s : State} (h : MemoryForm s) : MemoryForm (landPoison g mask s) :=
  form_landCount _ _ (form_storePoison g h)

end Sys2Proof.Machine
end

