-- ==== Sys2Proof/WellFormed.lean ====
section
/-! DEFINITION. The operands that the part has: a command whose operands name a function, mailbox, unit or register that the part does not have is
ill formed. A meaning does not rest on this check: given such an operand it changes nothing, and each meaning makes its own checks. -/

namespace Sys2Proof

/-- The 20 functions: PF0-PF3, VF0-VF15 (R339). -/
def fnWf (fn : Nat) : Bool := decide (fn < 20)

/-- The 68 mailboxes (R310). -/
def mbxWf (m : Mbx) : Bool := if m.fn < 4 then decide (m.m = 0) else decide (m.fn < 20) && decide (m.m < 4)

/-- A submission comes from a mailbox that exists. -/
def subWf (sub : Submission) : Bool := mbxWf sub.mbx

/-- A requester of a register access (R288, R346). -/
def reqWf (r : Requester) : Bool := match r with | .fn n => fnWf n | .control => true

/-- Pods 0-15, nodes 0-4095 (R234, R262). -/
def nodeWf (n : NodeRef) : Bool := decide (n.pod < 16) && decide (n.node < 4096)

/-- A run of one logical tile of a node's cores, 8 a cluster and at most 32 clusters (R2, R5). -/
def tileRunWf (r : TileRef) : Bool := nodeWf r.node && decide (r.core < 32) && decide (r.tile < 256)

/-- The engine and thread-group slot of an instruction (R124, R125). -/
def issueWf (i : Issue) : Bool := decide (i.engine < 1024) && decide (i.slot < 32)

/-- Fabric endpoints (R22). -/
def endpointWf (e : Endpoint) : Bool :=
  match e with
  | .stack s => decide (s < 16)
  | .matrix d => decide (d < 4)
  | .hub h => decide (h < 2)
  | .cluster n => decide (n < 32)
  | .tile n => decide (n < 256)
  | .group n => decide (n < 64)
  | .engine n => decide (n < 1024)
  | .slice k => decide (k < 64)

/-- Units (R325). -/
def unitWf (u : UnitRef) : Bool :=
  match u with
  | .tile n => decide (n < 256)
  | .cluster n => decide (n < 32)
  | .matrixDie d => decide (d < 4)
  | .engine n => decide (n < 1024)
  | .group n => decide (n < 64)
  | .stack s => decide (s < 16)
  | .slice k => decide (k < 64)
  | .port p => decide (p < 4)
  | .window w => decide (w < 64)
  | .rail i => decide (i < 46)
  | .pod p => decide (p < 16)
  | .link n => decide (n < 37)
  | .hub h => decide (h < 2)
  | .dramDie s k => decide (s < 16) && decide (k < 12)

/-- An optional node or number. -/
def optNodeWf (n : Option NodeRef) : Bool := match n with | none => true | some r => nodeWf r

/-- Symbols of a DRAM codeword: 80 of 8 bits (R355). -/
def upsetWf (u : List (Nat × BitVec 8)) : Bool := u.all (fun p => decide (p.1 < 80))

/-- The operands of a command are ones that the part has. -/
def Instr.wf (i : Instr) : Bool :=
  match i with
  | .identify sub => subWf sub
  | .summary sub => subWf sub
  | .timeSet sub => subWf sub
  | .timeGet sub => subWf sub
  | .podCreate sub => subWf sub
  | .podCreateAmend sub => subWf sub
  | .podDestroy sub => subWf sub
  | .podSetQuota sub => subWf sub
  | .podMoveCores sub => subWf sub
  | .podBind sub => subWf sub
  | .podUnbind sub => subWf sub
  | .regionMap sub => subWf sub
  | .mirrorDeclare sub => subWf sub
  | .regionUnmap sub => subWf sub
  | .memFill sub => subWf sub
  | .graphLoad sub => subWf sub
  | .graphUnload sub => subWf sub
  | .graphRun sub => subWf sub
  | .graphCancel sub => subWf sub
  | .journalRead sub => subWf sub
  | .streamOpen sub => subWf sub
  | .streamOpenInbound sub => subWf sub
  | .streamCancel sub => subWf sub
  | .streamPark sub => subWf sub
  | .streamUnpark sub => subWf sub
  | .batchStep sub => subWf sub
  | .streamShip sub => subWf sub
  | .adapterLoad sub => subWf sub
  | .prefixInsert sub => subWf sub
  | .prefixRemove sub => subWf sub
  | .prefixLookup sub => subWf sub
  | .partnerAdd sub => subWf sub
  | .partnerRemove sub => subWf sub
  | .windowMap sub => subWf sub
  | .healthRead sub => subWf sub
  | .marginPlanRead sub => subWf sub
  | .fenceRequest sub => subWf sub
  | .unfence sub => subWf sub
  | .fuseRepair sub => subWf sub
  | .thermalConfig sub => subWf sub
  | .powerLimit sub => subWf sub
  | .powerLimitForce sub => subWf sub
  | .syncConfigDevice sub => subWf sub
  | .syncConfigPod sub => subWf sub
  | .syncConfigStamp sub => subWf sub
  | .takeover sub _ _ => subWf sub
  | .ownerOffer sub => subWf sub
  | .ownerAccept sub => subWf sub
  | .ownerClaim sub _ => subWf sub
  | .debugUnlock sub _ => subWf sub
  | .lifecycleRead sub => subWf sub
  | .setOwner sub _ => subWf sub
  | .rotateOwner sub _ => subWf sub
  | .retire sub _ => subWf sub
  | .lifecycleFuseWord => true
  | .mbxEnable mbx => mbxWf mbx
  | .mbxDisable mbx => mbxWf mbx
  | .sqDoorbell mbx _ => mbxWf mbx
  | .cqHeadWrite mbx _ => mbxWf mbx
  | .submissionAck mbx _ _ => mbxWf mbx
  | .eventRingEnable fn => fnWf fn
  | .lostFlagClear fn => fnWf fn
  | .evHeadWrite fn _ => fnWf fn
  | .msixMessage fn vec => fnWf fn && decide (vec < 3)
  | .lcCapWrite req n _ => reqWf req && decide (n < 37)
  | .lcCapApply n => decide (n < 37)
  | .pwuInvalidate req s _ => reqWf req && decide (s < 16)
  | .kvLandWrite req p _ => reqWf req && decide (p < 16)
  | .landChArm req n _ => reqWf req && decide (n < 256)
  | .landChDisarm req n => reqWf req && decide (n < 256)
  | .apertureWrite req n _ => reqWf req && decide (n < 256)
  | .eccCfgWrite req _ => reqWf req
  | .registerWrite req _ off _ => reqWf req && decide (off % 4 = 0)
  | .fmtCntRead req stk n word => reqWf req && decide (word < 4) && decide (n < if stk then 1024 else 32)
  | .pwuStatRead req s => reqWf req && decide (s < 16)
  | .dramSlotRead req s => reqWf req && decide (s < 16)
  | .mirrorStatRead req k => reqWf req && decide (k < 64)
  | .portRefuseRead req p => reqWf req && decide (p < 4)
  | .thmDieRead req n => reqWf req && decide (n < 214)
  | .syncRefStatRead req => reqWf req
  | .mbxDroppedRead mbx => mbxWf mbx
  | .eventLostRead fn => fnWf fn
  | .kvLandRead req p => reqWf req && decide (p < 16)
  | .flitInject src dst _ f _ => endpointWf src && endpointWf dst && decide (f.pod < 16) && decide (f.core < 100) && optNodeWf f.node
  | .flitReceive link _ _ => decide (link < 37)
  | .linkRetrain link => decide (link < 37)
  | .retrainDone link _ => decide (link < 37)
  | .writeLand granule _ _ => decide (granule < 2 ^ 42)
  | .dramReadDecode granule upset => decide (granule < 2 ^ 42) && upsetWf upset
  | .sramReadDecode word _ => decide (word < 2 ^ 45)
  | .leakTick => true
  | .rebuildComplete s => decide (s < 16)
  | .patrolScrub s upset => decide (s < 16) && upsetWf upset
  | .refreshRateChange s => decide (s < 16)
  | .dmaReadAhead node => nodeWf node
  | .hostBar2Read fn _ _ _ => fnWf fn
  | .hostBar2Write fn _ _ _ => fnWf fn
  | .hostPoisonedWrite fn _ _ _ _ => fnWf fn
  | .uioWrite fn _ _ _ => fnWf fn
  | .cxlMemAccess port _ _ _ => decide (port < 4)
  | .atomicOpRequest fn => fnWf fn
  | .functionLevelReset fn => fnWf fn
  | .portReset port _ => decide (port < 4)
  | .busMasterEnable fn _ => fnWf fn
  | .atsInvalidate fn _ => fnWf fn
  | .ideKm port stream keySet _ _ => decide (port < 4) && decide (stream < 4) && decide (keySet < 6)
  | .probeComplete partner _ _ => decide (partner < 96)
  | .completionTimeout partner node => decide (partner < 96) && optNodeWf node
  | .confirmProbeResult partner _ => decide (partner < 96)
  | .containmentNotice partner _ => decide (partner < 96)
  | .partnerDrained partner => decide (partner < 96)
  | .offerLapse => true
  | .nodeStart node => nodeWf node
  | .bestEffortStart node => nodeWf node
  | .nodeEnd node => nodeWf node
  | .nodeStopped node => nodeWf node
  | .coreMove core => decide (core < 96)
  | .walkModeApply pod => decide (pod < 16)
  | .podFreed pod => decide (pod < 16)
  | .podBoundary pod => decide (pod < 16)
  | .unparkRestore stream images => decide (stream < 65536) && decide (images.length ≤ 65536)
  | .stepRelease pod _ => decide (pod < 16)
  | .stepEnd pod _ => decide (pod < 16)
  | .sproutWrite _ => true
  | .sproutLand _ => true
  | .tilePass run => tileRunWf run
  | .stationaryFill run => tileRunWf run
  | .bankExit run => tileRunWf run
  | .vectorStep cluster desc => decide (cluster < 32) && desc.srcs.all (fun x => decide (x.1 < 8)) && decide (desc.dst.1 < 8)
  | .nop at_ _ => issueWf at_
  | .end_ at_ _ => issueWf at_
  | .bra at_ _ => issueWf at_
  | .loop at_ _ => issueWf at_
  | .bare at_ _ => issueWf at_
  | .barg at_ _ => issueWf at_
  | .engineBarrierRelease engine => decide (engine < 1024)
  | .groupBarrierRelease group => decide (group < 64)
  | .pset at_ _ => issueWf at_
  | .plog at_ _ => issueWf at_
  | .iadd at_ _ => issueWf at_
  | .imul at_ _ => issueWf at_
  | .imad at_ _ => issueWf at_
  | .and_ at_ _ => issueWf at_
  | .or_ at_ _ => issueWf at_
  | .xor_ at_ _ => issueWf at_
  | .shl at_ _ => issueWf at_
  | .shr at_ _ => issueWf at_
  | .movi at_ _ => issueWf at_
  | .sel at_ _ => issueWf at_
  | .sreg at_ _ => issueWf at_
  | .fadd at_ _ => issueWf at_
  | .fsub at_ _ => issueWf at_
  | .fmul at_ _ => issueWf at_
  | .fma at_ _ => issueWf at_
  | .fmax at_ _ => issueWf at_
  | .fmin at_ _ => issueWf at_
  | .cvt at_ _ => issueWf at_
  | .exp at_ _ => issueWf at_
  | .recip at_ _ => issueWf at_
  | .rsqrt at_ _ => issueWf at_
  | .silu at_ _ => issueWf at_
  | .fred at_ _ => issueWf at_
  | .maxi at_ _ => issueWf at_
  | .smstep at_ _ => issueWf at_
  | .xmac at_ _ => issueWf at_
  | .xclr at_ _ => issueWf at_
  | .xred at_ _ => issueWf at_
  | .xexit at_ _ => issueWf at_
  | .qblk at_ _ => issueWf at_
  | .ldl at_ _ => issueWf at_
  | .stl at_ _ => issueWf at_
  | .lds at_ _ => issueWf at_
  | .sts at_ _ => issueWf at_
  | .ldg at_ _ => issueWf at_
  | .stg at_ _ => issueWf at_
  | .gcopy at_ _ => issueWf at_
  | .xchg at_ _ => issueWf at_
  | .waitc at_ _ => issueWf at_
  | .sprt at_ _ => issueWf at_
  | .exchangeLand _ => true
  | .waitcRelease at_ => issueWf at_
  | .copyTensor node => nodeWf node
  | .kvGather node => nodeWf node
  | .finalWrite node => nodeWf node
  | .syncJoin node => nodeWf node
  | .syncAcquire node => nodeWf node
  | .syncRelease node => nodeWf node
  | .syncWaitLand node => nodeWf node
  | .waitLandEnd node => nodeWf node
  | .hostEventNode node => nodeWf node
  | .fenceDecided u _ => unitWf u
  | .hubLost hub => decide (hub < 2)
  | .hubHeartbeat hub _ _ => decide (hub < 2)
  | .pathLost hub _ => decide (hub < 2)
  | .contactRestored => true
  | .softStartDone rail => decide (rail < 46)
  | .softStartLow rail _ => decide (rail < 46)
  | .overcurrent rail _ => decide (rail < 46)
  | .sensorSample readings => decide (readings.length = 214)
  | .budgetRise die => decide (die < 22)
  | .externalSample diodes therms => decide (diodes.length = 4) && decide (therms.length = 2)
  | .powerSample _ => true
  | .marginReplan floors => floors.all (fun p => decide (p.1 < 6800))
  | .deferredReplay => true
  | .frameEdge => true
  | .stepSyncEdge _ => true
  | .syncStuck => true
  | .stepOutEnd => true
  | .refclkQualified port => decide (port < 4)
  | .refclkLost port => decide (port < 4)
  | .vaux3Rise addrSel => decide (addrSel < 8)
  | .vaux3Loss => true
  | .vin48Undervoltage => true
  | .vin48Overvoltage => true
  | .pwrGoodRise _ => true
  | .pwrGoodFall => true
  | .resetNAssert => true
  | .resetNDeassert _ => true
  | .bootStage products sums => (products ++ sums).all (fun f => decide (f.1 < 256) && decide (f.2.1 < 130) && decide (f.2.2 < 258))
  | .firmwareFallback => true
  | .drbgReseed => true
  | .requestUpdate => true
  | .passComponentTable => true
  | .updateComponent _ => true
  | .requestFirmwareData _ => true
  | .transferComplete => true
  | .verifyComplete => true
  | .applyComplete => true
  | .activateFirmware => true
  | .cancelUpdateComponent => true
  | .cancelUpdate => true
  | .getStatus => true
  | .queryDeviceIdentifiers => true
  | .getVersion => true
  | .getCapabilities => true
  | .negotiateAlgorithms _ => true
  | .getDigests => true
  | .getCertificate slot _ _ => decide (slot < 8)
  | .challenge _ => true
  | .getMeasurements index _ => decide (index < 256)
  | .keyExchange _ => true
  | .finish _ => true
  | .heartbeat _ => true
  | .keyUpdate _ => true
  | .endSession _ => true
  | .entdaa addr => decide (addr < 128)
  | .setdasa addr => decide (addr < 128)
  | .rstdaa => true
  | .enec _ => true
  | .disec _ => true
  | .getpid => true
  | .getbcr => true
  | .getdcr => true
  | .getstatus => true
  | .setmwl _ => true
  | .getmwl => true
  | .setmrl _ => true
  | .getmrl => true
  | .mgmtReadPkgTj => true
  | .mgmtReadStatus => true
  | .mgmtReadPower => true
  | .mgmtReadCap => true
  | .mgmtReadLifecycle => true
  | .mgmtReadDieTj i => decide (i < 214)
  | .extest => true
  | .idcode => true
  | .samplePreload _ => true
  | .clamp => true
  | .highz => true
  | .internalAccess => true
  | .bypass => true
  | .trstNAssert => true
  | .frameWindowClose => true
  | .stepSyncUnstuck => true
  | .ovf24Expiry die => decide (die < 214)
  | .rebuildSlot s upset => decide (s < 16) && upsetWf upset
  | .graphLoadComplete pod graph => decide (pod < 16) && decide (graph < 2 ^ 32)
  | .fillComplete _ => true
  | .repairComplete tile faults _ => decide (tile < 256) && faults.all (fun f => decide (f.1 < 130) && decide (f.2 < 258))
  | .writeAcknowledged window sender _ => decide (window < 64) && (match sender with | .node ref => nodeWf ref | .stream i => decide (i < 65536))
  | .perstNDeassert port => decide (port < 4)

end Sys2Proof
end

