-- ==== Sys2Proof/Tests/Slice0.lean ====
section
/-! SUPPORT. Tests of the model: numbers that the spec works out itself, a few single steps, ill-formed operands that WellFormed refuses, and
for every obligation that has hypotheses a witness that states and operands meet them together (`witness_<name of the obligation>`, one
conjunct for each distinct set of hypotheses). -/

namespace Sys2Proof.Tests

set_option Elab.async false

open Sys2Proof Sys2Proof.Machine

/-- A submission of mailbox 0 of a function, its entry written as pairs of a first bit and a value. -/
def pb (fn : Nat) (l : List (Nat × Nat)) : Submission := { mbx := ⟨fn, 0⟩, entry := BitVec.ofNat 512 (l.foldl (fun n p => n + p.2 * 2 ^ p.1) 0) }
/-- A submission of the owner PF. -/
def sb (l : List (Nat × Nat)) : Submission := pb 0 l
/-- A submission of VF 0. -/
def vb (l : List (Nat × Nat)) : Submission := pb 4 l
/-- The submission is the oldest acknowledged one. -/
def ak (sub : Submission) (s : State) : State := { s with acked := [(sub, 0)] }
/-- Every PF has its four VFs enabled. -/
def wV : State := { State.reset with funcs := (List.range 4).map (fun p => (p, { vfEnable := true, numVfs := 4 })) }
/-- READY. -/
def wR : State := { State.reset with fw := { stage := 8 } }
/-- A bound pod with two cores of each kind. -/
def wPod : Pod := { state := .bound, vf := some 0, share := 1, quota := 16, cores := [0, 1, 32, 33], slices := [0, 1], graphSlices := [0], kvcSlices := [1] }
/-- A part with that pod. -/
def wB : State := { wR with pods := [(0, wPod)], funcs := wV.funcs }
/-- PF 0's mailbox is enabled. -/
def wM : State := { wR with mboxes := [(0, { state := 1, enable := true, sqLog := 4, cqLog := 4 })] }
/-- PF 0's mailbox has one entry to take, the ring having wrapped. -/
def wW (r : Nat) : State := { wR with mboxes := [(0, { state := 1, enable := true, sqLog := 4, cqLog := 4, sqHead := 15, sqTail := 0, reserved := r })] }
/-- A command of PF 0. -/
def wTok : CmdTok := ⟨⟨0, 0⟩, 0, 0, 0, 0⟩
/-- A region of every stack. -/
def wReg : Region := { pod := 0, mode := 2, stks := List.range 16, off := 0, span := 0x100000, lost := false, filled := false, ready := true, pool := 0, fmt := 0, layers := 0, heads := 0, hdim := 0, frames := 0, holder := [], used := [] }
/-- The pod with that region. -/
def wG : State := { wB with regions := [(5, some wReg)] }
/-- All four ports have a link. -/
def wL : State := { wR with ports := [(0, { linkUp := true }), (1, { linkUp := true }), (2, { linkUp := true }), (3, { linkUp := true })] }
/-- An image of one HOST_EVENT node. -/
def wImg : List (Nat × BitVec 8) :=
  [(0, 0x46), (1, 0x4A), (2, 0x52), (3, 0x59), (4, 1), (6, 1), (8, 0x80), (9, 1), (13, 1), (256, 6)] ++ (List.range 8).map (fun i => (292 + i, 0xFF))
/-- A pod's slice 1 holding an image; the rest of the slice reads 0. -/
def wI : State := { wB with mem := wImg.map (fun x => (addrSlice 1 + x.1, x.2)), zeroed := [(addrSlice 0, addrSlice 2)] }
/-- A node record. -/
def wRec (kind : Nat) : NodeRec :=
  { kind := kind, cores := 1, peer := false, sprout := false, gang := 0, costCyc := 0, costSer := 1000, routes := [0, 0, 0, 0, 0], succ := [], bodyOff := 0,
    blkLen := 1, progOff := 0, outs := [0xFFFF, 0xFFFF, 0xFFFF, 0xFFFF], qbase := 0, qlen := 0, chan := 0, sproutTd := 0, value := 0 }
/-- A tensor of slice 1. -/
def wTd : TDesc :=
  { fmt := 3, rnd := 0, scaled := false, lc := false, space := 0, ndim := 1, seed := 0, base := addrSlice 1, shapes := 0, shapesV := false, ext := [64],
    stride := [1], origin := [0, 0, 0, 0, 0] }
/-- A loaded graph of one node; `b` is the first byte of its body. -/
def wGr (kind b : Nat) : Graph :=
  { pod := 0, id := 1, step := false, peer := false, lcCap := 0, storeAt := 0, image := leBytes 128 b, nodes := [wRec kind], bufs := [wTd], loaded := true }
/-- A node at run time. -/
def wNode (st : NState) : NodeRun :=
  { st := st, cause := 0, cores := [], start := 0, fin := 0, jpos := none, startedAt := 0, hwm := [0, 0, 0, 0], pmask := 0, work := false, units := 0,
    poison := false, hold := none, unacked := [], stop := none, waiting := false }
/-- An instance of one node. -/
def wInst (n : NodeRun) : Inst :=
  { pod := 0, num := 7, graph := 1, tok := wTok, promised := true, release := 0, deadline := 10 ^ 9, nodes := [n], step := none, peers := [],
    cancelled := false, late := none, floors := [], sources := 0 }
/-- A pod with one instance of a graph. -/
def wN (kind b : Nat) (n : NodeRun) : State := { wB with graphs := [wGr kind b], insts := [wInst n], zeroed := [(addrSlice 0, addrSlice 2)] }
/-- The node of that instance. -/
def wRef : NodeRef := ⟨0, 7, 0⟩
/-- The owner's view reaches every slice of a part that has a link. -/
def wH : State := { wL with zeroed := [(addrSlice 0, addrSlice 2)], pods := [(0, wPod)] }
/-- A bulk flit. -/
def wFlitDesc (src dst : Endpoint) : FlitDesc := { src := src, dst := dst, what := .other, pod := 0, core := 5, node := none, mask := 0, payload := 0 }
/-- That flit as its source formed it. -/
def wFlit (r : List (Nat × Bool)) (fails : Nat) : Flit :=
  { id := 0, desc := wFlitDesc (.stack 0) (.hub 0), crc := flitCrc (wFlitDesc (.stack 0) (.hub 0)), yields := false, route := r, fails := fails }
/-- A DEBUG_UNLOCK sequence of PF 0 under HB-A. -/
def wUnlock (phase : Nat) (good : Bool) : Unlock := { sub := sb [(0, 0x91)], tok := wTok, lead := 0, good := good, phase := phase }
/-- A flit that the link leaves alone passes the receiver's check; one whose CRC bits it flips does not (R29). -/
theorem test_crc : crcHolds (noisy (wFlit [(0, true)] 0) 0) = true ∧ crcHolds (noisy (wFlit [(0, true)] 0) 1) = false := by
  have h : ∀ c : BitVec 32, c ≠ c ^^^ 1#32 := fun c e => by
    have := congrArg (fun x => x ^^^ c) e
    rw [BitVec.xor_self, BitVec.xor_comm c 1#32, BitVec.xor_assoc, BitVec.xor_self] at this
    exact absurd this (by decide)
  exact ⟨by simp [crcHolds, noisy, wFlit, wFlitDesc], by simpa [crcHolds, noisy, wFlit, wFlitDesc, flitCrc] using h _⟩
/-- A part with that flit in flight. -/
def wF (fails : Nat) : State := { wR with fabric := { wR.fabric with flits := [wFlit [(0, true)] fails] } }
/-- A KV pool. -/
def wKv : Region := { wReg with mode := 3, fmt := 3, layers := 1, heads := 1, hdim := 64, frames := 4096, holder := List.range 16 }
/-- A resident stream of one page set. -/
def wStr : Stream := { state := .resident, gen := 1, wp := 16, pt := [⟨0, 4, .resident, 0, 0, 0⟩], ptCap := 8 }
/-- The pod with a slice more. -/
def wP2 : Pod := { wPod with slices := [0, 1, 2] }
/-- A pod with a KV pool, a resident stream 9, a window and a partner behind it. -/
def wS : State :=
  { wL with pods := [(0, wP2)], regions := [(6, some wKv)], streams := [(9, wStr)], zeroed := [(0, 2 ^ 41)],
            windows := [(0, { pod := 0, access := 2, partner := 32, len := 2 ^ 40 }), (1, { pod := 0, access := 2, partner := 32, len := 2 ^ 40 })], partners := [(32, { state := .active })] }
/-- A staged step of stream 9. -/
def wStep : StepInfo :=
  { boundary := 1, offset := 0, deadline := 0, rowtab := 0, results := 0, allocPs := 0, allocFr := 0, copyMax := 0, relOff := 0, walkE := 0,
    rows := [{ stream := 9, action := 0, n := 1, gen := 1, kind := 0, wp := 0, adapterV := false, adapterAddr := 0, result := 0, chained := false }],
    staged := true, relAt := 0, released := false, preds := [], oldSlots := [] }
/-- A tensor of slice 2. -/
def wT2 : TDesc := { wTd with base := addrSlice 2 }
/-- The pod with one node, its tensor in slice 2. -/
def wQ (kind b : Nat) (n : NodeRun) : State := { wS with graphs := [{ wGr kind b with bufs := [wT2] }], insts := [wInst n] }
/-- A node at run time. -/
def wRun (k : NState) : NodeRun := wNode k
/-- The body of a KV_GATHER node. -/
def wGb : Nat := 1 + 16 * 2 ^ 88
/-- A KV_GATHER node of a step whose window's first positions are all written. -/
def wGa : State :=
  { wS with graphs := [{ wGr 3 wGb with bufs := [{ wT2 with ext := [64, 1, 1, 1, 1] }] }], insts := [{ wInst (wNode .running) with step := some wStep }],
            sprout := [{ pod := 0, inst := 7, row := 0, stream := 9, first := 16, n := 1, sink := false, entries := wStr.pt, holder := List.range 16, counts := [] }] }
/-- A STREAM_PARK. -/
def wPk : Submission := sb [(0, 0x42), (36, 1), (64, 9), (80, 1), (96, addrWindow 0)]
/-- A STREAM_SHIP. -/
def wShip : Submission := sb [(0, 0x45), (36, 1), (64, 9), (80, 1), (96, addrSlice 2), (144, 16), (320, addrWindow 0)]
/-- The pod with a receiving table in slice 2. -/
def wSS : State := { wS with mem := [(addrSlice 2 + 3, 4)] }
/-- A tile run at its first pass, whose descriptor block reads 0. -/
def wTr : TileRun :=
  { ref := ⟨wRef, 0, 0⟩, phys := 0, block := [], desc := 0, pass := 0, tag := false, stat := [(0, [])], lanes := [], bank := false, exits := [], vrows := [],
    ended := false, poisoned := false }
/-- A descriptor word of two elements in a scratchpad. -/
def wTdw : BitVec 1024 := BitVec.ofNat 1024 (3 + 2 ^ 8 + 2 ^ 10 + 2 ^ 192 + 2 ^ 216)
/-- A conversion by the vector unit. -/
def wVec : VectorDesc := { op := .convert, drain := none, srcs := [(0, wTdw)], dst := (1, wTdw) }
/-- A thread group of two real lanes. -/
def wGrp : Group := { slot := 0, j := 0, pc := 0, wait := .none, active := 3#32, v := [], p := [], acc := [], poison := [], late := [] }
/-- A launch whose program is one instruction. -/
def wEr (op : EngOp) (w : EngFields) : EngineRun :=
  { node := wRef, desc := { lc := false, barrier := false, resGroups := 1, anchor := 0, sharedKib := 1, gx := 1, gy := 1, gz := 1, code := 0, codeLen := 1,
                            args := 0, localBase := 0, localLen := 4096, seed := 0 },
    code := [encodeWord op w], args := [], order := 0, total := 1, groups := [wGrp], nextJ := 1, counters := [], lastSlot := 0 }
/-- The pod with a running SIMT node whose engine 0 holds the run `r`. -/
def wEs (r : EngineRun) : State := { wQ 2 0 (wNode .running) with zeroed := [(0, 2 ^ 49)], engines := [(0, some r)] }
/-- Guarded off: the guard is the complement of p0. -/
def wOff : EngFields := ⟨0, 0, 0, 8, 0⟩
/-- Poison of v0, v1 and p1 of lane 0 and v0 of lane 1. -/
def wPoi : List (Nat × Bool) := [(0, true), (1, true), (64, true), (2049, true)]
/-- A tensor descriptor of slice 2 in engine 0's local memory. -/
def wGd : List Host.Cell :=
  ((leBytes 128 (3 + 2 ^ 10 + addrSlice 2 * 2 ^ 64 + 63 * 2 ^ 192 + 2 ^ 216)).zipIdx.map (fun q => (addrLocal 0 + q.2, q.1))).filter (fun c => c.2 ≠ 0)
/-- A granule on its way to an engine. -/
def wFl : Flight := { node := wRef, src := 0, what := .other, sprout := false, engines := [0], off := some 64, bytes := List.replicate 64 1, poisoned := false, writes := [], chan := 0, count := 1 }
/-- A write that waits at a sprout port. -/
def wPw : PortWrite := { node := wRef, src := 7, sprt := false, stream := 9, pos := 0, layer := 0, value := false, pieces := [(0, List.replicate 64 (1, false))] }
/-- That write waits at the port of a step whose window begins with it. -/
def wPort (sink : Bool) : State :=
  { wGa with portq := [wPw], sprout := [{ pod := 0, inst := 7, row := 0, stream := 9, first := 0, n := 1, sink := sink, entries := wStr.pt, holder := List.range 16, counts := [] }] }
/-- The group of a GCOPY. -/
def wGg : Group := { wGrp with v := [(1, 128)] }
/-- The launch of a GCOPY. -/
def wGe (imm : BitVec 32) : EngineRun := { wEr .gcopy ⟨0, 0, 1, 2, imm⟩ with groups := [wGg] }
/-- The part with that launch. -/
def wGs (imm : BitVec 32) : State := { wEs (wGe imm) with mem := wGd }
/-- The descriptor that GCOPY reads. -/
def wGl (imm : BitVec 32) : List (Byte × Bool) × State := readLocal 0 0 128 (wGs imm)
/-- That descriptor, parsed. -/
def wGt (imm : BitVec 32) : TDesc := tdParse (leNat ((wGl imm).1.map (fun b => b.1)))
/-- Every die at 50 °C. -/
def wWarm : Thermal := { dies := (List.range 214).map (fun n => (n, { tj := 400 })) }
/-- Both hubs up, HB-A leading. -/
def wHub : State := { wL with hubA := { lead := .lead, pg := true }, hubB := { lead := .follower, pg := true } }
/-- A node of the pod runs on a core. -/
def wBusy : State := { wB with graphs := [wGr 0 0], insts := [{ wInst { wNode .running with cores := [0] } with promised := false }] }
/-- Readings of all sensors, one die at its trip limit. -/
def wRead (n : Nat) : List (List Int) := (List.range 214).map (fun d => List.replicate (sensorCount d) (if d = n then 920 else 400))

/-! ### The spec's own numbers -/

/-- R165's example: XCHG with A 4, B 5, guard p0, IMM 0x0100_FFFF. -/
theorem test_xchg_word : decodeWord 0x400041400100FFFF#64 = some (.xchg, ⟨0, 4, 5, 0, 0x0100FFFF⟩) := by decide +kernel

/-- R37: MX2.C5.T3 and MS7.E41 lie where the spec's example puts them. -/
theorem test_address_map : addrTile (64 * 2 + 8 * 5 + 3) = 0x0112AC000000 ∧ addrLocal (64 * 7 + 41) = 0x01207A400000 := by decide

/-- R267: byte 0x12_3456 of a COLUMN_STRIPE region at OFF 0x1_0000_0000. -/
theorem test_column_stripe : linearAddr { wReg with off := 0x100000000 } 0x123456 = 0x003100012456 := by decide +kernel

/-- R179's value slot: position 5,000, layer 40, head 2 of a Hazel-101 pool. -/
theorem test_value_slot :
    kvAddr { wKv with off := 0x200000000, layers := 88, heads := 4, hdim := 128 } 4096 11 96 5000 40 2 true 0 = 0x00820890EC00 := by
  decide +kernel

/-- The worked example of the exact path: a run sum of 37 at 2^-5 adds 37 × 2^27 at ANCHOR 0. -/
theorem test_contribution : (accEnter 0 (.fin false 37 (-5)) {}).1.a = 0x128000000#96 := by decide +kernel

/-- The same lane with -2^-10 added leaves as BF16: to nearest, toward zero, and stochastic at 8,191 and 8,192. -/
theorem test_lane_exit :
    let lane := (accEnter 0 (.fin true 1 (-10)) (accEnter 0 (.fin false 37 (-5)) {}).1).1
    (accExit 1 0 0 0 lane).1 = 0x3F94 ∧ (accExit 1 1 0 0 lane).1 = 0x3F93 ∧ (accExit 1 2 8191 0 lane).1 = 0x3F93 ∧
      (accExit 1 2 8192 0 lane).1 = 0x3F94 := by
  decide +kernel

/-- The same example's TB2 byte 154 is +1, 0, -1, -1, +1; its bytes 13 and 14 are the scale 2^-4. -/
theorem test_ternary_byte :
    ((loadRecord 0xA true ([154] ++ List.replicate 12 0 ++ [0x80, 0x3D])).vals.take 5).map fp32Round =
      [0x3D800000#32, 0, 0xBD800000#32, 0xBD800000#32, 0x3D800000#32] := by
  decide +kernel

/-- The same example: byte 12 holding 200 reads elements 60-63 as zeros and counts one BAD_TRIT. -/
theorem test_bad_trit :
    let r := loadRecord 0xA true (List.replicate 12 121 ++ [200, 0x80, 0x3D])
    r.badTrit = 1 ∧ (r.vals.drop 60).map fp32Round = [0, 0, 0, 0] := by
  decide +kernel

/-- R396: 2100-03-01 00:00:00. -/
theorem test_calendar : timeValue (sb [(64, 2100), (80, 3), (84, 1)]).entry = 3160857600000000000 := by decide +kernel

/-- R35: a byte written keeps memory's form, and writing back what the unlisted byte reads as removes the entry. -/
theorem test_memory_form : putBytes [(0, 64)] 0 32 (List.replicate 64 7) [] = [(5, 7)] ∧
    putBytes [(0, 64)] 0 32 (List.replicate 64 0) [(5, 7)] = [] ∧ Memory.wf [(0, 64)] [(5, 0)] = false := by
  decide +kernel

/-! ### One step -/

/-- The next state of a step meets a check. -/
def stepTo (s : State) (f : State → Bool) : Bool := match step s with | .next t => f t | _ => false

/-- A launch of IADD and END. -/
def wIadd : EngineRun :=
  { wEr .iadd ⟨2, 0, 1, 0, 0⟩ with
    groups := [{ wGrp with v := [(0, 0xFFFFFFFF), (1, 2)] }]
    code := [encodeWord .iadd ⟨2, 0, 1, 0, 0⟩, encodeWord .end_ wOff]
    desc := { (wEr .nop wOff).desc with codeLen := 2 } }
/-- IADD writes its lanes' destination, with wrap, and moves the group past the instruction. -/
theorem test_iadd_step : stepTo { wEs wIadd with pending := [.iadd ⟨0, 0⟩ ⟨2, 0, 1, 0, 0⟩] } (fun t =>
    (SMap.get none t.engines 0).map (fun r => r.groups.map (fun h => (h.pc, rv h 0 2, rv h 0 1, rv h 1 2))) = some [(1, 1, 2, 0)]) = true := by
  decide +kernel

/-- An empty queue lets 10 ns of the always-on clock pass. -/
theorem test_idle_step : stepTo State.reset (fun t => t.clock.timeA = 10 && t.pending.isEmpty) = true := by decide +kernel

/-- A command of the queue that its state does not enable changes nothing but the queue. -/
theorem test_not_enabled : stepTo { State.reset with pending := [.hubLost 0] } (fun t => t = State.reset) = true := by decide +kernel

/-! ### Ill-formed operands are refused -/

theorem test_wf_function : (Instr.lostFlagClear 20).wf = false ∧ (Instr.lostFlagClear 19).wf = true := by decide
theorem test_wf_mailbox : (Instr.mbxEnable ⟨3, 1⟩).wf = false ∧ (Instr.mbxEnable ⟨19, 3⟩).wf = true := by decide
theorem test_wf_submission : (Instr.identify (pb 20 [])).wf = false ∧ (Instr.identify (pb 19 [])).wf = true := by decide
theorem test_wf_requester : (Instr.eccCfgWrite (.fn 20) 0).wf = false ∧ (Instr.eccCfgWrite .control 0).wf = true := by decide
theorem test_wf_node : (Instr.nodeStart ⟨16, 0, 0⟩).wf = false ∧ (Instr.nodeStart ⟨15, 0, 4095⟩).wf = true := by decide
theorem test_wf_tile_run : (Instr.tilePass ⟨⟨0, 0, 0⟩, 32, 0⟩).wf = false ∧ (Instr.tilePass ⟨⟨0, 0, 0⟩, 31, 255⟩).wf = true := by decide
theorem test_wf_issue : (Instr.nop ⟨1024, 0⟩ wOff).wf = false ∧ (Instr.nop ⟨1023, 31⟩ wOff).wf = true := by decide
theorem test_wf_endpoint : (Instr.flitInject (.stack 16) (.hub 0) .other ⟨0, 5, none⟩ ⟨0, 0⟩).wf = false ∧
    (Instr.flitInject (.engine 1023) (.tile 255) .other ⟨0, 5, none⟩ ⟨0, 0⟩).wf = true := by
  decide
theorem test_wf_unit : (Instr.fenceDecided (.tile 256) 1).wf = false ∧ (Instr.fenceDecided (.tile 255) 1).wf = true := by decide
theorem test_wf_sender : (Instr.writeAcknowledged 0 (.node ⟨16, 0, 0⟩) true).wf = false ∧ (Instr.writeAcknowledged 63 (.stream 65535) false).wf = true := by decide
theorem test_wf_upset : (Instr.dramReadDecode 0 [(80, 1)]).wf = false ∧ (Instr.dramReadDecode 0 [(79, 1)]).wf = true := by decide
theorem test_wf_ranges : (Instr.linkRetrain 37).wf = false ∧ (Instr.msixMessage 0 3).wf = false ∧ (Instr.registerWrite .control .csr 2 0).wf = false ∧
    (Instr.fmtCntRead .control false 32 0).wf = false ∧ (Instr.fmtCntRead .control true 1023 3).wf = true := by decide

/-! ### Witnesses of the obligations' hypotheses -/

/-- Whatever the SRAM columns are, one of three two-bit patterns is uncorrectable: their syndromes cannot all be the poison pattern. -/
theorem two_bit_errors : ∃ (s : State) (w : Nat) (upset e : BitVec 72), isSram s (8 * w) = true ∧ SMap.get 0 s.sramErr w ^^^ upset = e ∧
    sramDecode (SMap.get false s.poison (w / 8)) e = .uncorrectable := by
  have one (e : BitVec 72) (he : e ≠ 0) (hw : sramWeight e = 2) (hs : sramSyndrome e ≠ 0xFF#8) : sramDecode false e = .uncorrectable := by
    unfold sramDecode; rw [if_neg he]; simp [hw, hs]
  have h3 : sramSyndrome 3 = 0 ^^^ Config.sramColumn 0 ^^^ Config.sramColumn 1 := rfl
  have h5 : sramSyndrome 5 = 0 ^^^ Config.sramColumn 0 ^^^ Config.sramColumn 2 := rfl
  have h6 : sramSyndrome 6 = 0 ^^^ Config.sramColumn 1 ^^^ Config.sramColumn 2 := rfl
  have key (e : BitVec 72) (he : e ≠ 0) (hw : sramWeight e = 2) (hs : sramSyndrome e ≠ 0xFF#8) :
      ∃ (s : State) (w : Nat) (upset e : BitVec 72), isSram s (8 * w) = true ∧ SMap.get 0 s.sramErr w ^^^ upset = e ∧
        sramDecode (SMap.get false s.poison (w / 8)) e = .uncorrectable :=
    ⟨wR, addrSlice 1 / 8, e, e, by decide +kernel, BitVec.zero_xor, one e he hw hs⟩
  by_cases a : sramSyndrome 3 = 0xFF#8
  · by_cases b : sramSyndrome 5 = 0xFF#8
    · refine key 6 (by decide) (by decide +kernel) (fun c => ?_)
      have : sramSyndrome 3 ^^^ sramSyndrome 5 ^^^ sramSyndrome 6 = 0 := by
        rw [h3, h5, h6]; ext i; simp only [BitVec.getElem_xor]; cases (Config.sramColumn 0)[i] <;> cases (Config.sramColumn 1)[i] <;> cases (Config.sramColumn 2)[i] <;> simp
      rw [a, b, c] at this
      exact absurd this (by decide)
    · exact key 5 (by decide) (by decide +kernel) b
  · exact key 3 (by decide) (by decide +kernel) a

theorem witness_EccReadsDecode :
    (∃ (s : State) (g st : Nat) (upset : Errs), dramStack s g = some st ∧
      dramDecode (storedErrs (upsetDram g upset s) g) (erasedSlot s st) = .clean) ∧
    (∃ (s : State) (g st : Nat) (upset : Errs), dramStack s g = some st ∧
      dramDecode (storedErrs (upsetDram g upset s) g) (erasedSlot s st) = .poisoned) ∧
    (∃ (s : State) (g st : Nat) (upset fix : Errs), dramStack s g = some st ∧
      dramDecode (storedErrs (upsetDram g upset s) g) (erasedSlot s st) = .corrected fix) ∧
    (∃ (s : State) (g st : Nat) (upset : Errs), dramStack s g = some st ∧
      dramDecode (storedErrs (upsetDram g upset s) g) (erasedSlot s st) = .uncorrectable) ∧
    (∃ (s : State) (w : Nat) (upset e : BitVec 72), isSram s (8 * w) = true ∧ SMap.get 0 s.sramErr w ^^^ upset = e ∧
      sramDecode (SMap.get false s.poison (w / 8)) e = .clean) ∧
    (∃ (s : State) (w : Nat) (upset e : BitVec 72) (b : Nat), isSram s (8 * w) = true ∧ SMap.get 0 s.sramErr w ^^^ upset = e ∧
      sramDecode (SMap.get false s.poison (w / 8)) e = .corrected b) ∧
    (∃ (s : State) (w : Nat) (upset e : BitVec 72), isSram s (8 * w) = true ∧ SMap.get 0 s.sramErr w ^^^ upset = e ∧
      sramDecode (SMap.get false s.poison (w / 8)) e = .uncorrectable) :=
  ⟨⟨wR, addrStack 15 0 / 64, 15, [], by decide +kernel⟩,
   ⟨{ wR with poison := [(addrStack 15 0 / 64, true)] }, addrStack 15 0 / 64, 15, [], by decide +kernel⟩,
   ⟨wR, addrStack 15 0 / 64, 15, [(3, 1)], [(3, 1)], by decide +kernel⟩,
   ⟨wR, addrStack 15 0 / 64, 15, (List.range 9).map (fun i => (8 * i, 1)), by decide +kernel⟩,
   ⟨wR, addrSlice 1 / 8, 0, 0, by decide +kernel⟩,
   ⟨wR, addrSlice 1 / 8, 1, 1, 0, by decide +kernel⟩,
   two_bit_errors⟩

/-- A token of the given kind and argument for a part at device time 0, before its signatures: serial, not before 0, valid for 600 s. -/
def wTokWord (kind arg : Nat) : Nat := kind + 2 ^ 8 + Config.serial.toNat * 2 ^ 64 + 600000000000 * 2 ^ 192 + arg * 2 ^ 256
/-- That token. -/
def wToken (kind arg : Nat) : BitVec 4096 := BitVec.ofNat 4096 (wTokWord kind arg)

/-- A warm part whose owner's key is the one the token names. -/
def wOwned (fenced : List UnitRef) (kind arg : Nat) : State :=
  { wHub with thermal := wWarm, fences := fenced.map (fun u => (u, 1)),
              sec := { owners := [Config.sha384 (tokenBytes (wToken kind arg) 128 96)] } }

theorem token_word (kind arg : Nat) (hk : kind < 256) (ha : arg < 2 ^ 64) : (wToken kind arg).toNat = wTokWord kind arg := by
  have hs : Config.serial.toNat < 2 ^ 64 := Config.serial.isLt
  have h1 : wTokWord kind arg < 2 ^ 320 := by unfold wTokWord; omega
  have h2 : (2 : Nat) ^ 320 ≤ 2 ^ 4096 := Nat.pow_le_pow_right (by decide) (by decide)
  simp only [wToken, BitVec.toNat_ofNat]
  exact Nat.mod_eq_of_lt (Nat.lt_of_lt_of_le h1 h2)

/-- Where the part's signature check accepts, a token of every kind verifies at device time 0. -/
theorem token_verifies (hv : ∀ x y d, Config.ecdsaVerify x y d = true) (s : State) (kind arg : Nat) (hk : kind < 256) (ha : arg < 2 ^ 64)
    (hn : now s = 0) (ho : s.sec.owners.getLast? = some (Config.sha384 (tokenBytes (wToken kind arg) 128 96))) :
    tokenOk s kind arg (wToken kind arg) = true := by
  have hw := token_word kind arg hk ha
  have hs : Config.serial.toNat < 2 ^ 64 := Config.serial.isLt
  have b0 : bits (wTokWord kind arg) 7 0 = kind := by simp only [bits, wTokWord, Nat.shiftRight_eq_div_pow]; omega
  have b1 : bits (wTokWord kind arg) 15 8 = 1 := by simp only [bits, wTokWord, Nat.shiftRight_eq_div_pow]; omega
  have b2 : bits (wTokWord kind arg) 127 64 = Config.serial.toNat := by simp only [bits, wTokWord, Nat.shiftRight_eq_div_pow]; omega
  have b3 : bits (wTokWord kind arg) 191 128 = 0 := by simp only [bits, wTokWord, Nat.shiftRight_eq_div_pow]; omega
  have b4 : bits (wTokWord kind arg) 255 192 = 600000000000 := by simp only [bits, wTokWord, Nat.shiftRight_eq_div_pow]; omega
  have b5 : bits (wTokWord kind arg) 319 256 = arg := by simp only [bits, wTokWord, Nat.shiftRight_eq_div_pow]; omega
  have hlt : wTokWord kind arg < 2 ^ 320 := by unfold wTokWord; omega
  have hi (n lo : Nat) (h : 320 ≤ lo) : (wToken kind arg).extractLsb' lo n = 0 := by
    apply BitVec.eq_of_toNat_eq
    rw [BitVec.extractLsb'_toNat, hw, Nat.shiftRight_eq_div_pow, Nat.div_eq_of_lt (Nat.lt_of_lt_of_le hlt (Nat.pow_le_pow_right (by decide) h))]
    simp
  have hb (h lo : Nat) (hl : 320 ≤ lo) : bits (wTokWord kind arg) h lo = 0 := by
    simp only [bits, Nat.shiftRight_eq_div_pow]
    rw [Nat.div_eq_of_lt (Nat.lt_of_lt_of_le hlt (Nat.pow_le_pow_right (by decide) hl))]; simp
  have hr : tokenReserved (wToken kind arg) = true := by
    have b6 : bits (wTokWord kind arg) 63 16 = 0 := by simp only [bits, wTokWord, Nat.shiftRight_eq_div_pow]; omega
    simp only [tokenReserved, hw, b6, hb 1023 704 (by decide), hb 4095 3328 (by decide)]; rfl
  unfold tokenOk
  simp only [ho, hw, b0, b1, b2, b3, b4, b5, hr, hn, hv, tokenNewKey, hi 384 320 (by decide), hi 768 2560 (by decide)]
  by_cases hd : kind = 3 <;> simp [hd]

/-- The hypotheses that ask for a token that verifies can be met wherever the part's signature check accepts (the spec does not publish a key
pair, so the check is a free value and the acceptance is a premise here). -/
theorem witness_tokens (hv : ∀ x y d, Config.ecdsaVerify x y d = true) :
    (∃ (s : State) (sub : Submission) (tok : BitVec 4096), Takes spOwner (fun e => ownerMode e = 2) sub s ∧
      checkCmd spOwner false sub true true s = none ∧ ownerGone s = true ∧ tokenOk s 2 (fnPort sub.mbx.fn) tok = true) ∧
    (∃ (s : State) (sub : Submission) (token : BitVec 4096), Takes spTakeover (fun _ => true) sub s ∧
      checkCmd spTakeover false sub true true s = none ∧ leadHub s ≠ fnHub sub.mbx.fn ∧ tokenOk s 1 (fnHub sub.mbx.fn) token = true) ∧
    (∃ (s : State) (sub : Submission) (token : BitVec 4096), checkCmd spLifecycle false sub true true s = none ∧ s.sec.words = [] ∧
      fuseWindow s = true ∧ Takes spLifecycle (fun e => lcMode e = 2) sub s ∧ lifecycle s ≠ 2 ∧ lifecycle s ≠ 3 ∧
      tokenOk s 5 (ownerSlot s) token = true ∧ ownerSlot s < 3) ∧
    (∃ (s : State) (sub : Submission) (token : BitVec 4096), checkCmd spLifecycle false sub true true s = none ∧ s.sec.words = [] ∧
      fuseWindow s = true ∧ Takes spLifecycle (fun e => lcMode e = 3) sub s ∧ lifecycle s ≠ 2 ∧ lifecycle s ≠ 3 ∧
      tokenOk s 4 0 token = true) ∧
    (∃ (s : State) (sub : Submission) (token : BitVec 4096), Takes spDebug (fun _ => true) sub s ∧
      checkCmd spDebug false sub true true s = none ∧ lifecycle s = 1 ∧ fuseWindow s = true ∧ tokenOk s 3 s.sec.dbgCount token = true) :=
  ⟨⟨ak (pb 1 [(0, 0x81), (64, 2)]) (wOwned [.port 0] 2 1), pb 1 [(0, 0x81), (64, 2)], wToken 2 1,
      ⟨by decide +kernel, by decide +kernel⟩, by decide +kernel, by decide +kernel,
      token_verifies hv _ 2 1 (by decide) (by decide) (by decide +kernel) rfl⟩,
   ⟨ak (pb 2 [(0, 0x80)]) (wOwned [] 1 1), pb 2 [(0, 0x80)], wToken 1 1, ⟨by decide +kernel, by decide +kernel⟩,
      by decide +kernel, by decide +kernel, token_verifies hv _ 1 1 (by decide) (by decide) (by decide +kernel) rfl⟩,
   ⟨ak (sb [(0, 0x92), (64, 2)]) (wOwned [] 5 0), sb [(0, 0x92), (64, 2)], wToken 5 0, by decide +kernel, by decide +kernel, by decide +kernel,
      ⟨by decide +kernel, by decide +kernel⟩, by decide +kernel, by decide +kernel,
      token_verifies hv _ 5 0 (by decide) (by decide) (by decide +kernel) rfl, by decide +kernel⟩,
   ⟨ak (sb [(0, 0x92), (64, 3)]) (wOwned [] 4 0), sb [(0, 0x92), (64, 3)], wToken 4 0, by decide +kernel, by decide +kernel, by decide +kernel,
      ⟨by decide +kernel, by decide +kernel⟩, by decide +kernel, by decide +kernel,
      token_verifies hv _ 4 0 (by decide) (by decide) (by decide +kernel) rfl⟩,
   ⟨ak (sb [(0, 0x91)]) (wOwned [] 3 0), sb [(0, 0x91)], wToken 3 0, ⟨by decide +kernel, by decide +kernel⟩,
      by decide +kernel, by decide +kernel, by decide +kernel, token_verifies hv _ 3 0 (by decide) (by decide) (by decide +kernel) rfl⟩⟩

theorem witness_StepRunsFront :
    (∃ (s : State) (c : Instr) (r : List Instr), s.pending = c :: r) ∧
    (∃ (s : State), s.pending = [] ∧ s.pins.vaux3 = true) :=
  ⟨⟨{ State.reset with pending := [.timeGet (sb [])] }, .timeGet (sb []), [], by decide +kernel⟩,
   ⟨State.reset, by decide +kernel⟩⟩

theorem witness_EngineWordsRoundTrip : ∃ (w : BitVec 64) (o : EngOp) (f : EngFields), decodeWord w = some (o, f) :=
  ⟨0x1000000000000000#64, .iadd, ⟨0, 0, 0, 0, 0⟩, by decide +kernel⟩

theorem witness_MemoryFormKept : ∃ (s t : State), MemoryForm s ∧ step s = .next t :=
  ⟨State.reset, _, by unfold MemoryForm; decide +kernel, rfl⟩

theorem witness_CommandsTurnedAway :
    (∃ (s : State) (sub : Submission) (hash : BitVec 384) (token : BitVec 4096) (fell : Bool) (c : Instr) (sp : Spec) (sel : BitVec 512
     → Bool) (st : Status), (c, sp, sel) ∈ ([(.podCreate sub, spCreate, fun e => !entFlag e), (.podCreateAmend sub, spCreate,
     entFlag), (.podSetQuota sub, spQuota, fun _ => true), (.podMoveCores sub, spMove, fun _ => true), (.podBind sub, spBind, fun
     e => bit e.toNat 68), (.podUnbind sub, spBind, fun e => !bit e.toNat 68), (.podDestroy sub, spDestroy, fun _ => true),
     (.regionMap sub, spMap, fun e => ent e 65 64 ≠ 1), (.mirrorDeclare sub, spMap, fun e => ent e 65 64 = 1), (.regionUnmap sub,
     spUnmap, fun _ => true), (.memFill sub, spFill, fun _ => true), (.windowMap sub, spWindow, fun _ => true)] ++ [(.graphLoad
     sub, spLoad, fun e => !entFlag e), (.graphUnload sub, spLoad, entFlag), (.graphRun sub, spRun, fun _ => true), (.graphCancel
     sub, spCancel, fun _ => true), (.journalRead sub, spJournal, fun _ => true), (.batchStep sub, spStep, fun _ => true),
     (.streamOpen sub, spOpen, fun e => !entFlag e), (.streamOpenInbound sub, spOpen, entFlag), (.streamCancel sub, spStrCancel,
     fun _ => true), (.streamPark sub, spPark, fun _ => true), (.streamUnpark sub, spUnpark, fun _ => true), (.streamShip sub,
     spShip, fun _ => true), (.adapterLoad sub, spAdapter, fun _ => true), (.prefixInsert sub, spInsert, fun e => !entFlag e),
     (.prefixRemove sub, spInsert, entFlag), (.prefixLookup sub, spLookup, fun _ => true)] ++ [(.fenceRequest sub, spFence, fun _
     => true), (.unfence sub, spUnfence, fun _ => true), (.fuseRepair sub, spRepair, fun _ => true), (.takeover sub token fell,
     spTakeover, fun _ => true), (.thermalConfig sub, spThermal, fun _ => true), (.powerLimit sub, spPower, fun e => !entFlag e),
     (.powerLimitForce sub, spPower, entFlag), (.timeSet sub, spTimeSet, fun _ => true), (.timeGet sub, spTimeGet, fun _ => true),
     (.debugUnlock sub token, spDebug, fun _ => true), (.lifecycleRead sub, spLifecycle, fun e => lcMode e = 0), (.setOwner sub
     hash, spLifecycle, fun e => lcMode e = 1), (.rotateOwner sub token, spLifecycle, fun e => lcMode e = 2), (.retire sub token,
     spLifecycle, fun e => lcMode e = 3)] : List (Instr × Spec × (BitVec 512 → Bool))) ∧ Takes sp sel sub s ∧ checkFrom sp sub s = some st) ∧
    (∃ (s : State) (sp : Spec), lifecycle s = 3 ∧ sp.op ∉ [0x01, 0x02, 0x04, 0x92]) ∧
    (∃ (s : State), s.sec.unlock ≠ none) ∧
    (∃ (s : State) (sp : Spec) (sub : Submission), lifecycle s ≠ 3 ∧ s.sec.retiring = false ∧ s.sec.unlock = none ∧
     (getHub s (fnHub sub.mbx.fn)).lead = .demoted ∧ sp.op ∉ [0x01, 0x02, 0x04, 0x80]) :=
  ⟨⟨ak (sb [(0, 0x10), (36, 1)]) { wR with sec := { retireFuse := true } }, sb [(0, 0x10), (36, 1)], 0, 0, false, .podCreate (sb [(0,
     0x10), (36, 1)]), spCreate, fun e => !entFlag e, stLOCKED, List.mem_append_left _ (List.mem_append_left _ (List.mem_cons_self
     ..)), ⟨by decide +kernel, by decide +kernel⟩, by decide +kernel⟩,
   ⟨{ wR with sec := { retireFuse := true } }, spMap, by decide +kernel⟩,
   ⟨{ wR with sec := { unlock := some (wUnlock 0 true) } }, by decide +kernel⟩,
   ⟨{ wR with hubA := { lead := .demoted }, hubB := { lead := .lead } }, spMap, sb [], by decide +kernel⟩⟩

theorem witness_MaxiFindsLargest : ∃ (s : State) (at_ : Issue) (w : EngFields) (run : EngineRun) (g : Group) (l : List Nat), readyGroup .maxi at_ w s = some (run, g)
     ∧ w.d.toNat ≤ 62 ∧ guarded_ g w = l ∧ l ≠ [] :=
  ⟨wEs ({ wEr .maxi ⟨0, 0, 0, 0, 0⟩ with groups := [wGrp] }), ⟨0, 0⟩, ⟨0, 0, 0, 0, 0⟩, { wEr .maxi ⟨0, 0, 0, 0, 0⟩ with groups := [wGrp] },
     wGrp, [0, 1], by decide +kernel⟩

theorem witness_ThermalWarning : ∃ (s : State) (n : Nat) (d : ThmDie) (top : Int), n < 22 ∧ SMap.get {} s.thermal.dies n = d ∧ indexTj s n = top :=
  ⟨State.reset, 21, _, _, by decide +kernel, rfl, rfl⟩

theorem witness_TernaryRecordsDecode : ∃ (bs : List Byte) (scaled : Bool) (c : Nat) (byte : Nat → Nat) (trit : Nat → FVal), bs.length = 15 ∧ (∀ j, byte j = (nth 0 bs
     j).toNat) ∧ c = byte 13 + 256 * byte 14 ∧ (∀ d, trit d = if d = 0 then .fin false 0 0 else if d = 1 then .fin false 1 0 else
     .fin true 1 0) :=
  ⟨List.replicate 15 242, true, 242 + 256 * 242, fun j => (nth 0 (List.replicate 15 (242 : Byte)) j).toNat, fun d => if d = 0 then
     .fin false 0 0 else if d = 1 then .fin false 1 0 else .fin true 1 0, by decide +kernel, fun _ => rfl, by decide +kernel, fun
     _ => rfl⟩

theorem witness_MailboxCommandsRun :
    (∃ (s : State) (m : Mbx) (b : Mailbox), mbxAlive s m = true ∧ getMbx s m = b ∧ b.state ≠ 1 ∧ mbxParamsOk b = true) ∧
    (∃ (s : State) (m : Mbx) (b : Mailbox), mbxAlive s m = true ∧ getMbx s m = b ∧ b.state ≠ 1 ∧ mbxParamsOk b = false) ∧
    (∃ (s : State) (m : Mbx) (b : Mailbox), mbxAlive s m = true ∧ getMbx s m = b) ∧
    (∃ (s : State) (m : Mbx) (b : Mailbox) (v : BitVec 16), mbxAlive s m = true ∧ getMbx s m = b ∧ b.state = 1 ∧ ready s (fnHub m.fn) =
     true ∧ v.toNat = b.sqTail ∧ v.toNat < 2 ^ b.sqLog) ∧
    (∃ (s : State) (m : Mbx) (b : Mailbox) (v : BitVec 16) (h : Hub), mbxAlive s m = true ∧ getMbx s m = b ∧ b.state = 1 ∧ ready s (fnHub m.fn) =
     true ∧ v.toNat ≠ b.sqTail ∧ v.toNat < 2 ^ b.sqLog ∧ getHub s (fnHub m.fn) = h) ∧
    (∃ (s : State) (m : Mbx) (b : Mailbox) (v : BitVec 16), mbxAlive s m = true ∧ getMbx s m = b ∧ b.state = 1 ∧ ready s (fnHub m.fn) =
     true ∧ 2 ^ b.sqLog ≤ v.toNat) ∧
    (∃ (s : State) (m : Mbx), (getMbx s m).state ≠ 1) ∧
    (∃ (s : State) (m : Mbx) (b : Mailbox) (v : BitVec 16), mbxAlive s m = true ∧ getMbx s m = b ∧ b.state = 1 ∧ v.toNat < 2 ^ b.cqLog) ∧
    (∃ (s : State) (m : Mbx) (b : Mailbox) (v : BitVec 16), mbxAlive s m = true ∧ getMbx s m = b ∧ b.state = 1 ∧ 2 ^ b.cqLog ≤ v.toNat) ∧
    (∃ (s : State) (m : Mbx) (e : BitVec 512) (b : Mailbox), entryWaits s m = true ∧ getMbx s m = b ∧ slotsOf e ≤ freeSlots b ∧
     opcodes.contains (entOpcode e) = true) ∧
    (∃ (s : State) (m : Mbx) (e : BitVec 512) (b : Mailbox), entryWaits s m = true ∧ getMbx s m = b ∧ freeSlots b < slotsOf e) ∧
    (∃ (s : State) (m : Mbx) (b : Mailbox), mbxAlive s m = true ∧ getMbx s m = b ∧ b.state = 1) :=
  ⟨⟨{ wV with mboxes := [(79, { sqLog := 12, cqLog := 4 })] }, ⟨19, 3⟩, _, by decide +kernel, rfl, by decide +kernel⟩,
   ⟨{ State.reset with mboxes := [(0, { sqLog := 13, cqLog := 4 })] }, ⟨0, 0⟩, _, by decide +kernel, rfl, by decide +kernel⟩,
   ⟨wM, ⟨0, 0⟩, _, by decide +kernel, rfl⟩,
   ⟨wM, ⟨0, 0⟩, _, 0, by decide +kernel, rfl, by decide +kernel⟩,
   ⟨wM, ⟨0, 0⟩, _, 15, _, by decide +kernel, rfl, by decide +kernel, by decide +kernel, by decide +kernel, by decide +kernel, rfl⟩,
   ⟨wM, ⟨0, 0⟩, _, 16, by decide +kernel, rfl, by decide +kernel⟩,
   ⟨wM, ⟨1, 0⟩, by decide +kernel⟩,
   ⟨wM, ⟨0, 0⟩, _, 15, by decide +kernel, rfl, by decide +kernel⟩,
   ⟨wM, ⟨0, 0⟩, _, 16, by decide +kernel, rfl, by decide +kernel⟩,
   ⟨wW 0, ⟨0, 0⟩, (sb [(0, 0x03)]).entry, _, by decide +kernel, rfl, by decide +kernel⟩,
   ⟨wW 15, ⟨0, 0⟩, (sb [(0, 0x11)]).entry, _, by decide +kernel, rfl, by decide +kernel⟩,
   ⟨wW 0, ⟨0, 0⟩, _, by decide +kernel, rfl, by decide +kernel⟩⟩

theorem witness_RingRegisters :
    (∃ (s : State) (fn : Nat) (f : Func), fnAlive s fn = true ∧ getFunc s fn = f ∧ f.evEnable = false ∧ 4 ≤ f.evLog ∧ f.evLog ≤ 12) ∧
    (∃ (s : State) (fn : Nat), fnAlive s fn = true) ∧
    (∃ (s : State) (fn : Nat), fnAlive s fn = true) ∧
    (∃ (s : State) (fn vec : Nat) (f : Func) (a : BitVec 64 × BitVec 32), fnAlive s fn = true ∧ getFunc s fn = f ∧ f.bme = true ∧ f.msixOn = true ∧ f.msixMask = false ∧ nth false f.msixPend
     vec = true ∧ f.msix[vec]? = some (a.1, a.2, false)) ∧
    (∃ (s : State) (m : Mbx) (b : Mailbox), mbxAlive s m = true ∧ getMbx s m = b) :=
  ⟨⟨{ wV with funcs := wV.funcs ++ [(19, { evLog := 12 })] }, 19, _, by decide +kernel, rfl, by decide +kernel⟩,
   ⟨wV, 19, by decide +kernel⟩,
   ⟨wV, 19, by decide +kernel⟩,
   ⟨{ State.reset with funcs := [(0, { bme := true, msixOn := true, msixMask := false, msix := [(1, 2, true), (1, 2, false)], msixPend := [false, true, false] })] }, 0, 1, _, (1,
     2), by decide +kernel, rfl, by decide +kernel⟩,
   ⟨State.reset, ⟨3, 0⟩, _, by decide +kernel, rfl⟩⟩

theorem witness_PodCreateRuns :
    (∃ (s : State) (sub : Submission) (e : BitVec 512) (old : Pod), Takes spCreate (fun e => !entFlag e) sub s ∧ sub.entry = e ∧
     checkCmd spCreate true sub (createFields e) true s = none ∧ getPod s (entPod e) = old ∧ old.state = .free ∧ shareSum s + ent
     e 239 235 ≤ 16 ∧ (coreMask (ent e 95 64) (ent e 159 96)).any (coreTaken s) = false ∧ (onesOf 64 (ent e 223 160)).any
     (sliceTaken s) = false) ∧
    (∃ (s : State) (sub : Submission) (e : BitVec 512) (v : Pod), Takes spCreate entFlag sub s ∧ sub.entry = e ∧ checkCmd spCreate
     false sub (amendFields e) true s = none ∧ getPod s (entPod e) = v ∧ jobCount s (entPod e) = 0 ∧ ent e 416 400 = 0 ∧ nodesFit
     v (ent e 507 488) = true) ∧
    (∃ (s : State) (p n : Nat), ∀ q, q ∈ (getPod s p).pfx → ∀ x, x ∈ pfxPath ((getPod s p).pfx.length + 1) (getPod s p) q.1 [q.1] → x < n) :=
  ⟨⟨ak (sb [(0, 0x10), (36, 1), (64, 1), (96, 1), (160, 3), (224, 1024), (235, 16), (256, 1), (320, 2)]) wR, sb [(0, 0x10), (36, 1),
     (64, 1), (96, 1), (160, 3), (224, 1024), (235, 16), (256, 1), (320, 2)], _, _, ⟨by decide +kernel, by decide +kernel⟩, rfl, by decide +kernel, rfl, by decide +kernel⟩,
   ⟨ak (sb [(0, 0x10), (8, 1), (36, 1), (488, 100)]) wB, sb [(0, 0x10), (8, 1), (36, 1), (488, 100)], _, _, ⟨by decide +kernel,
     by decide +kernel⟩, rfl, by decide +kernel, rfl, by decide +kernel⟩,
   ⟨{ wR with pods := [(0, { wPod with nodes := 100, pfx := [(1, { state := 1 })] })] }, 0, 2, by decide +kernel⟩⟩

theorem witness_PodChangesRun :
    (∃ (s : State) (sub : Submission), Takes spQuota (fun _ => true) sub s ∧ checkCmd spQuota false sub (1 ≤ ent sub.entry 74 64 && ent
     sub.entry 74 64 ≤ 1024) true s = none) ∧
    (∃ (s : State) (sub : Submission) (v : Pod) (l : List Nat), Takes spMove (fun _ => true) sub s ∧ checkCmd spMove false sub true
     true s = none ∧ bit sub.entry.toNat 164 = false ∧ getPod s (entPod sub.entry) = v ∧ coreMask (ent sub.entry 95 64) (ent
     sub.entry 159 96) = l ∧ l ≠ [] ∧ l.any (fun c => !v.cores.contains c || v.marked.any (fun m => m.1 = c)) = false) ∧
    (∃ (s : State) (sub : Submission) (v : Pod), Takes spBind (fun e => bit e.toNat 68) sub s ∧ checkCmd spBind false sub true true s =
     none ∧ getPod s (entPod sub.entry) = v ∧ v.state = .created ∧ boundPod s (4 + ent sub.entry 67 64) = none ∧ jobCount s
     (entPod sub.entry) = 0) ∧
    (∃ (s : State) (sub : Submission) (v : Pod), Takes spBind (fun e => !bit e.toNat 68) sub s ∧ checkCmd spBind false sub true true s
     = none ∧ getPod s (entPod sub.entry) = v ∧ v.state = .bound ∧ v.vf = some (ent sub.entry 67 64)) ∧
    (∃ (s : State) (p : Nat) (w : Bool), (getPod s p).walkPend = some w ∧ jobCount s p = 0) ∧
    (∃ (s : State) (sub : Submission) (v : Pod), Takes spDestroy (fun _ => true) sub s ∧ checkCmd spDestroy false sub true true s =
     none ∧ getPod s (entPod sub.entry) = v ∧ v.state ≠ .destroying ∧ podInsts s (entPod sub.entry) = []) ∧
    (∃ (s : State) (p : Nat), (getPod s p).state = .destroying ∧ jobCount s p = 0) ∧
    (∃ (s : State) (p c : Nat), (List.range 16).findSome? (fun q => ((getPod s q).marked.find? (fun m => m.1 = c)).map (fun m => (q,
     m.2))) = some (p, none) ∧ coreHeld s p c = false) :=
  ⟨⟨ak (sb [(0, 0x12), (36, 1), (64, 1024)]) wB, sb [(0, 0x12), (36, 1), (64, 1024)], ⟨by decide +kernel, by decide +kernel⟩, by decide +kernel⟩,
   ⟨ak (sb [(0, 0x13), (36, 1), (64, 1)]) wB, sb [(0, 0x13), (36, 1), (64, 1)], _, _, ⟨by decide +kernel, by decide +kernel⟩, by decide +kernel, by decide +kernel, rfl, rfl, by decide +kernel⟩,
   ⟨ak (sb [(0, 0x14), (36, 1), (64, 15), (68, 1)]) { wR with pods := [(0, { wPod with state := .created, vf := none })] }, sb [(0,
     0x14), (36, 1), (64, 15), (68, 1)], _, ⟨by decide +kernel, by decide +kernel⟩, by decide +kernel, rfl,
     by decide +kernel⟩,
   ⟨ak (sb [(0, 0x14), (36, 1)]) wB, sb [(0, 0x14), (36, 1)], _, ⟨by decide +kernel, by decide +kernel⟩,
     by decide +kernel, rfl, by decide +kernel⟩,
   ⟨{ wR with pods := [(15, { wPod with walkPend := some true })] }, 15, true, by decide +kernel⟩,
   ⟨ak (sb [(0, 0x11), (36, 1)]) wB, sb [(0, 0x11), (36, 1)], _, ⟨by decide +kernel, by decide +kernel⟩,
     by decide +kernel, rfl, by decide +kernel⟩,
   ⟨{ wR with pods := [(15, { wPod with state := .destroying })] }, 15, by decide +kernel⟩,
   ⟨{ wR with pods := [(0, { wPod with marked := [(33, none)] })] }, 0, 33, by decide +kernel⟩⟩

theorem witness_GraphLoadRuns :
    (∃ (s : State) (sub : Submission) (p a n : Nat) (bs : List (Byte × Bool)) (g : Graph) (at' : Nat), Takes spLoad (fun e => !entFlag
     e) sub s ∧ checkCmd spLoad false sub (ent sub.entry 191 160 = 0) true s = none ∧ cmdPod sub = some p ∧ ent
     sub.entry 111 64 = a ∧ ent sub.entry 143 112 = n ∧ podReaches s p a n false = true ∧ fetchBytes a n (taken sub s) = (bs,
     taken sub s) ∧ bs.any (fun b => b.2) = false ∧ graphParse s p (bs.map (fun b => b.1)) = some g ∧ storeFit s p n = some at' ∧
     (podGraphs s p).length < 256) ∧
    (∃ (s : State) (sub : Submission) (p : Nat), Takes spLoad entFlag sub s ∧ cmdPod sub = some p ∧ checkCmd spLoad
     false sub (ent sub.entry 111 64 = 0 && ent sub.entry 143 112 = 0) true s = none ∧ (getGraph s p (ent sub.entry 191
     160)).isSome = true ∧ graphBusy s p (ent sub.entry 191 160) = false) ∧
    (∃ (s : State) (p id : Nat) (c : PendingCmd) (g : Graph), s.cmds.find? (fun c => c.work = .graphLoad p id) = some c ∧
     s.graphs.find? (fun g => g.pod = p && g.id = id) = some g) :=
  ⟨⟨ak (sb [(0, 0x30), (36, 1), (64, addrSlice 1), (112, 384)]) wI, sb [(0, 0x30), (36, 1), (64, addrSlice 1), (112, 384)], 0,
     addrSlice 1, 384, (fetchBytes (addrSlice 1) 384 wI).1, _, _, ⟨by decide +kernel, by decide +kernel⟩,
     by decide +kernel, by decide +kernel, by decide +kernel, by decide +kernel, by decide +kernel, by decide +kernel,
     by decide +kernel, (Option.some_get (by decide +kernel)).symm, (Option.some_get (by decide +kernel)).symm, by decide +kernel⟩,
   ⟨ak (sb [(0, 0x30), (8, 1), (36, 1), (160, 1)]) { wB with graphs := [wGr 6 0] }, sb [(0, 0x30), (8, 1), (36, 1), (160, 1)], _,
     ⟨by decide +kernel, by decide +kernel⟩, (Option.some_get (by decide +kernel)).symm, by decide +kernel⟩,
   ⟨{ wB with graphs := [{ wGr 6 0 with loaded := false }], cmds := [{ tok := wTok, work := .graphLoad 0 1 }] }, 0, 1, _, _,
     (Option.some_get (by decide +kernel)).symm, (Option.some_get (by decide +kernel)).symm⟩⟩

theorem witness_GraphRunRuns :
    (∃ (s : State) (sub : Submission) (p : Nat) (g : Graph) (rel dl : Nat), Takes spRun (fun _ => true) sub s ∧ cmdPod sub = some p ∧ getGraph s p (ent sub.entry 95 64) = some g ∧ g.step = false ∧ g.peer = false ∧ ent sub.entry 303 256 =
     0 ∧ ent sub.entry 159 96 = rel ∧ ent sub.entry 223 160 = dl ∧ checkCmd spRun false sub (bit sub.entry.toNat 224 || rel ≤ dl)
     true s = none ∧ (getPod s p).quota ≤ jobCount s p) ∧
    (∃ (s : State) (sub : Submission) (p : Nat) (g : Graph) (rel dl : Nat), Takes spRun (fun _ => true) sub s ∧ cmdPod sub = some p ∧ getGraph s p (ent sub.entry 95 64) = some g ∧ g.step = false ∧ g.peer = false ∧ ent sub.entry 303 256 =
     0 ∧ ent sub.entry 159 96 = rel ∧ ent sub.entry 223 160 = dl ∧ checkCmd spRun false sub (bit sub.entry.toNat 224 || rel ≤ dl)
     true s = none ∧ jobCount s p < (getPod s p).quota ∧ bit sub.entry.toNat 224 = true) ∧
    (∃ (s : State) (sub : Submission) (p : Nat) (g : Graph) (rel dl : Nat) (slots : _), Takes spRun (fun _ => true) sub s ∧ cmdPod sub = some p ∧ getGraph s p (ent sub.entry 95 64) = some g ∧ g.step = false ∧ g.peer = false ∧ ent sub.entry
     303 256 = 0 ∧ ent sub.entry 159 96 = rel ∧ ent sub.entry 223 160 = dl ∧ checkCmd spRun false sub (bit sub.entry.toNat 224 ||
     rel ≤ dl) true s = none ∧ jobCount s p < (getPod s p).quota ∧ bit sub.entry.toNat 224 = false ∧ tentative (taken sub s) p g
     (max rel (now s)) none = some slots ∧ completionOf slots ≤ dl) ∧
    (∃ (s : State) (sub : Submission) (p : Nat) (g : Graph) (rel dl : Nat) (slots : _), Takes spRun (fun _ => true) sub s ∧ cmdPod sub = some p ∧ getGraph s p (ent sub.entry 95 64) = some g ∧ g.step = false ∧ g.peer = false ∧ ent sub.entry
     303 256 = 0 ∧ ent sub.entry 159 96 = rel ∧ ent sub.entry 223 160 = dl ∧ checkCmd spRun false sub (bit sub.entry.toNat 224 ||
     rel ≤ dl) true s = none ∧ jobCount s p < (getPod s p).quota ∧ bit sub.entry.toNat 224 = false ∧ tentative (taken sub s) p g
     (max rel (now s)) none = some slots ∧ dl < completionOf slots) :=
  ⟨⟨ak (sb [(0, 0x31), (36, 1), (64, 1), (96, 0), (160, 0), (224, 0)]) { wB with graphs := [wGr 6 0], pods := [(0, { wPod with quota := 0 })] },
     sb [(0, 0x31), (36, 1), (64, 1), (96, 0), (160, 0), (224, 0)], _, _, _, _, ⟨by decide +kernel, by decide +kernel⟩, (Option.some_get (by decide +kernel)).symm, (Option.some_get (by decide +kernel)).symm,
     by decide +kernel, by decide +kernel, by decide +kernel, rfl, rfl, by decide +kernel⟩,
   ⟨ak (sb [(0, 0x31), (36, 1), (64, 1), (96, 5), (160, 3), (224, 1)]) { wB with graphs := [wGr 6 0] }, sb [(0, 0x31), (36, 1), (64,
     1), (96, 5), (160, 3), (224, 1)], _, _, _, _, ⟨by decide +kernel, by decide +kernel⟩, (Option.some_get
     (by decide +kernel)).symm, (Option.some_get (by decide +kernel)).symm, by decide +kernel, by decide +kernel,
     by decide +kernel, rfl, rfl, by decide +kernel⟩,
   ⟨ak (sb [(0, 0x31), (36, 1), (64, 1), (96, 0), (160, 100000), (224, 0)]) { wB with graphs := [wGr 6 0] }, sb [(0, 0x31), (36, 1),
     (64, 1), (96, 0), (160, 100000), (224, 0)], _, _, _, _, _, ⟨by decide +kernel, by decide +kernel⟩,
     (Option.some_get (by decide +kernel)).symm, (Option.some_get (by decide +kernel)).symm, by decide +kernel, by decide +kernel,
     by decide +kernel, rfl, rfl, by decide +kernel, by decide +kernel, by decide +kernel, (Option.some_get
     (by decide +kernel)).symm, by decide +kernel⟩,
   ⟨ak (sb [(0, 0x31), (36, 1), (64, 1), (96, 0), (160, 0), (224, 0)]) { wB with graphs := [wGr 3 0] }, sb [(0, 0x31), (36, 1), (64,
     1), (96, 0), (160, 0), (224, 0)], _, _, _, _, _, ⟨by decide +kernel, by decide +kernel⟩, (Option.some_get
     (by decide +kernel)).symm, (Option.some_get (by decide +kernel)).symm, by decide +kernel, by decide +kernel,
     by decide +kernel, rfl, rfl, by decide +kernel, by decide +kernel, by decide +kernel, (Option.some_get
     (by decide +kernel)).symm, by decide +kernel⟩⟩

theorem witness_RecordsAndCancelRun :
    (∃ (s : State) (sub : Submission) (p : Nat), Takes spCancel (fun _ => true) sub s ∧ cmdPod sub = some p ∧
     checkCmd spCancel false sub true true s = none ∧ (findInst s p (ent sub.entry 95 64)).isSome = true) ∧
    (∃ (s : State) (sub : Submission) (p n : Nat), Takes spJournal (fun _ => true) sub s ∧ cmdPod sub = some p ∧ ent
     sub.entry 172 160 = n ∧ 1 ≤ n ∧ n ≤ 4096 ∧ ent sub.entry 127 64 % 64 = 0 ∧ (getPod s p).jhead ≤ ent sub.entry 159 128 + 65536
     ∧ checkCmd spJournal false sub true true s = none) ∧
    (∃ (s : State) (sub : Submission), ent sub.entry 127 64 % 64 = 0 ∧ Takes (spReport 0x01 .any) (fun _ => true) sub s ∧ checkCmd
     (spReport 0x01 .any) false sub true true s = none) ∧
    (∃ (s : State) (sub : Submission), ent sub.entry 127 64 % 64 = 0 ∧ Takes (spReport 0x02 .any) (fun _ => true) sub s ∧ checkCmd
     (spReport 0x02 .any) false sub true true s = none) ∧
    (∃ (s : State) (sub : Submission), ent sub.entry 127 64 % 64 = 0 ∧ Takes (spReport 0x60 .mgmt) (fun _ => true) sub s ∧ checkCmd
     (spReport 0x60 .mgmt) false sub true true s = none) ∧
    (∃ (s : State) (sub : Submission), ent sub.entry 127 64 % 64 = 0 ∧ Takes (spReport 0x61 .mgmt) (fun _ => true) sub s ∧ checkCmd
     (spReport 0x61 .mgmt) false sub true true s = none) ∧
    (∃ (sub : Submission), ent sub.entry 127 64 % 64 = 0) :=
  ⟨⟨ak (sb [(0, 0x32), (36, 1), (64, 7)]) (wN 6 0 (wNode .notStarted)), sb [(0, 0x32), (36, 1), (64, 7)], _, ⟨by decide +kernel,
     by decide +kernel⟩, (Option.some_get (by decide +kernel)).symm, by decide +kernel⟩,
   ⟨ak (sb [(0, 0x33), (36, 1), (64, 64), (160, 4096)]) { wR with pods := [(0, { wPod with jhead := 65536 })] }, sb [(0, 0x33), (36,
     1), (64, 64), (160, 4096)], _, _, ⟨by decide +kernel, by decide +kernel⟩, (Option.some_get
     (by decide +kernel)).symm, rfl, by decide +kernel⟩,
   ⟨ak (sb [(0, 0x01), (64, 4096)]) wR, sb [(0, 0x01), (64, 4096)], by decide +kernel, ⟨by decide +kernel, by decide +kernel⟩, by decide +kernel⟩,
   ⟨ak (sb [(0, 0x02), (64, 4096)]) wR, sb [(0, 0x02), (64, 4096)], by decide +kernel, ⟨by decide +kernel, by decide +kernel⟩, by decide +kernel⟩,
   ⟨ak (sb [(0, 0x60), (64, 4096)]) wR, sb [(0, 0x60), (64, 4096)], by decide +kernel, ⟨by decide +kernel, by decide +kernel⟩, by decide +kernel⟩,
   ⟨ak (sb [(0, 0x61), (64, 4096)]) wR, sb [(0, 0x61), (64, 4096)], by decide +kernel, ⟨by decide +kernel, by decide +kernel⟩, by decide +kernel⟩,
   ⟨sb [(0, 0x01), (64, 4096)], by decide +kernel⟩⟩

theorem witness_RegionMapRuns :
    (∃ (s : State) (sub : Submission) (e : BitVec 512) (r : Region) (id : Nat) (s' : State), sub.entry = e ∧ Takes spMap (fun e => ent
     e 65 64 ≠ 1) sub s ∧ checkCmd spMap false sub (mapFields (taken sub s) e) ((getPod s (ent e 71 68)).state ≠ .free) s = none ∧
     mapRegion (taken sub s) e = r ∧ mapRefused (taken sub s) r = none ∧ takeId (taken sub s) = some (id, s')) ∧
    (∃ (s : State) (sub : Submission) (e : BitVec 512) (r : Region) (id : Nat) (s' : State), sub.entry = e ∧ Takes spMap (fun e => ent
     e 65 64 ≠ 1) sub s ∧ checkCmd spMap false sub (mapFields (taken sub s) e) ((getPod s (ent e 71 68)).state ≠ .free) s = none ∧
     mapRegion (taken sub s) e = r ∧ mapRefused (taken sub s) r = none ∧ takeId (taken sub s) = some (id, s') ∧ bit e.toNat 80 =
     false) ∧
    (∃ (s : State) (sub : Submission) (e : BitVec 512) (r : Region) (id : Nat) (s' : State), sub.entry = e ∧ Takes spMap (fun e => ent
     e 65 64 ≠ 1) sub s ∧ checkCmd spMap false sub (mapFields (taken sub s) e) ((getPod s (ent e 71 68)).state ≠ .free) s = none ∧
     mapRegion (taken sub s) e = r ∧ mapRefused (taken sub s) r = none ∧ takeId (taken sub s) = some (id, s') ∧ bit e.toNat 80 =
     true) ∧
    (∃ (s : State) (sub : Submission) (e : BitVec 512) (m : Mirror) (id : Nat) (s' : State), sub.entry = e ∧ Takes spMap (fun e => ent
     e 65 64 = 1) sub s ∧ checkCmd spMap false sub (mirrorFields e) ((getPod s (ent e 71 68)).state ≠ .free) s = none ∧ m = { pod := ent e 71 68, src := ent e 255 208, len := ent e 283 256, slice := ent e 293 288, removed := false }
     ∧ ((getPod s m.pod).state = .created ∨ (getPod s m.pod).state = .bound) ∧ mirrorSource (taken sub s) m.pod m.src m.len = true
     ∧ (getPod s m.pod).slices.contains m.slice = true ∧ sliceMirror (taken sub s) m.slice = none ∧ jobCount s m.pod = 0 ∧ takeId
     (taken sub s) = some (id, s')) ∧
    (∃ (s : State) (sub : Submission) (r : Region) (id : Nat), Takes spUnmap (fun _ => true) sub s ∧ checkCmd spUnmap false sub true
     true s = none ∧ ent sub.entry 71 64 = id ∧ getRegion s id = some r ∧ r.ready = true ∧ unmapRefused (taken
     sub s) id r = false) :=
  ⟨⟨ak (sb [(0, 0x20), (66, 1), (72, 3), (128, 1)]) wB, sb [(0, 0x20), (66, 1), (72, 3), (128, 1)], _, _, _, _, rfl,
     ⟨by decide +kernel, by decide +kernel⟩, by decide +kernel, rfl, by decide +kernel, rfl⟩,
   ⟨ak (sb [(0, 0x20), (66, 1), (72, 3), (128, 1)]) wB, sb [(0, 0x20), (66, 1), (72, 3), (128, 1)], _, _, _, _, rfl,
     ⟨by decide +kernel, by decide +kernel⟩, by decide +kernel, rfl, by decide +kernel, rfl, by decide +kernel⟩,
   ⟨ak (sb [(0, 0x20), (80, 1), (128, 16777216)]) wB, sb [(0, 0x20), (80, 1), (128, 16777216)], _, _, _, _, rfl, ⟨by decide +kernel,
     by decide +kernel⟩, by decide +kernel, rfl, by decide +kernel, rfl, by decide +kernel⟩,
   ⟨ak (sb [(0, 0x20), (64, 1), (256, 64)]) wG, sb [(0, 0x20), (64, 1), (256, 64)], _, ⟨0, 0, 64, 0, false⟩, _, _, rfl,
     ⟨by decide +kernel, by decide +kernel⟩, by decide +kernel, by decide +kernel, by decide +kernel,
     by decide +kernel, by decide +kernel, by decide +kernel, by decide +kernel, rfl⟩,
   ⟨ak (sb [(0, 0x21), (64, 255)]) { wB with regions := [(255, some wReg)] }, sb [(0, 0x21), (64, 255)], wReg, _, ⟨by decide +kernel,
     by decide +kernel⟩, by decide +kernel, rfl, by decide +kernel⟩⟩

/-- Commands waiting for a fill. -/
def wFill (op : Nat) (ranges : List (Nat × Nat)) (pat : BitVec 64) (frees map : Option Nat) : PendingCmd :=
  { tok := { wTok with opcode := op }, work := .fill ranges pat frees map }
/-- A MEM_FILL of the owner. -/
def wMf : Submission := sb [(0, 0x22), (36, 1), (112, 64)]

theorem witness_FillCommandsRun :
    (∃ (s : State) (sub : Submission) (a n : Nat), Takes spFill (fun _ => true) sub s ∧ ent sub.entry 111 64 = a ∧ ent sub.entry 159
     112 = n ∧ checkCmd spFill false sub (a % 64 = 0 && n % 64 = 0 && 64 ≤ n && n ≤ 2 ^ 40) true s = none ∧ fillReach (taken sub
     s) (cmdPod sub) a n = true) ∧
    (∃ (s : State) (i : Nat) (l : List (Nat × Nat)) (pat : BitVec 64) (tok : CmdTok),
     s.cmds[i]? = some { tok := tok, work := .fill l pat none none } ∧ (∀ q, q ∈ l → placeFenced s (placeOf q.1) = false)) ∧
    (∃ (s : State) (i : Nat) (l : List (Nat × Nat)) (pat : BitVec 64) (tok : CmdTok),
     s.cmds[i]? = some { tok := tok, work := .fill l pat none none } ∧ (∃ q, q ∈ l ∧ placeFenced s (placeOf q.1) = true) ∧ tok.opcode ≠ 0x20) ∧
    (∃ (s : State) (i id : Nat) (l : List (Nat × Nat)) (r : Region) (tok : CmdTok),
     s.cmds[i]? = some { tok := tok, work := .fill l 0 none (some id) } ∧ tok.opcode = 0x20 ∧ getRegion s id = some r ∧
     (∀ q, q ∈ l → placeFenced s (placeOf q.1) = false)) ∧
    (∃ (s : State) (i id : Nat) (l : List (Nat × Nat)) (r : Region) (tok : CmdTok),
     s.cmds[i]? = some { tok := tok, work := .fill l 0 none (some id) } ∧ tok.opcode = 0x20 ∧ getRegion s id = some r ∧
     (∃ q, q ∈ l ∧ placeFenced s (placeOf q.1) = true)) ∧
    (∃ (s : State) (i id : Nat) (l : List (Nat × Nat)) (pat : BitVec 64) (tok : CmdTok),
     s.cmds[i]? = some { tok := tok, work := .fill l pat (some id) none }) ∧
    (∃ (a n : Nat), a % 64 = 0 ∧ n % 64 = 0) :=
  ⟨⟨ak wMf wG, wMf, _, _, ⟨by decide +kernel, by decide +kernel⟩, rfl, rfl, by decide +kernel⟩,
   ⟨{ wR with cmds := [wFill 0x22 [(0, 64)] 7 none none] }, 0, [(0, 64)], 7, _, rfl, by decide +kernel⟩,
   ⟨{ wR with cmds := [wFill 0x22 [(0, 64)] 7 none none], fences := [(.stack 0, 1)] }, 0, [(0, 64)], 7, _, rfl, by decide +kernel⟩,
   ⟨{ wG with cmds := [wFill 0x20 [(0, 64)] 0 none (some 5)] }, 0, 5, [(0, 64)], wReg, _, rfl, by decide +kernel⟩,
   ⟨{ wG with cmds := [wFill 0x20 [(0, 64)] 0 none (some 5)], fences := [(.stack 0, 1)] }, 0, 5, [(0, 64)], wReg, _, rfl, by decide +kernel⟩,
   ⟨{ wR with cmds := [wFill 0x21 [] 0 (some 3) none] }, 0, 3, [], 0, _, rfl⟩,
   ⟨64, 64, by decide⟩⟩

/-- A WINDOW_MAP of window 63 onto partner 32. -/
def wWm (access partner : Nat) : Submission := sb [(0, 0x52), (64, 63), (74, access), (80, partner), (96, 4096), (160, 268435456)]
/-- A pod and that partner. -/
def wWp : State := { wB with partners := [(32, { state := .active })] }

theorem witness_WindowMapRuns :
    (∃ (s : State) (sub : Submission) (e : BitVec 512) (w : Nat) (old : PeerWindow) (fields : Bool), (Takes spWindow (fun _ => true) sub s ∧
     sub.entry = e ∧ ent e 69 64 = w ∧ getWindow s w = old ∧
     fields = (ent e 75 74 < 3 && ent e 159 96 % 4096 = 0 && 1 ≤ ent e 188 160 && ent e 188 160 ≤ 2 ^ 28)) ∧
     checkFrom spWindow sub s = none ∧ podOk spWindow sub.mbx.fn e = true ∧ reservedOk spWindow e = true ∧ fields = false) ∧
    (∃ (s : State) (sub : Submission) (e : BitVec 512) (w : Nat) (old : PeerWindow) (fields : Bool), (Takes spWindow (fun _ => true) sub s ∧
     sub.entry = e ∧ ent e 69 64 = w ∧ getWindow s w = old ∧
     fields = (ent e 75 74 < 3 && ent e 159 96 % 4096 = 0 && 1 ≤ ent e 188 160 && ent e 188 160 ≤ 2 ^ 28)) ∧
     checkFrom spWindow sub s = none ∧ podOk spWindow sub.mbx.fn e = true ∧ reservedOk spWindow e = true ∧ fields = true ∧
     (partnerKnown s (ent e 95 80) = false ∨ (getPod s (ent e 73 70)).state = .free)) ∧
    (∀ k : Fin 3, ∃ (s : State) (sub : Submission) (e : BitVec 512) (w : Nat) (old : PeerWindow) (fields : Bool),
     (Takes spWindow (fun _ => true) sub s ∧ sub.entry = e ∧ ent e 69 64 = w ∧ getWindow s w = old ∧
     fields = (ent e 75 74 < 3 && ent e 159 96 % 4096 = 0 && 1 ≤ ent e 188 160 && ent e 188 160 ≤ 2 ^ 28)) ∧
     checkCmd spWindow false sub true true s = none ∧ fields = true ∧ partnerKnown s (ent e 95 80) = true ∧
     ((getPod s (ent e 73 70)).state = .created ∨ (getPod s (ent e 73 70)).state = .bound) ∧
     (if k = 0 then old.access ≠ 0 ∧ jobCount s old.pod ≠ 0 else (old.access = 0 ∨ jobCount s old.pod = 0) ∧
      if k = 1 then ent e 75 74 = 0 else ent e 75 74 ≠ 0)) :=
  ⟨⟨ak (wWm 3 32) wWp, wWm 3 32, _, _, _, _, ⟨⟨by decide +kernel, by decide +kernel⟩, rfl, rfl, rfl, rfl⟩, by decide +kernel⟩,
   ⟨ak (wWm 2 33) wWp, wWm 2 33, _, _, _, _, ⟨⟨by decide +kernel, by decide +kernel⟩, rfl, rfl, rfl, rfl⟩, by decide +kernel⟩,
   fun k => match k with
    | 0 => ⟨ak (wWm 2 32) { wWp with insts := [wInst (wNode .running)], windows := [(63, { pod := 0, access := 1, partner := 32, len := 4096 })] },
        wWm 2 32, _, _, _, _, ⟨⟨by decide +kernel, by decide +kernel⟩, rfl, rfl, rfl, rfl⟩, by decide +kernel⟩
    | 1 => ⟨ak (wWm 0 32) wWp, wWm 0 32, _, _, _, _, ⟨⟨by decide +kernel, by decide +kernel⟩, rfl, rfl, rfl, rfl⟩, by decide +kernel⟩
    | 2 => ⟨ak (wWm 2 32) wWp, wWm 2 32, _, _, _, _, ⟨⟨by decide +kernel, by decide +kernel⟩, rfl, rfl, rfl, rfl⟩, by decide +kernel⟩⟩

theorem witness_PartnerCommandsRun :
    (∃ (s : State) (sub : Submission) (e : BitVec 512) (id : Nat), sub.entry = e ∧ Takes spPartnerAdd (fun _ => true) sub s ∧ ent e 79
     64 = id ∧ checkCmd spPartnerAdd false sub (32 ≤ id && id ≤ 95 && (ent e 81 80 = 1 || ent e 81 80 = 2) && ent e 159 96 % 4 =
     0) true s = none ∧ (getPartner s id).state = .absent ∧ portUp s (ent e 83 82) = true) ∧
    (∃ (s : State) (id : Nat) (p : Partner) (tok : CmdTok), getPartner s id = p ∧ p.state = .probing ∧ p.tok = some tok) ∧
    (∃ (s : State) (id : Nat), (getPartner s id).state = .active ∧ senderOver s id = none) ∧
    (∃ (s : State) (id : Nat), (getPartner s id).state = .confirming) ∧
    (∃ (s : State) (id c : Nat), ((getPartner s id).state = .active ∨ (getPartner s id).state = .confirming) ∧ (getPartner s
     id).completer ≠ c) ∧
    (∃ (s : State) (sub : Submission) (id : Nat), Takes spPartnerRemove (fun _ => true) sub s ∧ ent sub.entry 79 64 = id ∧ checkCmd
     spPartnerRemove false sub true true s = none ∧ entFlag sub.entry = false ∧ removeBlocked (taken sub s) id = false ∧
     (getPartner s id).state = .lost) ∧
    (∃ (s : State) (sub : Submission) (id : Nat), Takes spPartnerRemove (fun _ => true) sub s ∧ ent sub.entry 79 64 = id ∧ checkCmd
     spPartnerRemove false sub true true s = none ∧ entFlag sub.entry = false ∧ removeBlocked (taken sub s) id = false ∧
     (getPartner s id).state = .active) ∧
    (∃ (s : State) (id c : Nat) (tok : CmdTok), (getPartner s id).state = .removing ∧ (getPartner s id).tok = some tok ∧
     (getPartner s id).removeAt = now s ∧ (getPartner s id).completer ≠ c) ∧
    (∃ (s : State) (id : Nat) (tok : CmdTok), (getPartner s id).state = .removing ∧ (getPartner s id).tok = some tok ∧ drainedOf s id =
     true) :=
  ⟨⟨ak (sb [(0, 0x50), (64, 95), (80, 2), (82, 3), (96, 4)]) wL, sb [(0, 0x50), (64, 95), (80, 2), (82, 3), (96, 4)], _, _, rfl,
     ⟨by decide +kernel, by decide +kernel⟩, rfl, by decide +kernel⟩,
   ⟨{ wR with partners := [(32, { state := .probing, tok := some wTok })] }, 32, _, wTok, rfl, by decide +kernel⟩,
   ⟨{ wR with partners := [(95, { state := .active })] }, 95, by decide +kernel⟩,
   ⟨{ wR with partners := [(95, { state := .confirming })] }, 95, by decide +kernel⟩,
   ⟨{ wR with partners := [(95, { state := .confirming })] }, 95, 1, by decide +kernel⟩,
   ⟨ak (sb [(0, 0x51), (64, 32)]) { wR with partners := [(32, { state := .lost })] }, sb [(0, 0x51), (64, 32)], _,
     ⟨by decide +kernel, by decide +kernel⟩, rfl, by decide +kernel⟩,
   ⟨ak (sb [(0, 0x51), (64, 32)]) { wR with partners := [(32, { state := .active })] }, sb [(0, 0x51), (64, 32)], _,
     ⟨by decide +kernel, by decide +kernel⟩, rfl, by decide +kernel⟩,
   ⟨{ wR with partners := [(32, { state := .removing, tok := some wTok, removeAt := now wR })] }, 32, 1, wTok, by decide +kernel⟩,
   ⟨{ wR with partners := [(32, { state := .removing, tok := some wTok })] }, 32, wTok, by decide +kernel⟩⟩

theorem witness_OwnershipRuns :
    (∃ (s : State) (sub : Submission), Takes spOwner (fun e => ownerMode e = 0 || ownerMode e = 3) sub s ∧ checkCmd spOwner false sub
     (ownerMode sub.entry = 0) true s = none ∧ s.owner = some sub.mbx.fn) ∧
    (∃ (s : State) (sub : Submission), Takes spOwner (fun e => ownerMode e = 1) sub s ∧ checkCmd spOwner false sub true true s = none ∧
     offerStands s sub.mbx.fn (ent sub.entry 95 80) = true) ∧
    (∃ (s : State) (sub : Submission), Takes spOwner (fun e => ownerMode e = 1) sub s ∧ checkCmd spOwner false sub true true s = none ∧
     offerStands s sub.mbx.fn (ent sub.entry 95 80) = false) ∧
    (∃ (s : State) (p c t : Nat), s.offer = some (p, c, t) ∧ t + 10000000000 ≤ now s) :=
  ⟨⟨ak (sb [(0, 0x81), (66, 1), (80, 7)]) wR, sb [(0, 0x81), (66, 1), (80, 7)], ⟨by decide +kernel, by decide +kernel⟩, by decide +kernel⟩,
   ⟨ak (pb 1 [(0, 0x81), (64, 1), (80, 7)]) { wR with offer := some (1, 7, 0) }, pb 1 [(0, 0x81), (64, 1), (80, 7)],
     ⟨by decide +kernel, by decide +kernel⟩, by decide +kernel⟩,
   ⟨ak (pb 1 [(0, 0x81), (64, 1), (80, 7)]) wR, pb 1 [(0, 0x81), (64, 1), (80, 7)], ⟨by decide +kernel, by decide +kernel⟩, by decide +kernel⟩,
   ⟨{ wR with offer := some (1, 7, 0), clock := { timeA := 10000000000, timeB := 10000000000 } }, 1, 7, 0, by decide +kernel⟩⟩

theorem witness_HostAccessRuns :
    (∃ (s : State) (fn off len a : Nat) (bs : List (Byte × Bool)), fn < 20 ∧ len ≠ 0 ∧ bar2Pieces s fn off len false = some [⟨a, len,
     false⟩] ∧ inPeer a = false ∧ fetchBytes a len s = (bs, s) ∧ bs.any (fun b => b.2) = false) ∧
    (∃ (s : State) (fn off len a : Nat) (bs : List (Byte × Bool)), fn < 20 ∧ len ≠ 0 ∧ bar2Pieces s fn off len false = some [⟨a, len,
     false⟩] ∧ inPeer a = false ∧ fetchBytes a len s = (bs, s) ∧ bs.any (fun b => b.2) = true) ∧
    (∃ (s : State) (fn off a : Nat) (bs : List Byte), fn < 20 ∧ bs ≠ [] ∧ bar2Pieces s fn off bs.length true = some [⟨a, bs.length,
     false⟩] ∧ inPeer a = false) ∧
    (∃ (s : State) (fn off len a : Nat), fn < 20 ∧ len ≠ 0 ∧ bar2Pieces s fn off len true = some [⟨a, len, false⟩] ∧ inPeer a = false) ∧
    (∃ (s : State) (p h a : Nat) (bs : List Byte), p < 4 ∧ (getPort s p).cxl = true ∧ bs ≠ [] ∧
     hdmMap (getPort s p).hdm 0 h bs.length = some a ∧ cxlPieces s p a bs.length true = some [⟨a, bs.length, false⟩] ∧ inPeer a = false) ∧
    (∃ (s : State) (p : Nat), (getPort s p).cxl = false) ∧
    (∃ (s : State) (fn : Nat), fn < 20 ∧ fnThere s fn = true) ∧
    (∃ (s : State) (fn len : Nat), len ≠ 0 ∧ fnThere s fn = true ∧ fnAlive s fn = false) ∧
    (∃ (s : State) (fn off : Nat) (bs : List Byte), bar2Pieces s fn off bs.length true = none) :=
  ⟨⟨wH, 0, addrSlice 1, 64, addrSlice 1, (fetchBytes (addrSlice 1) 64 wH).1, by decide +kernel⟩,
   ⟨{ wH with poison := [(addrSlice 1 / 64, true)] }, 0, addrSlice 1, 64, addrSlice 1, (fetchBytes (addrSlice 1) 64 { wH with poison := [(addrSlice 1 / 64, true)] }).1,
     by decide +kernel⟩,
   ⟨wH, 0, addrSlice 2, addrSlice 2, [1, 2], by decide +kernel⟩,
   ⟨wH, 0, addrSlice 2, 1, addrSlice 2, by decide +kernel⟩,
   ⟨{ wH with ports := [(0, { linkUp := true, cxl := true, hdm := [{ base := 4, size := 0x2000, committed := true }, {}] })] }, 0,
     hdmUnit * 4 + addrSlice 2, addrSlice 2, [1, 2], by decide +kernel⟩,
   ⟨State.reset, 3, by decide +kernel⟩,
   ⟨wV, 19, by decide +kernel⟩,
   ⟨{ wV with fences := [(.port 3, 1)] }, 19, 4, by decide +kernel⟩,
   ⟨State.reset, 20, 0, [1], by decide +kernel⟩⟩

theorem witness_HostResetsRun :
    (∃ (s : State) (fn : Nat), fnThere s fn = true ∧ isPF fn = false ∧ hostArrived s fn = false) ∧
    (∃ (p : Nat), p < 4) ∧
    (∃ (s : State) (fn : Nat), fnThere s fn = true ∧ (getFunc s fn).bme = false ∧ (getPort s (fnPort fn)).linkUp = true) ∧
    (∃ (s : State) (fn : Nat), fnThere s fn = true) ∧
    (∃ (s : State) (p st k : Nat) (id : Nat), p < 4 ∧ st < 4 ∧ k < 6 ∧ lifecycle s ≠ 2 ∧ s.sec.sessions.any (fun x => x.id = id && x.st
     = 1) = true) ∧
    (∃ (s : State) (p : Nat), p < 4 ∧ 4 ≤ s.fw.stage ∧ s.fw.t0 + 100000000 ≤ now s ∧ hubFenced s (p / 2) = false ∧ (getPort s p).linkUp
     = false) :=
  ⟨⟨wV, 19, by decide +kernel⟩,
   ⟨3, by decide +kernel⟩,
   ⟨{ wV with ports := wL.ports }, 19, by decide +kernel⟩,
   ⟨wV, 19, by decide +kernel⟩,
   ⟨{ wR with sec := { sessions := [⟨1, 1, 0⟩] } }, 3, 3, 5, 1, by decide +kernel⟩,
   ⟨{ wR with clock := { timeA := 450000000 } }, 3, by decide +kernel⟩⟩

theorem witness_RegisterReadsRun :
    (∃ (s : State) (req : Requester) (n : _) (w : _), csrReader s req = true ∧ n < 1024 ∧ w < 4) ∧
    (∃ (s : State) (req : Requester) (n : _), csrReader s req = true ∧ n < 16) ∧
    (∃ (s : State) (req : Requester) (n : _), csrReader s req = true ∧ n < 64) ∧
    (∃ (s : State) (req : Requester) (n : _), csrReader s req = true ∧ n < 4) ∧
    (∃ (s : State) (req : Requester) (n : _), csrReader s req = true ∧ n < 214) ∧
    (∃ (s : State) (req : Requester), csrReader s req = true) ∧
    (∃ (s : State) (req : Requester) (n : _) (w : _), csrReader s req = true ∧ n < 32 ∧ w < 4) :=
  ⟨⟨wR, .control, 1023, 3, by decide +kernel⟩,
   ⟨wR, .fn 3, 15, by decide +kernel⟩,
   ⟨wR, .fn 3, 63, by decide +kernel⟩,
   ⟨wR, .fn 3, 3, by decide +kernel⟩,
   ⟨wR, .fn 3, 213, by decide +kernel⟩,
   ⟨wR, .fn 3, by decide +kernel⟩,
   ⟨wR, .fn 3, 31, 3, by decide +kernel⟩⟩

theorem witness_RegisterWritesRun :
    (∃ (s : State) (req : Requester) (n : Nat) (v : BitVec 32), n < 37 ∧ isOwner s req = true ∧ bits v.toNat 13 8 ≤ 48) ∧
    (∃ (s : State) (req : Requester) (n : Nat) (v : BitVec 32), n < 37 ∧ isOwner s req = true ∧ 48 < bits v.toNat 13 8) ∧
    (∃ (s : State) (n : Nat), n < 37 ∧ s.insts = [] ∧ (atBoundary s n true = true ∨ atBoundary s n false = true)) ∧
    (∃ (s : State) (req : Requester) (st : Nat) (v : BitVec 64) (u : Pwu), st < 16 ∧ ownerOrControl s req = true ∧ bit v.toNat 16 =
     true ∧ SMap.get {} s.pwu st = u) ∧
    (∃ (s : State) (req : Requester) (p : Nat) (v : BitVec 512), p < 16 ∧ isPodFn s req p = true ∧ (getStream s (bits v.toNat 15
     0)).state = .free) ∧
    (∃ (s : State) (req : Requester) (p : Nat) (v : BitVec 512) (e : Stream), p < 16 ∧ isPodFn s req p = true ∧ getStream s (bits
     v.toNat 15 0) = e ∧ e.state = .open_ ∧ e.inbound = true ∧ e.inReady = true ∧ e.pod = p ∧ e.inLen = bits v.toNat 56 32 ∧
     e.inKey.toNat = bits v.toNat 95 64) ∧
    (∃ (s : State) (req : Requester) (n : Nat) (len : BitVec 48) (c : LandCh), landWriter s req n = true ∧ len ≠ 0 ∧ getLand s n = c ∧
     c.base % 64 = 0 ∧ len.toNat % 64 = 0 ∧ reachWalk 4096 s (n / 16) c.base (c.base + len.toNat) = true) ∧
    (∃ (s : State) (req : Requester) (n : Nat), landWriter s req n = true) ∧
    (∃ (s : State) (req : Requester) (n : Nat) (v : BitVec 128), n < 256 ∧ ownerOrControl s req = true ∧ bits v.toNat 1 0 ≠ 3) ∧
    (∃ (s : State) (req : Requester), isOwner s req = true) ∧
    (∃ (s : State) (fn m : Nat), fnAlive s fn = true ∧ mbxExists ⟨fn, m⟩ = true ∧ (getMbx s ⟨fn, m⟩).enable = false) ∧
    (∃ (s : State) (req : Requester) (off len f : Nat), req = .fn f ∧ fnThere s f = true ∧ csrWriter s req off len = false) :=
  ⟨⟨wR, .fn 0, 36, 48 * 256, by decide +kernel⟩,
   ⟨wR, .fn 0, 36, 49 * 256, by decide +kernel⟩,
   ⟨wR, 36, by decide +kernel⟩,
   ⟨wR, .control, 15, 0x10000, _, by decide +kernel, by decide +kernel, by decide +kernel, rfl⟩,
   ⟨wB, .fn 4, 0, 0, by decide +kernel⟩,
   ⟨{ wB with streams := [(9, { state := .open_, inbound := true, inReady := true, inLen := 3, inKey := 5 })] }, .fn 4, 0,
     0x50000000300000009, _, by decide +kernel, by decide +kernel, rfl, by decide +kernel⟩,
   ⟨{ wB with land := [(0, { base := addrSlice 1 })] }, .fn 4, 0, 64, _, by decide +kernel, by decide +kernel, rfl,
     by decide +kernel⟩,
   ⟨wB, .fn 0, 255, by decide +kernel⟩,
   ⟨wB, .fn 0, 255, 2, by decide +kernel⟩,
   ⟨wB, .fn 0, by decide +kernel⟩,
   ⟨wV, 19, 3, by decide +kernel⟩,
   ⟨wR, .fn 3, 0x210100, 8, 3, by decide +kernel⟩⟩

theorem witness_WritesLand :
    (∃ (s : State) (g : Nat) (mask : BitVec 64), isMemory s g = true ∧ (SMap.get false s.poison g = false ∨ mask = BitVec.allOnes 64)) ∧
    (∃ (s : State) (g : Nat) (mask : BitVec 64), SMap.get false s.poison g = true ∧ mask ≠ BitVec.allOnes 64) :=
  ⟨⟨wR, 2 ^ 34, 1, by decide +kernel, Or.inl (by decide +kernel)⟩,
   ⟨{ wR with poison := [(2 ^ 34, true)] }, 2 ^ 34, 1, by decide +kernel⟩⟩

theorem witness_LinksCarryFlits :
    (∃ (s : State) (d : FlitDesc), endExists d.src = true ∧ endExists d.dst = true ∧ (endFenced s d.src = true ∨ endFenced s d.dst = true)) ∧
    (∃ (s : State) (d : FlitDesc), endExists d.src = true ∧ endExists d.dst = true ∧
      route { s with fabric := { s.fabric with nextFlit := s.fabric.nextFlit + 1 } } (epNode d.src) (epNode d.dst) = none) ∧
    (∃ (s : State) (d : FlitDesc) (n : Nat) (h : Nat × Bool) (r : List (Nat × Bool)), endExists d.src = true ∧ endExists d.dst = true ∧
      endFenced s d.src = false ∧ endFenced s d.dst = false ∧
      route { s with fabric := { s.fabric with nextFlit := s.fabric.nextFlit + 1 } } (epNode d.src) (epNode d.dst) = some (n, h :: r)) ∧
    (∃ (s : State) (n : Nat) (up : Bool) (noise : BitVec 608) (f : Flit) (a : Arb), n < 37 ∧ linkUp s n = true ∧
      arbitrate s n up = some (f, a) ∧ crcHolds (noisy f noise) = true) ∧
    (∃ (s : State) (n : Nat) (up : Bool) (noise : BitVec 608) (f : Flit) (a : Arb), n < 37 ∧ linkUp s n = true ∧
      arbitrate s n up = some (f, a) ∧ crcHolds (noisy f noise) = false) ∧
    (∃ (s : State) (n : Nat), n < 37 ∧ linkLive s n = true ∧ (getLink s n).state ≠ 1 ∧ mustRetrain s n = true) ∧
    (∃ (s : State) (n : Nat), n < 37 ∧ (getLink s n).state = 1) ∧
    (∃ (s : State) (n : Nat), n < 37 ∧ (getLink s n).state = 1 ∧ (getLink s n).badTries < 2) ∧
    (∃ (s : State) (n : Nat), n < 37 ∧ (getLink s n).state = 1 ∧ (getLink s n).badTries = 2) :=
  ⟨⟨{ wR with fences := [(.stack 15, 3)] }, wFlitDesc (.stack 15) (.hub 1), by decide +kernel⟩,
   ⟨{ wR with fabric := { wR.fabric with routersLost := [21] } }, wFlitDesc (.stack 15) (.hub 1), by decide +kernel⟩,
   ⟨State.reset, wFlitDesc (.stack 0) (.hub 0), 102, (13, false), [(4, false)], by decide +kernel⟩,
   ⟨wF 0, 0, true, 0, _, _, by decide +kernel, by decide +kernel, rfl, test_crc.1⟩,
   ⟨wF 0, 0, true, 1, _, _, by decide +kernel, by decide +kernel, rfl, test_crc.2⟩,
   ⟨wF 2, 0, by decide +kernel⟩,
   ⟨{ wR with fabric := { wR.fabric with links := [(36, { state := 1 })] } }, 36, by decide +kernel⟩,
   ⟨{ wR with fabric := { wR.fabric with links := [(36, { state := 1, badTries := 1 })] } }, 36, by decide +kernel⟩,
   ⟨{ wR with fabric := { wR.fabric with links := [(36, { state := 1, badTries := 2 })] } }, 36, by decide +kernel⟩⟩

theorem witness_MemoryUpkeepRuns :
    (∃ (s : State), s.leakAt + s.eccCfg.2.2.1 * 1000000000 ≤ now s) ∧
    (∃ (n : Nat), n < 214) ∧
    (∃ (s : State) (st k : Nat), st < 16 ∧ stackFenced s st = false ∧ (getDie s st).state = 0 ∧ scrubNext s st = some (k, false)) ∧
    (∃ (s : State) (st : Nat), rebuilding s st = true ∧ (getDie s st).pos < 2 ^ 30) ∧
    (∃ (s : State) (st : Nat), rebuilding s st = true ∧ (getDie s st).pos = 2 ^ 30) ∧
    (∃ (s : State) (st : Nat), st < 16 ∧ (getDie s st).hot ≠ stackHot s st) :=
  ⟨⟨{ wR with clock := { timeA := 60000000000 } }, by decide +kernel⟩,
   ⟨213, by decide +kernel⟩,
   ⟨{ wR with regions := [(0, some { wReg with filled := true })] }, 15, 0, by decide +kernel⟩,
   ⟨{ wR with dies := [(15, { state := 1 })] }, 15, by decide +kernel⟩,
   ⟨{ wR with dies := [(15, { state := 3, pos := 2 ^ 30 })] }, 15, by decide +kernel⟩,
   ⟨{ wR with dies := [(15, { hot := true })] }, 15, by decide +kernel⟩⟩

theorem witness_NodesRun :
    (∃ (s : State) (ref : NodeRef) (i : Inst) (g : Graph) (ms : List (Nat × List Nat)), plannedReady s ref = true ∧ findInst s ref.pod
     ref.inst = some i ∧ graphOf s i = some g ∧ (gangOf g.nodes ref.node).map (fun m => (m, match i.nodes[m]? with | some n => n.cores | none => [])) = ms ∧ ms.any (fun m => m.2.any (fun c => if 96 ≤ c then false else coreFenced s c)) = false) ∧
    (∃ (s : State) (ref : NodeRef) (n : Nat) (l : List (Nat × Slot)), nextBestEffort s ref.pod = some (ref.inst, n, l) ∧ l.any (fun m
     => m.1 = ref.node) = true) ∧
    (∃ (s : State) (ref : NodeRef), isRunning s ref = true ∧ workDone s ref = true ∧ writesLanded s ref = true ∧ wrotePoison s ref =
     false) ∧
    (∃ (s : State) (ref : NodeRef), isRunning s ref = true ∧ workDone s ref = true ∧ writesLanded s ref = true ∧ wrotePoison s ref =
     true) ∧
    (∃ (s : State) (ref : NodeRef) (c : Nat), stoppedBy s ref = some c ∧ issuedLanded s ref = true) ∧
    (∃ (s : State) (ref : NodeRef) (c : Nat), stoppedBy s ref = some c ∧ issuedLanded s ref = false) ∧
    (∃ (s : State) (ref : NodeRef), isRunning s ref = true ∧ nodeCancelled s ref = true ∧ s.tileRuns.all (fun r => r.ref.node ≠ ref) =
     true ∧ issuedLanded s ref = true) ∧
    (∃ (s : State) (ref : NodeRef) (i : Inst) (g : Graph) (n : NodeRun), plannedReady s ref = true ∧ findInst s ref.pod ref.inst = some
     i ∧ graphOf s i = some g ∧ g.loaded = true ∧ i.nodes[ref.node]? = some n ∧ gangOf g.nodes ref.node = [ref.node] ∧ ((nodeRec g
     ref.node).kind = 3 ∨ (nodeRec g ref.node).kind = 5 ∨ (nodeRec g ref.node).kind = 6) ∧ n.cores.any (fun c => if 96 ≤ c then
     false else coreFenced s c) = false) :=
  ⟨⟨wQ 6 0 (wNode .notStarted), wRef, _, _, _, by decide +kernel, (Option.some_get (by decide +kernel)).symm, (Option.some_get
     (by decide +kernel)).symm, rfl, by decide +kernel⟩,
   ⟨{ wQ 6 0 (wNode .notStarted) with insts := [{ wInst (wNode .notStarted) with promised := false }] }, wRef, 0, [(0, ⟨[], 0,
     200⟩)], by decide +kernel⟩,
   ⟨wQ 3 0 ({ wNode .running with work := true }), wRef, by decide +kernel⟩,
   ⟨wQ 3 0 ({ wNode .running with work := true, poison := true }), wRef, by decide +kernel⟩,
   ⟨wQ 3 0 ({ wNode .running with stop := some 7 }), wRef, 7, by decide +kernel⟩,
   ⟨wQ 3 0 ({ wNode .running with stop := some 7, unacked := [(0, addrWindow 0)] }), wRef, 7, by decide +kernel⟩,
   ⟨{ wQ 6 0 (wNode .running) with insts := [{ wInst (wNode .running) with cancelled := true }] }, wRef, by decide +kernel⟩,
   ⟨wQ 6 0 (wNode .notStarted), wRef, _, _, _, by decide +kernel, (Option.some_get (by decide +kernel)).symm, (Option.some_get
     (by decide +kernel)).symm, by decide +kernel, (Option.some_get (by decide +kernel)).symm, by decide +kernel⟩⟩

theorem witness_CopyCommandsRun :
    (∃ (s : State) (ref : NodeRef) (i : Inst) (g : Graph) (b : CopyBody) (st dt : TDesc), copyReady s ref false = some (i, g, b) ∧ nth
     (tdParse 0) g.bufs b.src = st ∧ nth (tdParse 0) g.bufs b.dst = dt ∧ st.space ≠ 1 ∧ dt.space ≠ 1 ∧ granulesFault s ref.pod
     false (tensorGranules (copyOrigin i b b.peerSrc) st) = none ∧ granulesFault s ref.pod true (tensorGranules (copyOrigin i b
     b.peerDst) dt) = none) ∧
    (∃ (s : State) (ref : NodeRef) (i : Inst) (g : Graph) (b : CopyBody) (dt : TDesc) (r : Region) (pt : List Pte),
     copyReady s ref true = some (i, g, b) ∧ nth (tdParse 0) g.bufs b.dst = dt ∧ dt.space ≠ 1 ∧ gatherSource s ref i b dt = .ok (some (r, pt)) ∧
     granulesFault s ref.pod false (dedup ((walkCoords dt).flatMap (gatherGranules r pt b))) = none ∧
     granulesFault s ref.pod true (tensorGranules (copyOrigin i b b.peerDst) dt) = none) ∧
    (∃ (s : State) (ref : NodeRef) (i : Inst) (g : Graph) (b : CopyBody) (dt : TDesc), copyReady s ref true = some (i, g, b) ∧
     nth (tdParse 0) g.bufs b.dst = dt ∧ gatherSource s ref i b dt = .ok none) ∧
    (∃ (s : State) (ref : NodeRef) (n : NodeRun), getNode s ref = some n) ∧
    (∃ (s : State) (ref : NodeRef) (n : NodeRun) (l : List Cell), isRunning s ref = true ∧ nodeCancelled s ref = false ∧ getNode s ref
     = some n ∧ n.hold = some l ∧ n.unacked = [] ∧ granulesFault s ref.pod true (dedup (l.map (fun c => c.1 / 64))) = none) ∧
    (∃ (s : State) (ref : NodeRef) (c g : Nat) (gs : List Nat), aheadPlan s ref = some (c, gs) ∧ (getPod s ref.pod).ahead.find? (fun a
     => a.node = ref) = none ∧ aheadHeld (getPod s ref.pod) c < 4096 ∧ gs.find? (fun g => !acquired s ref.pod (64 * g) &&
     (rangeFault s ref.pod (4 + (getPod s ref.pod).hub) (64 * g) 64 false).isNone) = some g) :=
  ⟨⟨wQ 3 0 (wNode .running), wRef, wInst (wNode .running), { wGr 3 0 with bufs := [wT2] }, copyParse 0, _, _, by decide +kernel, rfl,
     rfl, by decide +kernel⟩,
   ⟨wGa, wRef, { wInst (wNode .running) with step := some wStep }, { wGr 3 wGb with bufs := [{ wT2 with ext := [64, 1, 1, 1, 1] }] },
     copyParse wGb, _, wKv, wStr.pt, by decide +kernel, rfl, by decide +kernel, rfl, by decide +kernel⟩,
   ⟨{ wGa with sprout := wGa.sprout.map (fun w => { w with sink := true }) }, wRef, { wInst (wNode .running) with step := some wStep },
     { wGr 3 wGb with bufs := [{ wT2 with ext := [64, 1, 1, 1, 1] }] }, copyParse wGb, _, by decide +kernel, rfl, rfl⟩,
   ⟨wQ 3 0 (wNode .running), wRef, wNode .running, by decide +kernel⟩,
   ⟨wQ 3 0 ({ wNode .running with work := true, hold := some [] }), wRef, { wNode .running with work := true, hold := some [] }, [],
     by decide +kernel⟩,
   ⟨wQ 3 0 ({ wNode .notStarted with cores := [96] }), wRef, 96, addrSlice 2 / 64, [addrSlice 2 / 64], by decide +kernel⟩⟩

theorem witness_SyncNodesRun :
    (∃ (s : State) (ref : NodeRef) (b : SyncBody), syncReady s ref 0 = some b) ∧
    (∃ (s : State) (ref : NodeRef) (b : SyncBody) (v : Pod), syncReady s ref 1 = some b ∧ getPod s ref.pod = v ∧ v.acquires.length < 16) ∧
    (∃ (s : State) (ref : NodeRef) (b : SyncBody) (v : Pod), syncReady s ref 1 = some b ∧ getPod s ref.pod = v ∧ 16 ≤ v.acquires.length) ∧
    (∃ (s : State) (ref : NodeRef) (b : SyncBody), syncReady s ref 2 = some b) ∧
    (∃ (s : State) (ref : NodeRef) (b : SyncBody), syncReady s ref 3 = some b) ∧
    (∃ (s : State) (ref : NodeRef) (b : SyncBody), syncReady s ref 3 = some b ∧ landReached s ref b = true) ∧
    (∃ (s : State) (ref : NodeRef) (b : SyncBody), syncReady s ref 3 = some b ∧ landReached s ref b = false) ∧
    (∃ (s : State) (ref : NodeRef) (i : Inst) (g : Graph) (r : NodeRec), runningKind s ref 6 = some (i, g, r)) :=
  ⟨⟨wQ 5 0 (wNode .running), wRef, _, (Option.some_get (by decide +kernel)).symm⟩,
   ⟨wQ 5 1 (wNode .running), wRef, _, _, (Option.some_get (by decide +kernel)).symm, rfl, by decide +kernel⟩,
   ⟨{ wQ 5 1 (wNode .running) with pods := [(0, { wP2 with acquires := List.replicate 16 ⟨0, 0, 64⟩ })] }, wRef, _, _,
     (Option.some_get (by decide +kernel)).symm, rfl, by decide +kernel⟩,
   ⟨wQ 5 2 (wNode .running), wRef, _, (Option.some_get (by decide +kernel)).symm⟩,
   ⟨wQ 5 3 (wNode .running), wRef, _, (Option.some_get (by decide +kernel)).symm⟩,
   ⟨{ wQ 5 3 ({ wNode .running with waiting := true }) with land := [(0, { armed := true })] }, wRef, _, (Option.some_get
     (by decide +kernel)).symm, by decide +kernel⟩,
   ⟨wQ 5 3 (wNode .running), wRef, _, (Option.some_get (by decide +kernel)).symm, by decide +kernel⟩,
   ⟨wQ 6 0 (wNode .running), wRef, wInst (wNode .running), { wGr 6 0 with bufs := [wT2] }, wRec 6, by decide +kernel⟩⟩

theorem witness_StreamOpenRuns :
    (∃ (s : State) (sub : Submission) (e : BitVec 512) (p i wp : Nat) (s1 t : State), sub.entry = e ∧ Takes spOpen (fun e => !entFlag
     e) sub s ∧ podOf sub = p ∧ ent e 191 160 = 0 ∧ (poolOf (taken sub s) p (ent e 65 64)).isSome = true ∧ checkCmd spOpen false
     sub (openFields (taken sub s) p e && ent e 216 192 = 0) true s = none ∧ openStream p e (taken sub s) = some (i, s1) ∧ 64 *
     (getPfx (getPod s p) 0).depth = wp ∧ modStream i (fun x => { x with pt := [], wp := wp, tail := tailIndex [] wp }) s1 = t) ∧
    (∃ (s : State) (sub : Submission) (e : BitVec 512) (p i len : Nat) (s1 : State), sub.entry = e ∧ Takes spOpen entFlag sub s ∧ podOf sub = p ∧ ent e 216 192 = len ∧ (poolOf (taken sub s) p (ent e 65 64)).isSome = true ∧ checkCmd spOpen false sub
     (openFields (taken sub s) p e && 1 ≤ len && len ≤ 16777216 && len ≤ ent e 135 112 + 1 && ent e 191 160 = 0) true s = none ∧
     openStream p e (taken sub s) = some (i, s1)) ∧
    (∃ (s s1 : State) (p i : Nat) (e : BitVec 512), openStream p e s = some (i, s1)) ∧
    (∃ (s s1 : State) (p i : Nat) (e : BitVec 512) (j : _), openStream p e s = some (i, s1) ∧ j < i) ∧
    (∃ (s s1 : State) (p i : Nat) (e : BitVec 512) (j : _), openStream p e s = some (i, s1) ∧ j ≠ i) :=
  ⟨⟨ak (sb [(0, 0x40), (36, 1), (66, 11), (96, 8192)]) wS, sb [(0, 0x40), (36, 1), (66, 11), (96, 8192)], (sb [(0, 0x40), (36, 1),
     (66, 11), (96, 8192)]).entry, 0, 0, _, ((openStream 0 (sb [(0, 0x40), (36, 1), (66, 11), (96, 8192)]).entry (taken (sb [(0,
     0x40), (36, 1), (66, 11), (96, 8192)]) (ak (sb [(0, 0x40), (36, 1), (66, 11), (96, 8192)]) wS))).get (by decide +kernel)).2,
     _, by decide +kernel, ⟨by decide +kernel, by decide +kernel⟩, by decide +kernel, by decide +kernel,
     by decide +kernel, by decide +kernel, by decide +kernel, rfl, rfl⟩,
   ⟨ak (sb [(0, 0x40), (8, 1), (36, 1), (66, 4), (96, 1), (112, 16777215), (192, 16777216)]) wS, sb [(0, 0x40), (8, 1), (36, 1), (66,
     4), (96, 1), (112, 16777215), (192, 16777216)], (sb [(0, 0x40), (8, 1), (36, 1), (66, 4), (96, 1), (112, 16777215), (192,
     16777216)]).entry, 0, 0, _, ((openStream 0 (sb [(0, 0x40), (8, 1), (36, 1), (66, 4), (96, 1), (112, 16777215), (192,
     16777216)]).entry (taken (sb [(0, 0x40), (8, 1), (36, 1), (66, 4), (96, 1), (112, 16777215), (192, 16777216)]) (ak (sb [(0,
     0x40), (8, 1), (36, 1), (66, 4), (96, 1), (112, 16777215), (192, 16777216)]) wS))).get (by decide +kernel)).2,
     by decide +kernel, ⟨by decide +kernel, by decide +kernel⟩, by decide +kernel, rfl, by decide +kernel⟩,
   ⟨{ wS with streams := [(0, wStr)] }, ((openStream 0 (sb [(0, 0x40), (36, 1), (66, 11), (96, 8192)]).entry { wS with streams := [(0, wStr)] }).get
     (by decide +kernel)).2, 0, 1, (sb [(0, 0x40), (36, 1), (66, 11), (96, 8192)]).entry, by decide +kernel⟩,
   ⟨{ wS with streams := [(0, wStr)] }, ((openStream 0 (sb [(0, 0x40), (36, 1), (66, 11), (96, 8192)]).entry { wS with streams := [(0, wStr)] }).get
     (by decide +kernel)).2, 0, 1, (sb [(0, 0x40), (36, 1), (66, 11), (96, 8192)]).entry, 0, by decide +kernel⟩,
   ⟨{ wS with streams := [(0, wStr)] }, ((openStream 0 (sb [(0, 0x40), (36, 1), (66, 11), (96, 8192)]).entry { wS with streams := [(0, wStr)] }).get
     (by decide +kernel)).2, 0, 1, (sb [(0, 0x40), (36, 1), (66, 11), (96, 8192)]).entry, 0, by decide +kernel⟩⟩

set_option maxRecDepth 100000 in
theorem witness_StreamCancelAndAdapterRun :
    (∃ (s : State) (sub : Submission) (i : Nat), Takes spStrCancel (fun _ => true) sub s ∧ ent sub.entry 79 64 = i ∧ streamKnown s
     (podOf sub) i (ent sub.entry 95 80) = true ∧ checkCmd spStrCancel false sub true true s = none ∧ (getStream s i).state ≠
     .closing) ∧
    (∃ (s : State) (sub : Submission) (p slot layers src : Nat) (bs : List (Byte × Bool)), Takes spAdapter (fun _ => true) sub s ∧
     podOf sub = p ∧ ent sub.entry 79 64 = slot ∧ ent sub.entry 86 80 = layers ∧ ent sub.entry 143 96 = src ∧ checkCmd spAdapter
     false sub (1 ≤ layers && layers ≤ 120 && (getPod s p).slotFirst ≤ slot && slot < (getPod s p).slotFirst + (getPod s p).slots)
     true s = none ∧ podReaches (taken sub s) p src 4096 false = true ∧ fetchBytes src 4096 (taken sub s) = (bs, taken sub s) ∧
     bs.any (fun b => b.2) = false ∧ ((bs.map (fun b => b.1)).drop (34 * layers)).any (fun b => b ≠ 0) = false) :=
  ⟨⟨ak (sb [(0, 0x41), (36, 1), (64, 9), (80, 1)]) wS, sb [(0, 0x41), (36, 1), (64, 9), (80, 1)], _, ⟨by decide +kernel,
     by decide +kernel⟩, rfl, by decide +kernel⟩,
   ⟨ak (sb [(0, 0x48), (36, 1), (64, 65535), (80, 1)]) { wS with pods := [(0, { wP2 with slotFirst := 65535, slots := 1 })] }, sb
     [(0, 0x48), (36, 1), (64, 65535), (80, 1)], 0, 65535, 1, 0, List.replicate 4096 (0, false), ⟨by decide +kernel,
     by decide +kernel⟩, by decide +kernel⟩⟩

/-- A PREFIX_LOOKUP of one block. -/
def wLook : Submission := sb [(0, 0x4D), (36, 1), (64, 1), (96, addrSlice 2)]
/-- A PREFIX_INSERT of one block of stream 9. -/
def wIns : Submission := sb [(0, 0x4C), (36, 1), (64, 9), (80, 1), (96, 1), (144, addrSlice 2)]
/-- A PREFIX_INSERT with REMOVE of node 1. -/
def wRem : Submission := sb [(0, 0x4C), (8, 1), (36, 1), (64, 9), (80, 1), (192, 1)]
/-- The pod has a prefix index, and its stream a whole block. -/
def wPx (pfx : SMap PrefixNode) : State :=
  { wS with pods := [(0, { wP2 with nodes := 100, pfx := pfx })], streams := [(9, { wStr with wp := 64, pt := [⟨0, 6, .resident, 0, 0, 0⟩] })] }

theorem witness_PrefixCommandsRun :
    (∃ (s : State) (sub : Submission) (p k a n : Nat) (bs : List (Byte × Bool)), Takes spLookup (fun _ => true) sub s ∧ podOf sub = p
     ∧ ent sub.entry 82 64 = k ∧ ent sub.entry 143 96 = a ∧ checkCmd spLookup false sub (1 ≤ k && k ≤ 262144) true s = none ∧
     podReaches (taken sub s) p a (256 * k) false = true ∧ fetchBytes a (256 * k) (taken sub s) = (bs, taken sub s) ∧ bs.any (fun
     b => b.2) = false ∧ (lookup (getPod s p) 0 (blocksOf k (bs.map (fun b => b.1)))).1 = n) ∧
    (∃ (s : State) (sub : Submission) (p i k a : Nat) (bs : List (Byte × Bool)) (q : Nat × List (List Nat)) (r : Nat × Nat × Bool ×
     State), Takes spInsert (fun e => !entFlag e) sub s ∧ podOf sub = p ∧ ent sub.entry 79 64 = i ∧ ent sub.entry 114 96 = k ∧
     ent sub.entry 191 144 = a ∧ streamKnown s p i (ent sub.entry 95 80) = true ∧ checkCmd spInsert false sub (1 ≤ k && k ≤ 262144
     && ent sub.entry 223 192 = 0) true s = none ∧ podReaches (taken sub s) p a (256 * k) false = true ∧ 64 * k ≤ (getStream s i).wp ∧ insertable (getStream s i).pt k = true ∧ fetchBytes a (256 * k) (taken sub s) = (bs,
     taken sub s) ∧ bs.any (fun b => b.2) = false ∧ lookup (getPod s p) 0 (blocksOf k (bs.map (fun b => b.1))) = q ∧ insertBlocks
     p i q.2 q.1 0 (taken sub s) = r ∧ r.2.2.1 = true) ∧
    (∃ (s : State) (sub : Submission) (p n : Nat), Takes spInsert entFlag sub s ∧ podOf sub = p ∧ ent sub.entry 223 192 = n ∧ n ≠ 0 ∧
     streamKnown s p (ent sub.entry 79 64) (ent sub.entry 95 80) = true ∧ pfxKnown (getPod s p) n = true ∧ checkCmd spInsert false sub (ent sub.entry 114 96 = 0 && ent sub.entry 191 144 = 0) true s =
     none ∧ (getPfx (getPod s p) n).child = 0) :=
  ⟨⟨ak wLook wS, wLook, 0, 1, addrSlice 2, _, (fetchBytes (addrSlice 2) 256 wS).1, ⟨by decide +kernel, by decide +kernel⟩, by decide +kernel,
     by decide +kernel, by decide +kernel, by decide +kernel, by decide +kernel, by decide +kernel, by decide +kernel, rfl⟩,
   ⟨ak wIns (wPx []), wIns, 0, 9, 1, addrSlice 2, (fetchBytes (addrSlice 2) 256 wS).1,
     lookup (getPod (wPx []) 0) 0 (blocksOf 1 ((fetchBytes (addrSlice 2) 256 wS).1.map (fun b => b.1))), _, by
      refine ⟨⟨?_, ?_⟩, ?_, ?_, ?_, ?_, ?_, ?_, ?_, ?_, ?_, ?_, ?_, rfl, rfl, ?_⟩ <;> decide +kernel⟩,
   ⟨ak wRem (wPx [(1, { state := 1 })]), wRem, _, _, ⟨by decide +kernel, by decide +kernel⟩, rfl, rfl, by decide +kernel⟩⟩

set_option maxRecDepth 100000 in
theorem witness_StreamParkAndUnparkRun :
    (∃ (s : State) (sub : Submission) (p i a w k stop : Nat) (r : Region) (plan : List (Pte × Nat)), Takes spPark (fun _ => true) sub s
     ∧ podOf sub = p ∧ ent sub.entry 79 64 = i ∧ ent sub.entry 143 96 = a ∧ streamKnown s p i (ent sub.entry 95 80) = true ∧
     checkCmd spPark false sub (a % 4096 = 0) true s = none ∧ lifecycle s ≠ 2 ∧ (getStream s i).state = .resident ∧ (getStream s
     i).work = .idle ∧ stepNames s p i = false ∧ poolOf s p (getStream s i).pool = some (k, r) ∧ parkPlan r a (getStream s i).pt =
     (plan, stop) ∧ windowOfAddr a = w ∧ w ≠ 64 ∧ SMap.get 0 (getPod s p).parkTop w ≤ a % 2 ^ 40 ∧ plan = [] ∧ stop = a) ∧
    (∃ (s s2 : State) (sub : Submission) (p i a w k stop : Nat) (r : Region) (plan : List (Pte × Nat)) (ws : List WinWrite) (first :
     List WinWrite) (last : WinWrite), Takes spPark (fun _ => true) sub s ∧ podOf sub = p ∧ ent sub.entry 79 64 = i ∧ ent
     sub.entry 143 96 = a ∧ streamKnown s p i (ent sub.entry 95 80) = true ∧ checkCmd spPark false sub (a % 4096 = 0) true s =
     none ∧ lifecycle s ≠ 2 ∧ (getStream s i).state = .resident ∧ (getStream s i).work = .idle ∧ stepNames s p i = false ∧ poolOf
     s p (getStream s i).pool = some (k, r) ∧ parkPlan r a (getStream s i).pt = (plan, stop) ∧ windowOfAddr a = w ∧ w ≠ 64 ∧
     SMap.get 0 (getPod s p).parkTop w ≤ a % 2 ^ 40 ∧ a < stop ∧ (stop - 1) / 2 ^ 40 = a / 2 ^ 40 ∧ windowStatus (taken sub s) p a
     (stop - a) = none ∧ parkWrites p i (getStream s i).gen r plan (taken sub s) = (ws, s2) ∧ splitLast ws = (first, some last) ∧
     first ≠ []) ∧
    (∃ (s : State) (sub : Submission) (i : Nat), Takes spUnpark (fun _ => true) sub s ∧ ent sub.entry 79 64 = i ∧ streamKnown s (podOf sub) i (ent sub.entry 95 80) = true ∧ checkCmd spUnpark false sub true true s = none ∧ lifecycle s ≠ 2 ∧ (getStream s
     i).state = .parked ∧ (getStream s i).work = .idle) ∧
    (∃ (s t : State) (i k : Nat) (c : PendingCmd) (fs : List Nat) (r : Region) (pt : List Pte) (st : Option Status) (imgs : List
     (Option (List Byte × List (BitVec 128)))), s.cmds.find? (unparkOf i) = some c ∧ c.work = .unpark i (some fs) ∧ poolOf s
     (getStream s i).pod (getStream s i).pool = some (k, r) ∧ restoreAll i r (getStream s i).pt fs imgs { s with cmds := s.cmds.erase c }
     = (pt, st, t) ∧ st = none) ∧
    (∃ (s t : State) (i k : Nat) (c : PendingCmd) (fs : List Nat) (r : Region) (pt : List Pte) (st : Option Status) (imgs : List
     (Option (List Byte × List (BitVec 128)))) (x : _), s.cmds.find? (unparkOf i) = some c ∧ c.work = .unpark i (some fs) ∧ poolOf
     s (getStream s i).pod (getStream s i).pool = some (k, r) ∧ restoreAll i r (getStream s i).pt fs imgs { s with cmds := s.cmds.erase c }
     = (pt, st, t) ∧ st = some x) :=
  ⟨⟨ak (wPk) { wS with streams := [(9, { wStr with pt := [] })] }, wPk, _, _, _, _, 6, addrWindow 0, wKv, [], ⟨by decide +kernel,
     by decide +kernel⟩, rfl, rfl, rfl, by decide +kernel, by decide +kernel, by decide +kernel,
     by decide +kernel, by decide +kernel, by decide +kernel, by decide +kernel, by decide +kernel, rfl, by decide +kernel⟩,
   ⟨ak (wPk) wS, (parkWrites 0 9 1 wKv (parkPlan wKv (addrWindow 0) wStr.pt).1 (taken (wPk) (ak (wPk) wS))).2, wPk, _, _, _, _, 6,
     (parkPlan wKv (addrWindow 0) wStr.pt).2, wKv, (parkPlan wKv (addrWindow 0) wStr.pt).1, (parkWrites 0 9 1 wKv (parkPlan wKv
     (addrWindow 0) wStr.pt).1 (taken wPk (ak wPk wS))).1, (splitLast (parkWrites 0 9 1 wKv (parkPlan wKv (addrWindow 0)
     wStr.pt).1 (taken wPk (ak wPk wS))).1).1, (splitLast (parkWrites 0 9 1 wKv (parkPlan wKv (addrWindow 0) wStr.pt).1 (taken wPk
     (ak wPk wS))).1).2.get (by decide +kernel), ⟨by decide +kernel, by decide +kernel⟩, rfl, rfl, rfl,
     by decide +kernel, by decide +kernel, by decide +kernel, by decide +kernel, by decide +kernel, by decide +kernel,
     by decide +kernel, by decide +kernel, rfl, by decide +kernel, by decide +kernel, by decide +kernel, by decide +kernel,
     by decide +kernel, rfl, by rw [Option.some_get], by decide +kernel⟩,
   ⟨ak (sb [(0, 0x43), (36, 1), (64, 9), (80, 1)]) { wS with streams := [(9, { wStr with state := .parked })] }, sb [(0, 0x43), (36,
     1), (64, 9), (80, 1)], _, ⟨by decide +kernel, by decide +kernel⟩, rfl, by decide +kernel⟩,
   ⟨{ wS with cmds := [{ tok := wTok, work := .unpark 9 (some []) }] }, wS, 9, 6, { tok := wTok, work := .unpark 9 (some []) }, [],
     wKv, wStr.pt, none, [], by decide +kernel⟩,
   ⟨{ wS with streams := [(9, { wStr with pt := [⟨0, 4, .parked, 0, 0, 0⟩] })], cmds := [{ tok := wTok, work := .unpark 9 (some [5]) }] },
     _, 9, 6, { tok := wTok, work := .unpark 9 (some [5]) }, [5], wKv, _, some stPARTNER_GONE, [none], stPARTNER_GONE,
     by decide +kernel, by decide +kernel, by decide +kernel, rfl, by decide +kernel⟩⟩

/-- The receiving region of that STREAM_SHIP, its table, and the state in which it has been read. -/
def wShR : Region := { wKv with off := 0, holder := (List.range 16).map (fun _ => 0) }
def wShT : List Pte := [⟨0, 4, .resident, 0, 0, 0⟩]
def wShS : State := (shipTable 8193 0 (addrSlice 2) 16 0 (taken wShip (ak wShip wSS))).2
/-- What it sends. -/
def wShP : List (Nat × Nat) := shipPlan wKv wShR wStr.pt wShT (addrWindow 0) 16
/-- Both ends of window 0 speak Unordered I/O. -/
def wUio (s : State) : State := { s with ports := [(0, { linkUp := true, uio := true })], partners := [(32, { state := .active, uio := true })] }
/-- A part with a STREAM_SHIP of stream 9 that waits. -/
def wShC (n : Nat) (last : Option WinWrite) : PendingCmd := { tok := wTok, work := .ship 9 0 (n, addrWindow 0) last }
def wShW (n : Nat) (last : Option WinWrite) : State := { wS with cmds := [wShC n last] }
/-- The pod's node has written into window 0. -/
def wUn (done : Bool) : State := wQ 3 0 { wNode .running with work := done, unacked := [(0, addrWindow 0)] }

theorem witness_StreamShipAndAcknowledgementRun :
    (∃ (s s2 s3 : State) (sub : Submission) (p i len base k : Nat) (r r' : Region) (pt' : List Pte) (plan : List (Nat × Nat)) (flag :
     Nat) (ws : List WinWrite) (work : Work) (c : PendingCmd), Takes spShip (fun _ => true) sub s ∧ podOf sub = p ∧ ent
     sub.entry 79 64 = i ∧ ent sub.entry 168 144 = len ∧ ent sub.entry 367 320 = base ∧ streamKnown s p i (ent sub.entry 95 80) =
     true ∧ checkCmd spShip false sub (1 ≤ len && len ≤ 16777216) true s = none ∧ lifecycle s ≠ 2 ∧ (getStream s i).state =
     .resident ∧ (getStream s i).busy = false ∧ (getStream s i).work = .idle ∧ len ≤ (getStream s i).wp ∧ poolOf s p (getStream s
     i).pool = some (k, r) ∧ shipTable 8193 p (ent sub.entry 143 96) len 0 (taken sub s) = (.ok pt', s2) ∧ { r with off := 4096 * ent sub.entry 247 224, holder := (List.range 16).map (fun k => bits (ent sub.entry 319 256) (4 * k + 3) (4 * k)) }
     = r' ∧ shipPlan r r' (getStream s i).pt pt' base len = plan ∧ base + addrCsr + 0x300000 + 64 * shipPod s2 = flag ∧ shipReach
     s2 p (regU r) (plan.map (fun q => q.2)) = none ∧ windowStatus s2 p flag 64 = none ∧ shipWrites r plan s2 = (ws, s3) ∧ .ship i
     (windowOfAddr base) (ws.length, lastByte ws) (some (flag, landWord (ent sub.entry 184 169) len (ent sub.entry 223 192), false)) = work ∧
     { tok := tokIn s sub, work := work } = c) ∧
    (∃ (s : State) (w : Nat) (ref : NodeRef) (n : NodeRun) (x : Nat × Nat) (rest : List (Nat × Nat)), getNode s ref = some n ∧
     n.unacked.filter (fun y => y.1 = w) = x :: rest ∧ windowUio s w = true) ∧
    (∃ (s : State) (w : Nat) (ref : NodeRef) (n : NodeRun) (x : Nat × Nat) (rest : List (Nat × Nat)), getNode s ref = some n ∧
     n.unacked.filter (fun y => y.1 = w) = x :: rest ∧ windowUio s w = false ∧ sentAll s ref = true) ∧
    (∃ (s : State) (w : Nat) (ref : NodeRef) (n : NodeRun) (x : Nat × Nat) (rest : List (Nat × Nat)), getNode s ref = some n ∧
     n.unacked.filter (fun y => y.1 = w) = x :: rest ∧ windowUio s w = false ∧ sentAll s ref = false) ∧
    (∀ (uio held : Bool), ∃ (s : State) (w i : Nat) (n : Nat × Nat) (c : PendingCmd) (f : Option WinWrite),
     s.cmds.find? (sendsInto w i) = some c ∧ senderOf c = some (i, w, n, f) ∧ windowUio s w = uio ∧ n.1 = 1 ∧ f.isSome = held) ∧
    (∃ (s : State) (w i : Nat) (n : Nat × Nat) (c : PendingCmd) (last : Option WinWrite), s.cmds.find? (sendsInto w i) = some c ∧
     senderOf c = some (i, w, n, last) ∧ windowUio s w = true ∧ 1 < n.1) :=
  ⟨⟨ak wShip wSS, wShS, (shipWrites wKv wShP wShS).2, wShip, 0, 9, 16, addrWindow 0, 6, wKv, wShR, wShT, wShP,
     addrWindow 0 + addrCsr + 0x300000 + 64 * shipPod wShS, (shipWrites wKv wShP wShS).1, _, _, by
      have h : ∀ k, k < 16 → windowStatus wShS 0 (addrWindow 0 + addrCsr + 0x300000 + 64 * k) 64 = none := by decide +kernel
      refine ⟨⟨?_, ?_⟩, ?_, ?_, ?_, ?_, ?_, ?_, ?_, ?_, ?_, ?_, ?_, ?_, Prod.ext (by rfl) rfl, ?_, ?_, rfl, ?_, h _ (Nat.mod_lt _ (by decide)), rfl, rfl, rfl⟩ <;>
        decide +kernel⟩,
   ⟨wUio (wUn true), 0, wRef, _, _, _, (Option.some_get (by decide +kernel)).symm, rfl, by decide +kernel⟩,
   ⟨wUn true, 0, wRef, _, _, _, (Option.some_get (by decide +kernel)).symm, rfl, by decide +kernel⟩,
   ⟨wUn false, 0, wRef, _, _, _, (Option.some_get (by decide +kernel)).symm, rfl, by decide +kernel⟩,
   fun uio held => by
    cases uio <;> cases held
    · exact ⟨wShW 1 none, 0, 9, _, wShC 1 none, none, by decide +kernel, rfl, by decide +kernel⟩
    · exact ⟨wShW 1 (some (addrWindow 0, [1], false)), 0, 9, _, wShC 1 (some (addrWindow 0, [1], false)), some (addrWindow 0, [1], false),
        by decide +kernel, rfl, by decide +kernel⟩
    · exact ⟨wUio (wShW 1 none), 0, 9, _, wShC 1 none, none, by decide +kernel, rfl, by decide +kernel⟩
    · exact ⟨wUio (wShW 1 (some (addrWindow 0, [1], false))), 0, 9, _, wShC 1 (some (addrWindow 0, [1], false)),
        some (addrWindow 0, [1], false), by decide +kernel, rfl, by decide +kernel⟩,
   ⟨wUio (wShW 2 none), 0, 9, _, wShC 2 none, none, by decide +kernel, rfl, by decide +kernel⟩⟩

/-- A BATCH_STEP of stream 9 with a deadline, and what reading its list gives. -/
def wBs (dl : Nat) : Submission :=
  sb [(0, 0x44), (36, 1), (64, 1), (96, addrSlice 2), (144, 1), (160, 1), (224, dl), (256, addrSlice 2 + 4096), (320, addrSlice 2 + 8192)]
def wBf (dl : Nat) (s : State) : List (Byte × Bool) × State := fetchBytes (addrSlice 2) 8 (taken (wBs dl) (ak (wBs dl) s))
/-- The pod with a graph and a list of one row. -/
def wBg (g : Graph) : State := { wS with graphs := [g], mem := [(addrSlice 2, 9), (addrSlice 2 + 4, 1), (addrSlice 2 + 6, 1)] }
/-- A graph that asks for five cores. -/
def wG5 : Graph := { wGr 1 0 with nodes := [{ wRec 1 with cores := 5 }] }

theorem witness_BatchStepRuns :
    (∃ (s s1 : State) (sub : Submission) (e : BitVec 512) (p n k tb : Nat) (g : Graph) (bs : List (Byte × Bool)) (ws : List Nat) (st :
     StepInfo) (wk : WalkIn) (first last t0 : Nat), sub.entry = e ∧ Takes spStep (fun _ => true) sub s ∧ podOf sub = p ∧ ent e
     156 144 = n ∧ checkCmd spStep false sub (stepFields s p e) true s = none ∧ getGraph s p (ent e 95 64) = some g ∧ g.peer =
     false ∧ podReaches s p (ent e 143 96) (8 * n) false = true ∧ podReaches s p (ent e 303 256) (16 * n) true = true ∧ podReaches
     s p (ent e 367 320) (2 * n) true = true ∧ fetchBytes (ent e 143 96) (8 * n) (taken sub s) = (bs, s1) ∧ bs.any (fun b => b.2)
     = false ∧ (List.range n).map (fun k => leNat (((bs.drop (8 * k)).take 8).map (fun b => b.1))) = ws ∧ listOk ws = true ∧ (∀ b,
     (getPod s1 p).boundary = some b → b < ent e 191 160) ∧ stepInfo s1 p e (ws.map rowParse) = st ∧ podSteps s1 p < 64 ∧ jobCount
     s1 p < (getPod s1 p).quota ∧ boundaryAhead s1 p st.boundary = (k, tb) ∧ { e := st.walkE, rows := st.rows.length, tb := tb, period := podPeriod s1 p, slew := podSlew s1 p }
     = wk ∧ tb + k * (podPeriod s1 p - podSlew s1 p) + st.relOff = first ∧ tb + k * (podPeriod s1 p + podSlew s1 p) + st.relOff =
     last ∧ (st.preds.map (plannedEnd s1 p)).foldl max (max last (now s1)) = t0 ∧ tentative s1 p g t0 (some wk) = none) ∧
    (∃ (s s1 : State) (sub : Submission) (e : BitVec 512) (p n k tb : Nat) (g : Graph) (bs : List (Byte × Bool)) (ws : List Nat) (st :
     StepInfo) (wk : WalkIn) (first last t0 : Nat) (slots : _), sub.entry = e ∧ Takes spStep (fun _ => true) sub s ∧ podOf sub =
     p ∧ ent e 156 144 = n ∧ checkCmd spStep false sub (stepFields s p e) true s = none ∧ getGraph s p (ent e 95 64) = some g ∧
     g.peer = false ∧ podReaches s p (ent e 143 96) (8 * n) false = true ∧ podReaches s p (ent e 303 256) (16 * n) true = true ∧
     podReaches s p (ent e 367 320) (2 * n) true = true ∧ fetchBytes (ent e 143 96) (8 * n) (taken sub s) = (bs, s1) ∧ bs.any (fun
     b => b.2) = false ∧ (List.range n).map (fun k => leNat (((bs.drop (8 * k)).take 8).map (fun b => b.1))) = ws ∧ listOk ws =
     true ∧ (∀ b, (getPod s1 p).boundary = some b → b < ent e 191 160) ∧ stepInfo s1 p e (ws.map rowParse) = st ∧ podSteps s1 p <
     64 ∧ jobCount s1 p < (getPod s1 p).quota ∧ boundaryAhead s1 p st.boundary = (k, tb) ∧ { e := st.walkE, rows := st.rows.length, tb := tb, period := podPeriod s1 p, slew := podSlew s1 p }
     = wk ∧ tb + k * (podPeriod s1 p - podSlew s1 p) + st.relOff = first ∧ tb + k * (podPeriod s1 p + podSlew s1 p) + st.relOff =
     last ∧ (st.preds.map (plannedEnd s1 p)).foldl max (max last (now s1)) = t0 ∧ tentative s1 p g t0 (some wk) = some slots ∧
     first + st.deadline < completionOf slots) ∧
    (∃ (s s1 : State) (sub : Submission) (e : BitVec 512) (p n k tb : Nat) (g : Graph) (bs : List (Byte × Bool)) (ws : List Nat) (st :
     StepInfo) (wk : WalkIn) (first last t0 : Nat) (slots : _), sub.entry = e ∧ Takes spStep (fun _ => true) sub s ∧ podOf sub =
     p ∧ ent e 156 144 = n ∧ checkCmd spStep false sub (stepFields s p e) true s = none ∧ getGraph s p (ent e 95 64) = some g ∧
     g.peer = false ∧ podReaches s p (ent e 143 96) (8 * n) false = true ∧ podReaches s p (ent e 303 256) (16 * n) true = true ∧
     podReaches s p (ent e 367 320) (2 * n) true = true ∧ fetchBytes (ent e 143 96) (8 * n) (taken sub s) = (bs, s1) ∧ bs.any (fun
     b => b.2) = false ∧ (List.range n).map (fun k => leNat (((bs.drop (8 * k)).take 8).map (fun b => b.1))) = ws ∧ listOk ws =
     true ∧ (∀ b, (getPod s1 p).boundary = some b → b < ent e 191 160) ∧ stepInfo s1 p e (ws.map rowParse) = st ∧ podSteps s1 p <
     64 ∧ jobCount s1 p < (getPod s1 p).quota ∧ boundaryAhead s1 p st.boundary = (k, tb) ∧ { e := st.walkE, rows := st.rows.length, tb := tb, period := podPeriod s1 p, slew := podSlew s1 p }
     = wk ∧ tb + k * (podPeriod s1 p - podSlew s1 p) + st.relOff = first ∧ tb + k * (podPeriod s1 p + podSlew s1 p) + st.relOff =
     last ∧ (st.preds.map (plannedEnd s1 p)).foldl max (max last (now s1)) = t0 ∧ tentative s1 p g t0 (some wk) = some slots ∧
     completionOf slots ≤ first + st.deadline) :=
  ⟨⟨ak (wBs 1) (wBg wG5), (wBf 1 (wBg wG5)).2, wBs 1, (wBs 1).entry, 0, 1, 2, 0, wG5, (wBf 1 (wBg wG5)).1, [9 + 2 ^ 32 + 2 ^ 48], stepInfo (wBf 1 (wBg wG5)).2 0 (wBs 1).entry [rowParse (9 + 2 ^ 32 + 2 ^ 48)], _, _, _, _, rfl, ⟨by decide +kernel, by decide +kernel⟩,
     by decide +kernel, rfl, by decide +kernel, rfl, by decide +kernel, by decide +kernel, by decide +kernel, by decide +kernel, rfl,
     by decide +kernel, by decide +kernel, by decide +kernel, by decide +kernel, rfl, by decide +kernel, by decide +kernel, by decide +kernel,
     rfl, rfl, rfl, rfl, by decide +kernel⟩,
   ⟨ak (wBs 1) (wBg (wGr 6 0)), (wBf 1 (wBg (wGr 6 0))).2, wBs 1, (wBs 1).entry, 0, 1, 2, 0, wGr 6 0, (wBf 1 (wBg (wGr 6 0))).1, [9 + 2 ^ 32 + 2 ^ 48], stepInfo (wBf 1 (wBg (wGr 6 0))).2 0 (wBs 1).entry [rowParse (9 + 2 ^ 32 + 2 ^ 48)], _, _, _, _, _, rfl, ⟨by decide +kernel, by decide +kernel⟩,
     by decide +kernel, rfl, by decide +kernel, rfl, by decide +kernel, by decide +kernel, by decide +kernel, by decide +kernel, rfl,
     by decide +kernel, by decide +kernel, by decide +kernel, by decide +kernel, rfl, by decide +kernel, by decide +kernel, by decide +kernel,
     rfl, rfl, rfl, rfl, (Option.some_get (by decide +kernel)).symm, by decide +kernel⟩,
   ⟨ak (wBs 1000000000) (wBg (wGr 6 0)), (wBf 1000000000 (wBg (wGr 6 0))).2, wBs 1000000000, (wBs 1000000000).entry, 0, 1, 2, 0, wGr 6 0, (wBf 1000000000 (wBg (wGr 6 0))).1, [9 + 2 ^ 32 + 2 ^ 48], stepInfo (wBf 1000000000 (wBg (wGr 6 0))).2 0 (wBs 1000000000).entry [rowParse (9 + 2 ^ 32 + 2 ^ 48)], _, _, _, _, _, rfl, ⟨by decide +kernel, by decide +kernel⟩,
     by decide +kernel, rfl, by decide +kernel, rfl, by decide +kernel, by decide +kernel, by decide +kernel, by decide +kernel, rfl,
     by decide +kernel, by decide +kernel, by decide +kernel, by decide +kernel, rfl, by decide +kernel, by decide +kernel, by decide +kernel,
     rfl, rfl, rfl, rfl, (Option.some_get (by decide +kernel)).symm, by decide +kernel⟩⟩

theorem witness_BoundaryAndStepEndRun :
    (∃ (s s1 s2 s3 s4 : State) (p t b : Nat) (steps : List Inst) (acc : Acc3), (getPod s p).state ≠ .free ∧ hubFenced s (getPod s
     p).hub = false ∧ dueTime s p = some t ∧ countBoundary p t (pwuBoundary p s) = s1 ∧ (getPod s1 p).boundary = some b ∧
     (stepsFor s1 p b).filter (fun i => !i.cancelled && !allEnded i) = steps ∧ stage2 p (stage1 p steps s1) = s2 ∧ steps.foldl
     (fun acc i => growStep p b i acc) ({ named := [], done := [] }, s2) = (acc, s3) ∧ acc.done.foldl (fun s d => joinRows p
     (acc.done.map (fun d => d.1)) d.1 d.2 s) (pendingAllocs p s3) = s4) ∧
    (∃ (s : State) (p num : Nat) (i : Inst) (st : StepInfo), findInst s p num = some i ∧ i.step = some st ∧ st.staged = true ∧
     st.released = false ∧ st.relAt ≤ now s) ∧
    (∃ (s : State) (p num : Nat) (i : Inst), findInst s p num = some i ∧ i.step.isSome = true ∧ allEnded i = true) :=
  ⟨⟨{ wR with pods := [(15, { wPod with due := [100] })] }, _, _, _, _, 15, 100, 0, _, _, by decide +kernel, by decide +kernel,
     by decide +kernel, rfl, by decide +kernel, rfl, rfl, rfl, rfl⟩,
   ⟨{ wS with insts := [{ wInst (wNode .notStarted) with step := some wStep }] }, 0, 7, { wInst (wNode .notStarted) with step := some wStep },
     wStep, by decide +kernel⟩,
   ⟨{ wS with insts := [{ wInst (wNode .done) with step := some wStep }] }, 0, 7, _, (Option.some_get (by decide +kernel)).symm,
     by decide +kernel⟩⟩

/-- The pod's running MATRIX node has the tile run `r`. -/
def wTs (r : TileRun) : State := { wQ 0 0 (wNode .running) with tileRuns := [r] }
/-- A tile run whose descriptor has a first byte, and the list's LIST_GEN (times 4) and length. -/
def wTl (b0 gen len : BitVec 8) (exits : List (Bool × Nat)) : TileRun := { wTr with block := [b0] ++ List.replicate 26 0 ++ [gen, len], exits := exits }
/-- The list's first line is poisoned. -/
def wTp (r : TileRun) : State := { wTs r with poison := [(addrTile 0 / 64, true)] }

theorem witness_TileCommandsRun :
    (∃ (s : State) (ref : TileRef) (r : TileRun), activeRun s ref = some r ∧ passReady r = true ∧ nodeCancelled s ref.node = false ∧
     listCut s r 1 r.pass = none ∧ ((runTile r).stream = true → listCut s r 2 r.pass = none)) ∧
    (∃ (s : State) (ref : TileRef) (r : TileRun) (n c : Nat), activeRun s ref = some r ∧ passReady r = true ∧ nodeCancelled s ref.node =
     false ∧ listCut s r 1 r.pass = some (n, c)) ∧
    (∃ (s : State) (ref : TileRef) (r : TileRun) (n c : Nat), activeRun s ref = some r ∧ passReady r = true ∧ nodeCancelled s ref.node =
     false ∧ listCut s r 1 r.pass = none ∧ (runTile r).stream = true ∧ listCut s r 2 r.pass = some (n, c)) ∧
    (∃ (r : TileRun), (runTile r).stream = false) ∧
    (∃ (s : State) (ref : TileRef) (r : TileRun) (p : Nat), activeRun s ref = some r ∧ r.ended = false ∧ nextFill r = some p) ∧
    (∃ (s : State) (ref : TileRef) (r : TileRun) (bank : Bool) (b : Nat) (rest : List (Bool × Nat)), activeRun s ref = some r ∧ r.exits
     = (bank, b) :: rest ∧ listCut s r 2 b = none ∧ (runTile r).exit = true) ∧
    (∃ (s : State) (ref : TileRef) (r : TileRun) (bank : Bool) (b : Nat) (rest : List (Bool × Nat)), activeRun s ref = some r ∧ r.exits
     = (bank, b) :: rest ∧ listCut s r 2 b = none ∧ (runTile r).exit = false) ∧
    (∃ (s : State) (ref : TileRef) (r : TileRun) (bank : Bool) (b : Nat) (rest : List (Bool × Nat)) (n c : Nat), activeRun s ref = some r ∧
     r.exits = (bank, b) :: rest ∧ listCut s r 2 b = some (n, c)) ∧
    (∃ (s : State) (r : TileRun), drainsToPort s r = true) ∧
    (∃ (s : State) (cluster : Nat) (v : VectorDesc) (run : TileRun) (srcs : List VecSrc) (td : TDesc) (items : List Item),
     s.tileRuns.find? (fun r => r.ref.core = cluster && isRunning s r.ref.node) = some run ∧ v.drain = none ∧ vecSrcs s cluster v
     = srcs ∧ tdParse v.dst.2.toNat = td ∧ v.srcs.all (vecTd s cluster) = true ∧ vecTd s cluster v.dst = true ∧ isStore td.fmt
     td.scaled = true ∧ srcs.length = vecSources v.op ∧ srcs.all (fun x => vecShape v.op x.ext = td.ext) = true ∧ (allCoords
     td.ext).map (fun c => { coord := c, val := .value (fp32Val (vecResult v.op srcs c).1.1), poison := (vecResult v.op srcs c).1.2 : Item })
     = items ∧ items.any (fun it => it.poison) = false) :=
  ⟨⟨wTs wTr, ⟨wRef, 0, 0⟩, wTr, by decide +kernel⟩,
   ⟨wTp (wTl 0 4 1 []), ⟨wRef, 0, 0⟩, wTl 0 4 1 [], 0, 2, by decide +kernel⟩,
   ⟨wTp (wTl 64 8 1 []), ⟨wRef, 0, 0⟩, wTl 64 8 1 [], 0, 2, by decide +kernel⟩,
   ⟨wTr, by decide +kernel⟩,
   ⟨wTs { wTr with stat := [] }, ⟨wRef, 0, 0⟩, { wTr with stat := [] }, 0, by decide +kernel⟩,
   ⟨wTs (wTl 128 0 0 [(false, 0)]), ⟨wRef, 0, 0⟩, wTl 128 0 0 [(false, 0)], false, 0, [], by decide +kernel⟩,
   ⟨wTs (wTl 0 0 0 [(false, 0)]), ⟨wRef, 0, 0⟩, wTl 0 0 0 [(false, 0)], false, 0, [], by decide +kernel⟩,
   ⟨wTp (wTl 0 8 1 [(false, 0)]), ⟨wRef, 0, 0⟩, wTl 0 8 1 [(false, 0)], false, 0, [], 0, 2, by decide +kernel⟩,
   ⟨{ wTs wTr with graphs := [{ wGr 0 0 with nodes := [{ wRec 0 with sprout := true }] }] }, wTr, by decide +kernel⟩,
   ⟨wTs wTr, 0, wVec, _, vecSrcs (wTs wTr) 0 wVec, tdParse wVec.dst.2.toNat, (allCoords (tdParse wVec.dst.2.toNat).ext).map (fun c => { coord := c, val := .value (fp32Val (vecResult .convert (vecSrcs (wTs wTr) 0 wVec) c).1.1), poison := (vecResult .convert (vecSrcs (wTs wTr) 0 wVec) c).1.2 : Item }),
     (Option.some_get (by decide +kernel)).symm, by decide +kernel, rfl, rfl, by decide +kernel, by decide +kernel,
     by decide +kernel, by decide +kernel, by decide +kernel, rfl, by decide +kernel⟩⟩

theorem witness_EngineIntegerRuns :
    (∃ (s : State) (at_ : Issue) (w : EngFields) (run : EngineRun) (g : Group) (op : EngOp) (c : Issue → EngFields → Instr) (f : BitVec
     32 → BitVec 32 → BitVec 32), (op, c, f) ∈ ([(.iadd, .iadd, fun a b => a + b), (.imul, .imul, fun a b => a * b), (.and_,
     .and_, fun a b => a &&& b), (.or_, .or_, fun a b => a ||| b), (.xor_, .xor_, fun a b => a ^^^ b), (.shl, .shl, fun a b => a
     <<< (b.toNat % 32)), (.shr, .shr, fun a b => if w.imm.getLsbD 24 then a.sshiftRight (b.toNat % 32) else a >>> (b.toNat %
     32))] : List (EngOp × (Issue → EngFields → Instr) × (BitVec 32 → BitVec 32 → BitVec 32))) ∧ readyGroup op at_ w s = some
     (run, g)) ∧
    (∃ (s : State) (at_ : Issue) (w : EngFields) (run : EngineRun) (g : Group), readyGroup .imad at_ w s = some (run, g)) ∧
    (∃ (s : State) (at_ : Issue) (w : EngFields) (run : EngineRun) (g : Group), readyGroup .movi at_ w s = some (run, g)) ∧
    (∃ (s : State) (at_ : Issue) (w : EngFields) (run : EngineRun) (g : Group), readyGroup .sreg at_ w s = some (run, g)) ∧
    (∃ (s : State) (at_ : Issue) (w : EngFields) (run : EngineRun) (g : Group), readyGroup .sel at_ w s = some (run, g) ∧ (∀ i, i ∈
     activeLanes g → ppo g i (w.c.toNat % 8) = false)) ∧
    (∃ (s : State) (at_ : Issue) (w : EngFields) (run : EngineRun) (g : Group) (i : _), readyGroup .sel at_ w s = some (run, g) ∧ i ∈
     activeLanes g ∧ ppo g i (w.c.toNat % 8) = true) :=
  ⟨⟨wEs ({ wEr .iadd ⟨0, 0, 0, 0, 0⟩ with groups := [wGrp] }), ⟨0, 0⟩, ⟨0, 0, 0, 0, 0⟩, { wEr .iadd ⟨0, 0, 0, 0, 0⟩ with groups := [wGrp] },
     wGrp, .iadd, .iadd, fun a b => a + b, List.mem_cons_self .., by decide +kernel⟩,
   ⟨wEs ({ wEr .imad ⟨0, 0, 0, 0, 0⟩ with groups := [wGrp] }), ⟨0, 0⟩, ⟨0, 0, 0, 0, 0⟩, { wEr .imad ⟨0, 0, 0, 0, 0⟩ with groups := [wGrp] },
     wGrp, by decide +kernel⟩,
   ⟨wEs ({ wEr .movi ⟨0, 0, 0, 0, 0⟩ with groups := [wGrp] }), ⟨0, 0⟩, ⟨0, 0, 0, 0, 0⟩, { wEr .movi ⟨0, 0, 0, 0, 0⟩ with groups := [wGrp] },
     wGrp, by decide +kernel⟩,
   ⟨wEs ({ wEr .sreg ⟨0, 0, 0, 0, 0⟩ with groups := [wGrp] }), ⟨0, 0⟩, ⟨0, 0, 0, 0, 0⟩, { wEr .sreg ⟨0, 0, 0, 0, 0⟩ with groups := [wGrp] },
     wGrp, by decide +kernel⟩,
   ⟨wEs ({ wEr .sel ⟨0, 0, 0, 0, 0⟩ with groups := [wGrp] }), ⟨0, 0⟩, ⟨0, 0, 0, 0, 0⟩, { wEr .sel ⟨0, 0, 0, 0, 0⟩ with groups := [wGrp] },
     wGrp, by decide +kernel⟩,
   ⟨wEs ({ wEr .sel ⟨0, 0, 0, 1, 0⟩ with groups := [{ wGrp with poison := wPoi }] }), ⟨0, 0⟩, ⟨0, 0, 0, 1, 0⟩, { wEr .sel ⟨0, 0, 0, 1, 0⟩ with groups := [{ wGrp with poison := wPoi }] },
     { wGrp with poison := wPoi }, 0, by decide +kernel⟩⟩

theorem witness_EnginePredicatesRun :
    (∃ (s : State) (at_ : Issue) (w : EngFields) (run : EngineRun) (g : Group), readyGroup .pset at_ w s = some (run, g)) ∧
    (∃ (s : State) (at_ : Issue) (w : EngFields) (run : EngineRun) (g : Group), readyGroup .plog at_ w s = some (run, g)) ∧
    (∃ (s : State) (at_ : Issue) (w : EngFields) (run : EngineRun) (g : Group), readyGroup .loop at_ w s = some (run, g) ∧ guarded_ g w
     = []) ∧
    (∃ (s : State) (at_ : Issue) (w : EngFields) (run : EngineRun) (g : Group) (lead : Nat) (rest : List Nat), readyGroup .loop at_ w s
     = some (run, g) ∧ guarded_ g w = lead :: rest ∧ rpo g lead w.d.toNat = true) ∧
    (∃ (s : State) (at_ : Issue) (w : EngFields) (run : EngineRun) (g : Group) (lead : Nat) (rest : List Nat), readyGroup .loop at_ w s
     = some (run, g) ∧ guarded_ g w = lead :: rest ∧ rpo g lead w.d.toNat = false) :=
  ⟨⟨wEs ({ wEr .pset ⟨0, 0, 0, 0, 0⟩ with groups := [wGrp] }), ⟨0, 0⟩, ⟨0, 0, 0, 0, 0⟩, { wEr .pset ⟨0, 0, 0, 0, 0⟩ with groups := [wGrp] },
     wGrp, by decide +kernel⟩,
   ⟨wEs ({ wEr .plog ⟨0, 0, 0, 0, 0⟩ with groups := [wGrp] }), ⟨0, 0⟩, ⟨0, 0, 0, 0, 0⟩, { wEr .plog ⟨0, 0, 0, 0, 0⟩ with groups := [wGrp] },
     wGrp, by decide +kernel⟩,
   ⟨wEs ({ wEr .loop wOff with groups := [wGrp] }), ⟨0, 0⟩, wOff, { wEr .loop wOff with groups := [wGrp] }, wGrp, by decide +kernel⟩,
   ⟨wEs ({ wEr .loop ⟨0, 0, 0, 0, 0⟩ with groups := [{ wGrp with poison := wPoi }] }), ⟨0, 0⟩, ⟨0, 0, 0, 0, 0⟩, { wEr .loop ⟨0, 0, 0, 0, 0⟩ with groups := [{ wGrp with poison := wPoi }] },
     { wGrp with poison := wPoi }, 0, [1], by decide +kernel⟩,
   ⟨wEs ({ wEr .loop ⟨0, 0, 0, 0, 0⟩ with groups := [wGrp] }), ⟨0, 0⟩, ⟨0, 0, 0, 0, 0⟩, { wEr .loop ⟨0, 0, 0, 0, 0⟩ with groups := [wGrp] },
     wGrp, 0, [1], by decide +kernel⟩⟩

theorem witness_EngineControlRuns :
    (∃ (s : State) (at_ : Issue) (w : EngFields) (run : EngineRun) (g : Group), readyGroup .nop at_ w s = some (run, g)) ∧
    (∃ (s : State) (at_ : Issue) (w : EngFields) (run : EngineRun) (g : Group), readyGroup .end_ at_ w s = some (run, g)) ∧
    (∃ (s : State) (at_ : Issue) (w : EngFields) (run : EngineRun) (g : Group), readyGroup .bare at_ w s = some (run, g)) ∧
    (∃ (s : State) (at_ : Issue) (w : EngFields) (run : EngineRun) (g : Group), readyGroup .barg at_ w s = some (run, g)) ∧
    (∃ (s : State) (at_ : Issue) (w : EngFields) (run : EngineRun) (g : Group), readyGroup .bra at_ w s = some (run, g) ∧ (∀ i, i ∈
     activeLanes g → ppo g i (w.c.toNat % 8) = false)) ∧
    (∃ (s : State) (at_ : Issue) (w : EngFields) (run : EngineRun) (g : Group) (lead : _) (rest : _), readyGroup .waitc at_ w s = some
     (run, g) ∧ guarded_ g w = lead :: rest ∧ w.imm.getLsbD 4 = true) ∧
    (∃ (s : State) (at_ : Issue) (w : EngFields) (run : EngineRun) (g : Group) (lead : _) (rest : _), readyGroup .waitc at_ w s = some
     (run, g) ∧ guarded_ g w = lead :: rest ∧ w.imm.getLsbD 4 = false ∧ rpo g lead w.a.toNat = false) ∧
    (∃ (s : State) (e : Nat) (run free : EngineRun), SMap.get none s.engines e = some run ∧ run.groups ≠ [] ∧ (∀ g, g ∈ run.groups →
     g.wait = .engineBarrier) ∧ { run with groups := run.groups.map (fun g => { g with wait := .none }) } = free) ∧
    (∃ (s : State) (n : Nat), groupRuns n s ≠ [] ∧ (∀ r, r ∈ groupRuns n s → ∀ g, g ∈ r.2.groups → g.wait = .groupBarrier)) ∧
    (∃ (s : State) (at_ : Issue) (run : EngineRun) (g : Group) (c v : Nat), SMap.get none s.engines at_.engine = some run ∧ g ∈
     run.groups ∧ g.slot = at_.slot ∧ g.wait = .counter c v) :=
  ⟨⟨wEs ({ wEr .nop ⟨0, 0, 0, 0, 0⟩ with groups := [wGrp] }), ⟨0, 0⟩, ⟨0, 0, 0, 0, 0⟩, { wEr .nop ⟨0, 0, 0, 0, 0⟩ with groups := [wGrp] },
     wGrp, by decide +kernel⟩,
   ⟨wEs ({ wEr .end_ ⟨0, 0, 0, 0, 0⟩ with groups := [wGrp] }), ⟨0, 0⟩, ⟨0, 0, 0, 0, 0⟩, { wEr .end_ ⟨0, 0, 0, 0, 0⟩ with groups := [wGrp] },
     wGrp, by decide +kernel⟩,
   ⟨wEs ({ wEr .bare ⟨0, 0, 0, 0, 0⟩ with groups := [wGrp] }), ⟨0, 0⟩, ⟨0, 0, 0, 0, 0⟩, { wEr .bare ⟨0, 0, 0, 0, 0⟩ with groups := [wGrp] },
     wGrp, by decide +kernel⟩,
   ⟨wEs ({ wEr .barg ⟨0, 0, 0, 0, 0⟩ with groups := [wGrp] }), ⟨0, 0⟩, ⟨0, 0, 0, 0, 0⟩, { wEr .barg ⟨0, 0, 0, 0, 0⟩ with groups := [wGrp] },
     wGrp, by decide +kernel⟩,
   ⟨wEs ({ wEr .bra ⟨0, 0, 0, 0, 0⟩ with groups := [wGrp] }), ⟨0, 0⟩, ⟨0, 0, 0, 0, 0⟩, { wEr .bra ⟨0, 0, 0, 0, 0⟩ with groups := [wGrp] },
     wGrp, by decide +kernel⟩,
   ⟨wEs ({ wEr .waitc ⟨0, 0, 0, 0, 16⟩ with groups := [wGrp] }), ⟨0, 0⟩, ⟨0, 0, 0, 0, 16⟩, { wEr .waitc ⟨0, 0, 0, 0, 16⟩ with groups := [wGrp] },
     wGrp, 0, [1], by decide +kernel⟩,
   ⟨wEs ({ wEr .waitc ⟨0, 0, 0, 0, 0⟩ with groups := [wGrp] }), ⟨0, 0⟩, ⟨0, 0, 0, 0, 0⟩, { wEr .waitc ⟨0, 0, 0, 0, 0⟩ with groups := [wGrp] },
     wGrp, 0, [1], by decide +kernel⟩,
   ⟨wEs ({ wEr .nop ⟨0, 0, 0, 0, 0⟩ with groups := [{ wGrp with wait := .engineBarrier }] }), 0, { wEr .nop ⟨0, 0, 0, 0, 0⟩ with groups := [{ wGrp with wait := .engineBarrier }] },
     { wEr .nop ⟨0, 0, 0, 0, 0⟩ with groups := [{ wGrp with wait := .none }] }, by decide +kernel⟩,
   ⟨wEs ({ wEr .nop ⟨0, 0, 0, 0, 0⟩ with groups := [{ wGrp with wait := .groupBarrier }] }), 0, by decide +kernel⟩,
   ⟨wEs ({ wEr .nop ⟨0, 0, 0, 0, 0⟩ with groups := [{ wGrp with wait := .counter 15 3 }] }), ⟨0, 0⟩, { wEr .nop ⟨0, 0, 0, 0, 0⟩ with groups := [{ wGrp with wait := .counter 15 3 }] },
     { wGrp with wait := .counter 15 3 }, 15, 3, by decide +kernel⟩⟩

theorem witness_EngineFloatRuns :
    (∃ (s : State) (at_ : Issue) (w : EngFields) (run : EngineRun) (g : Group) (op : EngOp) (c : Issue → EngFields → Instr) (f : BitVec
     32 → BitVec 32 → BitVec 32), (op, c, f) ∈ ([(.fadd, .fadd, fp32Add), (.fsub, .fsub, fp32Sub), (.fmul, .fmul, fp32Mul),
     (.fmax, .fmax, fp32Max), (.fmin, .fmin, fp32Min)] : List (EngOp × (Issue → EngFields → Instr) × (BitVec 32 → BitVec 32 →
     BitVec 32))) ∧ readyGroup op at_ w s = some (run, g)) ∧
    (∃ (s : State) (at_ : Issue) (w : EngFields) (run : EngineRun) (g : Group) (op : EngOp) (c : Issue → EngFields → Instr) (f : BitVec
     32 → BitVec 32), (op, c, f) ∈ ([(.exp, .exp, fpExp), (.recip, .recip, fpRecip), (.rsqrt, .rsqrt, fpRsqrt), (.silu, .silu,
     fpSilu)] : List (EngOp × (Issue → EngFields → Instr) × (BitVec 32 → BitVec 32))) ∧ readyGroup op at_ w s = some (run, g)) ∧
    (∃ (s : State) (at_ : Issue) (w : EngFields) (run : EngineRun) (g : Group), readyGroup .fma at_ w s = some (run, g)) ∧
    (∃ (s : State) (at_ : Issue) (w : EngFields) (run : EngineRun) (g : Group), readyGroup .fred at_ w s = some (run, g)) ∧
    (∃ (s : State) (at_ : Issue) (w : EngFields) (run : EngineRun) (g : Group) (x : BitVec 32 × BitVec 32) (po : Bool), readyGroup
     .maxi at_ w s = some (run, g) ∧ w.d.toNat ≤ 62 ∧ maxiValue ((guarded_ g w).map (fun i => (rv g i w.a.toNat, rv g i
     w.b.toNat))) = x ∧ (anyPoison g (guarded_ g w) w.a.toNat || anyPoison g (guarded_ g w) w.b.toNat) = po) ∧
    (∃ (s : State) (at_ : Issue) (w : EngFields) (run : EngineRun) (g : Group), readyGroup .smstep at_ w s = some (run, g) ∧ w.d.toNat
     ≤ 62 ∧ w.c.toNat ≤ 62 ∧ (w.d = w.c ∨ w.d.toNat + 1 = w.c.toNat ∨ w.c.toNat + 1 = w.d.toNat)) ∧
    (∃ (s : State) (at_ : Issue) (w : EngFields) (run : EngineRun) (g : Group), readyGroup .smstep at_ w s = some (run, g) ∧ w.d.toNat
     ≤ 62 ∧ w.c.toNat ≤ 62 ∧ (w.d.toNat + 1 < w.c.toNat ∨ w.c.toNat + 1 < w.d.toNat)) ∧
    (∃ (s : State) (at_ : Issue) (w : EngFields) (run : EngineRun) (g : Group) (l : List Nat) (one : Nat → Nat × Bool), readyGroup .cvt
     at_ w s = some (run, g) ∧ coordPoison g w (guarded_ g w) = false ∧ guarded_ g w = l ∧ (∀ i, one i = convert (bits w.imm.toNat
     3 0) (bits w.imm.toNat 9 8) (laneBits run g w i) (regValue (bits w.imm.toNat 7 4) (rv g i w.a.toNat)))) :=
  ⟨⟨wEs ({ wEr .fadd ⟨0, 0, 0, 0, 0⟩ with groups := [wGrp] }), ⟨0, 0⟩, ⟨0, 0, 0, 0, 0⟩, { wEr .fadd ⟨0, 0, 0, 0, 0⟩ with groups := [wGrp] },
     wGrp, .fadd, .fadd, fp32Add, List.mem_cons_self .., by decide +kernel⟩,
   ⟨wEs ({ wEr .exp ⟨0, 0, 0, 0, 0⟩ with groups := [wGrp] }), ⟨0, 0⟩, ⟨0, 0, 0, 0, 0⟩, { wEr .exp ⟨0, 0, 0, 0, 0⟩ with groups := [wGrp] },
     wGrp, .exp, .exp, fpExp, List.mem_cons_self .., by decide +kernel⟩,
   ⟨wEs ({ wEr .fma ⟨0, 0, 0, 0, 0⟩ with groups := [wGrp] }), ⟨0, 0⟩, ⟨0, 0, 0, 0, 0⟩, { wEr .fma ⟨0, 0, 0, 0, 0⟩ with groups := [wGrp] },
     wGrp, by decide +kernel⟩,
   ⟨wEs ({ wEr .fred ⟨0, 0, 0, 0, 0⟩ with groups := [wGrp] }), ⟨0, 0⟩, ⟨0, 0, 0, 0, 0⟩, { wEr .fred ⟨0, 0, 0, 0, 0⟩ with groups := [wGrp] },
     wGrp, by decide +kernel⟩,
   ⟨wEs ({ wEr .maxi ⟨62, 0, 0, 0, 0⟩ with groups := [wGrp] }), ⟨0, 0⟩, ⟨62, 0, 0, 0, 0⟩, { wEr .maxi ⟨62, 0, 0, 0, 0⟩ with groups := [wGrp] },
     wGrp, _, _, by decide +kernel, by decide +kernel, rfl, rfl⟩,
   ⟨wEs ({ wEr .smstep ⟨62, 0, 0, 62, 0⟩ with groups := [wGrp] }), ⟨0, 0⟩, ⟨62, 0, 0, 62, 0⟩, { wEr .smstep ⟨62, 0, 0, 62, 0⟩ with groups := [wGrp] },
     wGrp, by decide +kernel⟩,
   ⟨wEs ({ wEr .smstep ⟨62, 0, 0, 60, 0⟩ with groups := [wGrp] }), ⟨0, 0⟩, ⟨62, 0, 0, 60, 0⟩, { wEr .smstep ⟨62, 0, 0, 60, 0⟩ with groups := [wGrp] },
     wGrp, by decide +kernel⟩,
   ⟨wEs ({ wEr .cvt ⟨0, 0, 0, 0, 0⟩ with groups := [wGrp] }), ⟨0, 0⟩, ⟨0, 0, 0, 0, 0⟩, { wEr .cvt ⟨0, 0, 0, 0, 0⟩ with groups := [wGrp] },
     wGrp, [0, 1], _, by decide +kernel, by decide +kernel, by decide +kernel, fun _ => rfl⟩⟩

theorem witness_EngineAccumulatorsRun :
    (∃ (s : State) (at_ : Issue) (w : EngFields) (run : EngineRun) (g : Group), readyGroup .xclr at_ w s = some (run, g)) ∧
    (∃ (s : State) (at_ : Issue) (w : EngFields) (run : EngineRun) (g : Group) (a d n : Nat), readyGroup .xred at_ w s = some (run, g)
     ∧ w.a.toNat % 8 = a ∧ w.d.toNat % 8 = d ∧ 2 ^ bits w.imm.toNat 2 0 = n ∧ 1 ≤ bits w.imm.toNat 2 0 ∧ bits w.imm.toNat 2 0 ≤ 5
     ∧ ((∃ i, i ∈ guarded_ g w ∧ ((acv g i a).stage.isSome = true ∨ (acv g i d).stage.isSome = true)))) ∧
    (∃ (s : State) (at_ : Issue) (w : EngFields) (run : EngineRun) (g : Group) (a d n : Nat), readyGroup .xred at_ w s = some (run, g)
     ∧ w.a.toNat % 8 = a ∧ w.d.toNat % 8 = d ∧ 2 ^ bits w.imm.toNat 2 0 = n ∧ 1 ≤ bits w.imm.toNat 2 0 ∧ bits w.imm.toNat 2 0 ≤ 5
     ∧ (∀ i, i ∈ guarded_ g w → (acv g i a).stage = none ∧ (acv g i d).stage = none)) ∧
    (∃ (s : State) (at_ : Issue) (w : EngFields) (run : EngineRun) (g : Group) (a : Nat) (one : Nat → Nat × Bool), readyGroup .xexit
     at_ w s = some (run, g) ∧ w.a.toNat % 8 = a ∧ (∀ i, one i = accExit (bits w.imm.toNat 3 0) (bits w.imm.toNat 9 8) (laneBits
     run g w i) run.desc.anchor (acv g i a).acc) ∧ (∃ i, i ∈ guarded_ g w ∧ (acv g i a).stage.isSome = true)) ∧
    (∃ (s : State) (at_ : Issue) (w : EngFields) (run : EngineRun) (g : Group) (a : Nat) (one : Nat → Nat × Bool), readyGroup .xexit
     at_ w s = some (run, g) ∧ w.a.toNat % 8 = a ∧ (∀ i, one i = accExit (bits w.imm.toNat 3 0) (bits w.imm.toNat 9 8) (laneBits
     run g w i) run.desc.anchor (acv g i a).acc) ∧ (∀ i, i ∈ guarded_ g w → (acv g i a).stage = none) ∧ coordPoison g w (guarded_
     g w) = false) ∧
    (∃ (s : State) (at_ : Issue) (w : EngFields) (run : EngineRun) (g : Group) (c : _), readyGroup .xmac at_ w s = some (run, g) ∧
     (guarded_ g w).findSome? (xmacFault run.desc w g) = some c) ∧
    (∃ (s : State) (at_ : Issue) (w : EngFields) (run : EngineRun) (g : Group), readyGroup .xmac at_ w s = some (run, g) ∧ (guarded_ g
     w).findSome? (xmacFault run.desc w g) = none) ∧
    (∃ (s s1 s2 : State) (e i d : Nat) (w : EngFields) (run : EngineRun) (g : Group) (a b : List (Byte × Bool)), w.d.toNat % 8 = d ∧ i
     < 32 ∧ w.imm.getLsbD 11 = false ∧ readLocal e (rv g i w.a.toNat).toNat (xBytes (xOps w.imm.toNat).1) s = (a, s1) ∧ readLocal
     e (rv g i w.b.toNat).toNat (xBytes (xOps w.imm.toNat).2.1) s1 = (b, s2)) ∧
    (∃ (s : State) (at_ : Issue) (w : EngFields) (run : EngineRun) (g : Group) (lead off : Nat) (rest : List Nat), readyGroup .qblk at_
     w s = some (run, g) ∧ guarded_ g w = lead :: rest ∧ (rv g lead w.b.toNat).toNat = off ∧ rpo g lead w.b.toNat = false ∧
     coordPoison g w (lead :: rest) = false ∧ localOk run.desc off (recBytes (bits w.imm.toNat 3 0) false) = false) ∧
    (∃ (s : State) (at_ : Issue) (w : EngFields) (run : EngineRun) (g : Group) (lead off : Nat) (rest : List Nat) (r : List Byte ×
     Nat), readyGroup .qblk at_ w s = some (run, g) ∧ guarded_ g w = lead :: rest ∧ (rv g lead w.b.toNat).toNat = off ∧ rpo g lead
     w.b.toNat = false ∧ coordPoison g w (lead :: rest) = false ∧ localOk run.desc off (recBytes (bits w.imm.toNat 3 0) false) =
     true ∧ storeBlock (bits w.imm.toNat 3 0) (bits w.imm.toNat 9 8) ((List.range 32).map (fun i => if (lead :: rest).contains i
     then (fp32Val (rv g i w.a.toNat), laneBits run g w i) else (.fin false 0 0, 0))) = r) :=
  ⟨⟨wEs ({ wEr .xclr ⟨0, 0, 0, 0, 0⟩ with groups := [wGrp] }), ⟨0, 0⟩, ⟨0, 0, 0, 0, 0⟩, { wEr .xclr ⟨0, 0, 0, 0, 0⟩ with groups := [wGrp] },
     wGrp, by decide +kernel⟩,
   ⟨wEs ({ wEr .xred ⟨1, 0, 0, 0, 5⟩ with groups := [{ wGrp with acc := [(0, { stage := some ⟨0, .fin false 0 0⟩ })] }] }), ⟨0, 0⟩,
     ⟨1, 0, 0, 0, 5⟩, { wEr .xred ⟨1, 0, 0, 0, 5⟩ with groups := [{ wGrp with acc := [(0, { stage := some ⟨0, .fin false 0 0⟩ })] }] },
     { wGrp with acc := [(0, { stage := some ⟨0, .fin false 0 0⟩ })] }, 0, 1, 32, by decide +kernel, by decide +kernel,
     by decide +kernel, by decide +kernel, by decide +kernel, by decide +kernel, ⟨0, by decide +kernel⟩⟩,
   ⟨wEs ({ wEr .xred ⟨1, 0, 0, 0, 5⟩ with groups := [wGrp] }), ⟨0, 0⟩, ⟨1, 0, 0, 0, 5⟩, { wEr .xred ⟨1, 0, 0, 0, 5⟩ with groups := [wGrp] },
     wGrp, 0, 1, 32, by decide +kernel⟩,
   ⟨wEs ({ wEr .xexit ⟨0, 0, 0, 0, 0⟩ with groups := [{ wGrp with acc := [(0, { stage := some ⟨0, .fin false 0 0⟩ })] }] }), ⟨0, 0⟩,
     ⟨0, 0, 0, 0, 0⟩, { wEr .xexit ⟨0, 0, 0, 0, 0⟩ with groups := [{ wGrp with acc := [(0, { stage := some ⟨0, .fin false 0 0⟩ })] }] },
     { wGrp with acc := [(0, { stage := some ⟨0, .fin false 0 0⟩ })] }, 0, _, by decide +kernel, by decide +kernel, fun _ => rfl,
     ⟨0, by decide +kernel⟩⟩,
   ⟨wEs ({ wEr .xexit ⟨0, 0, 0, 0, 0⟩ with groups := [wGrp] }), ⟨0, 0⟩, ⟨0, 0, 0, 0, 0⟩, { wEr .xexit ⟨0, 0, 0, 0, 0⟩ with groups := [wGrp] },
     wGrp, 0, _, by decide +kernel, by decide +kernel, fun _ => rfl, by decide +kernel⟩,
   ⟨wEs ({ wEr .xmac ⟨0, 0, 0, 0, 0⟩ with groups := [{ wGrp with poison := wPoi }] }), ⟨0, 0⟩, ⟨0, 0, 0, 0, 0⟩, { wEr .xmac ⟨0, 0, 0, 0, 0⟩ with groups := [{ wGrp with poison := wPoi }] },
     { wGrp with poison := wPoi }, csPOISONED, by decide +kernel⟩,
   ⟨wEs ({ wEr .xmac ⟨0, 0, 0, 0, 0⟩ with groups := [wGrp] }), ⟨0, 0⟩, ⟨0, 0, 0, 0, 0⟩, { wEr .xmac ⟨0, 0, 0, 0, 0⟩ with groups := [wGrp] },
     wGrp, by decide +kernel⟩,
   ⟨wEs ({ wEr .xmac ⟨0, 0, 0, 0, 0⟩ with groups := [wGrp] }), _, _, 0, 31, 0, ⟨0, 0, 0, 0, 0⟩, { wEr .xmac ⟨0, 0, 0, 0, 0⟩ with groups := [wGrp] },
     wGrp, _, _, by decide +kernel, by decide +kernel, by decide +kernel, rfl, rfl⟩,
   ⟨wEs ({ wEr .qblk ⟨0, 0, 0, 0, 0⟩ with groups := [{ wGrp with v := [(0, 4096)] }] }), ⟨0, 0⟩, ⟨0, 0, 0, 0, 0⟩, { wEr .qblk ⟨0, 0, 0, 0, 0⟩ with groups := [{ wGrp with v := [(0, 4096)] }] },
     { wGrp with v := [(0, 4096)] }, 0, 4096, [1], by decide +kernel⟩,
   ⟨wEs ({ wEr .qblk ⟨0, 0, 0, 0, 0⟩ with groups := [wGrp] }), ⟨0, 0⟩, ⟨0, 0, 0, 0, 0⟩, { wEr .qblk ⟨0, 0, 0, 0, 0⟩ with groups := [wGrp] },
     wGrp, 0, 0, [1], _, by decide +kernel, by decide +kernel, by decide +kernel, by decide +kernel, by decide +kernel,
     by decide +kernel, rfl⟩⟩

theorem witness_EngineLoadsAndStoresRun :
    (∃ (s : State) (at_ : Issue) (w : EngFields) (run : EngineRun) (g : Group) (op : EngOp) (c : Issue → EngFields → Instr) (m : Mem)
     (f : _), (op, c, m) ∈ ([(.ldl, .ldl, .local_), (.lds, .lds, .shared), (.ldg, .ldg, .device)] : List (EngOp × (Issue →
     EngFields → Instr) × Mem)) ∧ readyGroup op at_ w s = some (run, g) ∧ (guarded_ g w).findSome? (accessFault m false at_.engine
     run g w s) = some f) ∧
    (∃ (s : State) (at_ : Issue) (w : EngFields) (run : EngineRun) (g : Group) (op : EngOp) (c : Issue → EngFields → Instr) (m : Mem),
     (op, c, m) ∈ ([(.ldl, .ldl, .local_), (.lds, .lds, .shared), (.ldg, .ldg, .device)] : List (EngOp × (Issue → EngFields →
     Instr) × Mem)) ∧ readyGroup op at_ w s = some (run, g) ∧ (guarded_ g w).findSome? (accessFault m false at_.engine run g w s)
     = none) ∧
    (∃ (s t : State) (e i : Nat) (w : EngFields) (run : EngineRun) (g : Group) (m : Mem) (bs : List (Byte × Bool)), i < 32 ∧ (m ≠
     .device → fetchBytes (accessAddr m e (accessAt m g w i)) (accessWidth w) s = (bs, t)) ∧ (m = .device → readDevice
     run.node (accessAddr m e (accessAt m g w i)) (accessWidth w) s = (bs, t)) ∧ (accessWidth w = 8 → w.d.toNat ≤ 62)) ∧
    (∃ (s : State) (at_ : Issue) (w : EngFields) (run : EngineRun) (g : Group) (op : EngOp) (c : Issue → EngFields → Instr) (m : Mem)
     (addr : Nat → Nat) (f : _), (op, c, m) ∈ ([(.stl, .stl, .local_), (.sts, .sts, .shared), (.stg, .stg, .device)] : List (EngOp
     × (Issue → EngFields → Instr) × Mem)) ∧ readyGroup op at_ w s = some (run, g) ∧ (∀ i, addr i = accessAddr m at_.engine
     (accessAt m g w i)) ∧ (guarded_ g w).findSome? (accessFault m true at_.engine run g w s) = some f) ∧
    (∃ (s : State) (at_ : Issue) (w : EngFields) (run : EngineRun) (g : Group) (op : EngOp) (c : Issue → EngFields → Instr) (m : Mem)
     (addr : Nat → Nat), (op, c, m) ∈ ([(.stl, .stl, .local_), (.sts, .sts, .shared), (.stg, .stg, .device)] : List (EngOp ×
     (Issue → EngFields → Instr) × Mem)) ∧ readyGroup op at_ w s = some (run, g) ∧ (∀ i, addr i = accessAddr m at_.engine
     (accessAt m g w i)) ∧ (guarded_ g w).findSome? (accessFault m true at_.engine run g w s) = none) :=
  ⟨⟨wEs ({ wEr .ldl ⟨0, 0, 0, 0, 0⟩ with groups := [{ wGrp with poison := wPoi }] }), ⟨0, 0⟩, ⟨0, 0, 0, 0, 0⟩, { wEr .ldl ⟨0, 0, 0, 0, 0⟩ with groups := [{ wGrp with poison := wPoi }] },
     { wGrp with poison := wPoi }, .ldl, .ldl, .local_, csPOISONED, List.mem_cons_self .., by decide +kernel⟩,
   ⟨wEs ({ wEr .ldl ⟨0, 0, 0, 0, 0⟩ with groups := [wGrp] }), ⟨0, 0⟩, ⟨0, 0, 0, 0, 0⟩, { wEr .ldl ⟨0, 0, 0, 0, 0⟩ with groups := [wGrp] },
     wGrp, .ldl, .ldl, .local_, List.mem_cons_self .., by decide +kernel⟩,
   ⟨wEs ({ wEr .ldl ⟨62, 0, 0, 0, 0x3000000⟩ with groups := [wGrp] }), _, 0, 31, ⟨62, 0, 0, 0, 0x3000000⟩, { wEr .ldl ⟨62, 0, 0, 0, 0x3000000⟩ with groups := [wGrp] },
     wGrp, .local_, _, by decide +kernel, fun _ => rfl, fun h => absurd h (by decide), by decide +kernel⟩,
   ⟨wEs ({ wEr .stl ⟨0, 0, 0, 0, 0⟩ with groups := [{ wGrp with poison := wPoi }] }), ⟨0, 0⟩, ⟨0, 0, 0, 0, 0⟩, { wEr .stl ⟨0, 0, 0, 0, 0⟩ with groups := [{ wGrp with poison := wPoi }] },
     { wGrp with poison := wPoi }, .stl, .stl, .local_, _, csPOISONED, List.mem_cons_self .., by decide +kernel, fun _ => rfl,
     by decide +kernel⟩,
   ⟨wEs ({ wEr .stl ⟨0, 0, 0, 0, 0⟩ with groups := [wGrp] }), ⟨0, 0⟩, ⟨0, 0, 0, 0, 0⟩, { wEr .stl ⟨0, 0, 0, 0, 0⟩ with groups := [wGrp] },
     wGrp, .stl, .stl, .local_, _, List.mem_cons_self .., by decide +kernel, fun _ => rfl, by decide +kernel⟩⟩

theorem witness_EngineExchangesRun :
    (∃ (s s1 : State) (at_ : Issue) (w : EngFields) (run : EngineRun) (g : Group) (lead doff loff n first : Nat) (rest : List Nat) (db
     : List (Byte × Bool)) (t : TDesc), readyGroup .gcopy at_ w s = some (run, g) ∧ activeLanes g = lead :: rest ∧ (rv g lead
     w.a.toNat).toNat = doff ∧ (rv g lead w.b.toNat).toNat = loff ∧ bits w.imm.toNat 11 0 + 1 = n ∧ rpo g lead w.a.toNat = false ∧
     rpo g lead w.b.toNat = false ∧ rpo g lead w.c.toNat = false ∧ localOk run.desc doff 128 = true ∧ localOk run.desc loff (64 *
     n) = true ∧ readLocal at_.engine doff 128 s = (db, s1) ∧ db.any (fun b => b.2) = false ∧ tdOk (leNat (db.map
     (fun b => b.1))) = true ∧ tdParse (leNat (db.map (fun b => b.1))) = t ∧ t.base % 64 = 0 ∧ t.space ≠ 1 ∧ tdWindow t = false ∧ t.base / 64 + (rv g
     lead w.c.toNat).toNat = first ∧ (tdGranules t).1 ≤ first ∧ first + n ≤ (tdGranules t).1 + (tdGranules t).2 ∧ rangeFault s
     run.node.pod (6 + at_.engine / 64) (64 * first) (64 * n) (w.imm.getLsbD 12) = none ∧ w.imm.getLsbD 12 = true) ∧
    (∃ (s s1 : State) (at_ : Issue) (w : EngFields) (run : EngineRun) (g : Group) (lead doff loff n first : Nat) (rest : List Nat) (db
     : List (Byte × Bool)) (t : TDesc), readyGroup .gcopy at_ w s = some (run, g) ∧ activeLanes g = lead :: rest ∧ (rv g lead
     w.a.toNat).toNat = doff ∧ (rv g lead w.b.toNat).toNat = loff ∧ bits w.imm.toNat 11 0 + 1 = n ∧ rpo g lead w.a.toNat = false ∧
     rpo g lead w.b.toNat = false ∧ rpo g lead w.c.toNat = false ∧ localOk run.desc doff 128 = true ∧ localOk run.desc loff (64 *
     n) = true ∧ readLocal at_.engine doff 128 s = (db, s1) ∧ db.any (fun b => b.2) = false ∧ tdOk (leNat (db.map
     (fun b => b.1))) = true ∧ tdParse (leNat (db.map (fun b => b.1))) = t ∧ t.base % 64 = 0 ∧ t.space ≠ 1 ∧ tdWindow t = false ∧ t.base / 64 + (rv g
     lead w.c.toNat).toNat = first ∧ (tdGranules t).1 ≤ first ∧ first + n ≤ (tdGranules t).1 + (tdGranules t).2 ∧ rangeFault s
     run.node.pod (6 + at_.engine / 64) (64 * first) (64 * n) (w.imm.getLsbD 12) = none ∧ w.imm.getLsbD 12 = false) ∧
    (∃ (s : State) (at_ : Issue) (w : EngFields) (run : EngineRun) (g : Group) (lead off n : Nat) (rest : List Nat), readyGroup .xchg
     at_ w s = some (run, g) ∧ guarded_ g w = lead :: rest ∧ (rv g lead w.a.toNat).toNat = off ∧ (rv g lead w.b.toNat).toNat = n ∧
     rpo g lead w.a.toNat = false ∧ rpo g lead w.b.toNat = false ∧ onesOf 16 (bits w.imm.toNat 15 0) ≠ [] ∧ 1 ≤ n ∧ n ≤ 4096 ∧ off
     % 64 = 0 ∧ localOk run.desc off (64 * n) = true ∧ (onesOf 16 (bits w.imm.toNat 15 0)).findSome? (destFault s run.node.pod
     at_.engine w.imm.toNat) = none) ∧
    (∃ (s s1 : State) (at_ : Issue) (w : EngFields) (run : EngineRun) (g : Group) (lead off n : Nat) (rest : List Nat) (bs : List (Byte
     × Bool)) (p : PortWrite), readyGroup .sprt at_ w s = some (run, g) ∧ activeLanes g = lead :: rest ∧ (rv g lead
     w.a.toNat).toNat = off ∧ bits w.imm.toNat 15 8 = n ∧ rpo g lead w.a.toNat = false ∧ rpo g lead w.b.toNat = false ∧ rpo g lead
     w.c.toNat = false ∧ n ≠ 0 ∧ localOk run.desc off (64 * n) = true ∧ readLocal at_.engine off (64 * n) s = (bs, s1) ∧ p = { node := run.node, src := 6 + at_.engine / 64, sprt := true, stream := (rv g lead w.b.toNat).toNat, pos := (rv g lead w.c.toNat).toNat, layer := bits w.imm.toNat 7 0, value := w.imm.getLsbD 16, pieces := [(0, bs)] }) ∧
    (∃ (s : State) (i off : Nat) (f : Flight), flightAt s i = some f ∧ f.off = some off) ∧
    (∃ (s : State) (i : Nat) (p : PortWrite) (s1 : State) (n : _), s.portq[i]? = some p ∧ { s with portq := s.portq.eraseIdx i } = s1 ∧
     portCheck s1 p = .sink n) ∧
    (∃ (s : State) (i : Nat) (p : PortWrite) (s1 : State) (c : _), s.portq[i]? = some p ∧ { s with portq := s.portq.eraseIdx i } = s1 ∧
     portCheck s1 p = .fault c) ∧
    (∃ (s : State) (i : Nat) (p : PortWrite) (s1 : State) (ws : _) (st : _) (n : _), s.portq[i]? = some p ∧ { s with portq := s.portq.eraseIdx i }
     = s1 ∧ portCheck s1 p = .write ws st n ∧ ws.any (fun q => !reachable s1 p.src q.1) = true) ∧
    (∃ (s : State) (i : Nat) (p : PortWrite) (s1 : State) (ws : _) (st : _) (n : _), s.portq[i]? = some p ∧ { s with portq := s.portq.eraseIdx i }
     = s1 ∧ portCheck s1 p = .write ws st n ∧ ws.any (fun q => !reachable s1 p.src q.1) = false) ∧
    (∃ (s : State) (i j : Nat) (f h : Flight), s.flights[i]? = some f ∧ s.flights[j]? = some h ∧ j < i ∧ sameGranule h f = true) ∧
    (∃ (s : State) (i : Nat) (f : Flight), flightAt s i = some f ∧ f.sprout = true) :=
  ⟨⟨wGs 4096, (wGl 4096).2, ⟨0, 0⟩, ⟨0, 0, 1, 2, 4096⟩, wGe 4096, wGg, 0, 0, 128, 1, addrSlice 2 / 64, [1], (wGl 4096).1, wGt 4096, by
      refine ⟨?_, ?_, ?_, ?_, ?_, ?_, ?_, ?_, ?_, ?_, Prod.ext rfl rfl, ?_, ?_, rfl, ?_⟩ <;> decide +kernel⟩,
   ⟨wGs 0, (wGl 0).2, ⟨0, 0⟩, ⟨0, 0, 1, 2, 0⟩, wGe 0, wGg, 0, 0, 128, 1, addrSlice 2 / 64, [1], (wGl 0).1, wGt 0, by
      refine ⟨?_, ?_, ?_, ?_, ?_, ?_, ?_, ?_, ?_, ?_, Prod.ext rfl rfl, ?_, ?_, rfl, ?_⟩ <;> decide +kernel⟩,
   ⟨wEs ({ wEr .xchg ⟨0, 0, 1, 0, 0x10001⟩ with groups := [{ wGrp with v := [(1, 1)] }] }), ⟨0, 0⟩, ⟨0, 0, 1, 0, 0x10001⟩, { wEr .xchg ⟨0, 0, 1, 0, 0x10001⟩ with groups := [{ wGrp with v := [(1, 1)] }] },
     { wGrp with v := [(1, 1)] }, 0, 0, 1, [1], by decide +kernel⟩,
   ⟨wEs ({ wEr .sprt ⟨0, 0, 0, 0, 0x100⟩ with groups := [wGrp] }), _, ⟨0, 0⟩, ⟨0, 0, 0, 0, 0x100⟩, { wEr .sprt ⟨0, 0, 0, 0, 0x100⟩ with groups := [wGrp] },
     wGrp, 0, 0, 1, [1], _, _, by decide +kernel, by decide +kernel, by decide +kernel, by decide +kernel, by decide +kernel,
     by decide +kernel, by decide +kernel, by decide +kernel, by decide +kernel, rfl, rfl⟩,
   ⟨{ wR with flights := [wFl] }, 0, 64, wFl, by decide +kernel⟩,
   ⟨wPort true, 0, wPw, _, 1, by decide +kernel, rfl, by decide +kernel⟩,
   ⟨{ wGa with portq := [wPw] }, 0, wPw, _, 0x09, by decide +kernel, rfl, by decide +kernel⟩,
   ⟨{ wPort false with fabric := { (wPort false).fabric with routersLost := [6] } }, 0, wPw, _, _, _, _, by decide +kernel, rfl, rfl, by decide +kernel⟩,
   ⟨wPort false, 0, wPw, _, _, _, _, by decide +kernel, rfl, rfl, by decide +kernel⟩,
   ⟨{ wR with flights := [wFl, wFl] }, 1, 0, wFl, wFl, by decide +kernel⟩,
   ⟨{ wR with flights := [{ wFl with sprout := true }] }, 0, { wFl with sprout := true }, by decide +kernel⟩⟩

theorem witness_FencesRun :
    (∃ (s : State) (sub : Submission) (u : UnitRef), Takes spFence (fun _ => true) sub s ∧ decodeUnit (ent sub.entry 95 64) = some u ∧
     (∀ l, u ≠ .link l) ∧ unitKnown s (some u) = true ∧ checkCmd spFence false sub true true s = none ∧ (fenceDenied s (fnHub sub.mbx.fn) u = false ∨
     unitFenced s u = true)) ∧
    (∃ (s : State) (sub : Submission) (u : UnitRef), Takes spFence (fun _ => true) sub s ∧ decodeUnit (ent sub.entry 95 64) = some u ∧
     (∀ l, u ≠ .link l) ∧ unitKnown s (some u) = true ∧ checkCmd spFence false sub true true s = none ∧ fenceDenied s (fnHub sub.mbx.fn) u = true ∧
     unitFenced s u = false) ∧
    (∃ (s : State) (sub : Submission) (u : UnitRef), Takes spUnfence (fun _ => true) sub s ∧ decodeUnit (ent sub.entry 95 64) = some u
     ∧ unitKnown s (some u) = true ∧ checkCmd spUnfence false sub true true s = none ∧ unfenceDenied s u = true) ∧
    (∃ (s : State) (sub : Submission) (u : UnitRef) (t : _), Takes spUnfence (fun _ => true) sub s ∧ decodeUnit (ent sub.entry 95 64) =
     some u ∧ unitKnown s (some u) = true ∧ checkCmd spUnfence false sub true true s = none ∧ unfenceDenied s u = false ∧
     postFirst (tokIn s sub) 0 (taken sub s) = t) ∧
    (∃ (s : State) (u : UnitRef) (reason : Nat), fenceCause s u reason = true) ∧
    (∃ (s : State) (u : UnitRef) (reason : Nat), fenceCause s u reason = true ∧ unitFenced s u = true) :=
  ⟨⟨ak (sb [(0, 0x62), (64, unitCode (.group 63))]) wR, sb [(0, 0x62), (64, unitCode (.group 63))], .group 63, ⟨by decide +kernel,
     by decide +kernel⟩, by decide +kernel, (fun _ => by simp), by decide +kernel⟩,
   ⟨ak (sb [(0, 0x62), (64, unitCode (.hub 0))]) wHub, sb [(0, 0x62), (64, unitCode (.hub 0))], .hub 0, ⟨by decide +kernel,
     by decide +kernel⟩, by decide +kernel, (fun _ => by simp), by decide +kernel⟩,
   ⟨ak (sb [(0, 0x63), (64, unitCode (.window 63))]) wR, sb [(0, 0x63), (64, unitCode (.window 63))], .window 63, ⟨by decide +kernel,
     by decide +kernel⟩, by decide +kernel⟩,
   ⟨ak (sb [(0, 0x63), (64, unitCode (.group 63))]) { wR with fences := [(.group 63, 1)] }, sb [(0, 0x63), (64, unitCode (.group
     63))], .group 63, _, ⟨by decide +kernel, by decide +kernel⟩, by decide +kernel, by decide +kernel,
     by decide +kernel, by decide +kernel, rfl⟩,
   ⟨wR, .cluster 31, 5, by decide +kernel⟩,
   ⟨{ wR with fences := [(.cluster 31, 1)] }, .cluster 31, 5, by decide +kernel⟩⟩

/-- A FUSE_REPAIR of tile 255 that waits, in BIST or blown. -/
def wRp (blown : Bool) : PendingCmd := { tok := wTok, work := .repair 255 blown }
def wRs (blown : Bool) : State := { wR with cmds := [wRp blown] }

theorem witness_TileRepairRuns :
    (∃ (s : State) (sub : Submission) (n : Nat), Takes spRepair (fun _ => true) sub s ∧ decodeUnit (ent sub.entry 95 64) = some (.tile
     n) ∧ checkCmd spRepair false sub true true s = none ∧ tileFenced s n = false) ∧
    (∃ (s : State) (sub : Submission) (n : Nat), Takes spRepair (fun _ => true) sub s ∧ decodeUnit (ent sub.entry 95 64) = some (.tile
     n) ∧ checkCmd spRepair false sub true true s = none ∧ tileFenced s n = true ∧ repairWindow s n = false) ∧
    (∃ (s : State) (sub : Submission) (n : Nat) (t : _), Takes spRepair (fun _ => true) sub s ∧ decodeUnit (ent sub.entry 95 64) = some
     (.tile n) ∧ checkCmd spRepair false sub true true s = none ∧ tileFenced s n = true ∧ repairWindow s n = true ∧ setTile n { getTile s n with busy := 2 }
     (taken sub s) = t) ∧
    (∃ (s s1 : State) (n : Nat) (c : PendingCmd) (t : TileStat), s.cmds.find? (repairOf n) = some c ∧ { s with cmds := s.cmds.erase c }
     = s1 ∧ getTile s n = t ∧ c.work = .repair n true) ∧
    (∃ (s s1 : State) (n : Nat) (c : PendingCmd) (cells : List (Nat × Nat)) (t : TileStat), s.cmds.find? (repairOf n) = some c ∧ { s with cmds := s.cmds.erase c }
     = s1 ∧ getTile s n = t ∧ c.work = .repair n false ∧ repairCover t (leftFaults t cells) = none) ∧
    (∃ (s s1 : State) (n : Nat) (c : PendingCmd) (cells : List (Nat × Nat)) (t : TileStat) (cov : _), s.cmds.find? (repairOf n) = some
     c ∧ { s with cmds := s.cmds.erase c } = s1 ∧ getTile s n = t ∧ c.work = .repair n false ∧ repairCover t (leftFaults t cells) = some
     cov ∧ leftFaults t cells ≠ [] ∧ repairWindow s n = false) ∧
    (∃ (s s1 : State) (n : Nat) (c : PendingCmd) (cells : List (Nat × Nat)) (bad : List Nat) (t : TileStat) (cov : _) (t' : _) (idx :
     _), s.cmds.find? (repairOf n) = some c ∧ { s with cmds := s.cmds.erase c } = s1 ∧ getTile s n = t ∧ c.work = .repair n false ∧
     repairCover t (leftFaults t cells) = some cov ∧ (leftFaults t cells = [] ∨ repairWindow s n = true) ∧
     blowCover cov bad (bistRecord cells t) s.freeIdx = (t', idx)) ∧
    (∃ (t : TileStat), t.uncovered = true) ∧
    (∃ (t : TileStat) (i k : Nat), physRow t i = some k) ∧ (∃ (t : TileStat) (i k : Nat), physCol t i = some k) :=
  ⟨⟨ak (sb [(0, 0x64), (64, unitCode (.tile 255))]) wR, sb [(0, 0x64), (64, unitCode (.tile 255))], 255, ⟨by decide +kernel,
     by decide +kernel⟩, by decide +kernel⟩,
   ⟨ak (sb [(0, 0x64), (64, unitCode (.tile 255))]) { wR with fences := [(.tile 255, 1)] }, sb [(0, 0x64), (64, unitCode (.tile
     255))], 255, ⟨by decide +kernel, by decide +kernel⟩, by decide +kernel⟩,
   ⟨ak (sb [(0, 0x64), (64, unitCode (.tile 255))]) { wR with fences := [(.tile 255, 1)], thermal := wWarm }, sb [(0, 0x64), (64,
     unitCode (.tile 255))], 255, _, ⟨by decide +kernel, by decide +kernel⟩, by decide +kernel,
     by decide +kernel, by decide +kernel, by decide +kernel, rfl⟩,
   ⟨wRs true, _, 255, wRp true, {}, by decide +kernel, rfl, rfl, rfl⟩,
   ⟨wRs false, _, 255, wRp false, [(0, 0), (1, 1), (2, 2), (3, 3), (4, 4)], {}, by decide +kernel, rfl, rfl, rfl, by decide +kernel⟩,
   ⟨wRs false, _, 255, wRp false, [(127, 255)], {}, _, by decide +kernel, rfl, rfl, rfl, (Option.some_get (by decide +kernel)).symm,
     by decide +kernel⟩,
   ⟨{ wRs false with thermal := wWarm }, _, 255, wRp false, [(127, 255)], [], {}, _, _, _, by decide +kernel, rfl, rfl, rfl,
     (Option.some_get (by decide +kernel)).symm, by decide +kernel, rfl⟩,
   ⟨{ uncovered := true }, rfl⟩,
   ⟨{ rskip := [some 0, some 5] }, 127, 129, by decide +kernel⟩, ⟨{ cskip := [some 0, some 5] }, 255, 257, by decide +kernel⟩⟩

theorem witness_HubsAndRailsRun :
    (∃ (s : State) (h : Nat), hubUp s h = true ∧ hubUp s (1 - h) = true ∧ hubRoute s h = true) ∧
    (∃ (s : State) (h : Nat) (b : Hub), hubUp s h = true ∧ getHub s h = b ∧ b.flitAt + 250000 ≤ now s ∧ b.wireLost = false) ∧
    (∃ (s : State) (h : Nat) (b : Hub), hubUp s h = true ∧ getHub s h = b ∧ b.wireAt + 250000 ≤ now s ∧ b.flitLost = true ∧ b.contact =
     true) ∧
    (∃ (b : Hub), b.contact = false ∧ b.lead ≠ .out ∧ 200 ≤ b.beats) ∧
    (∃ (b : Hub), b.contact = false ∧ b.lead ≠ .out ∧ 200 ≤ b.beats ∧ b.lead = .demoted) ∧
    (∃ (s : State) (h : Nat), hubUp s h = true) ∧
    (∃ (s : State) (i : Nat), i < 46 ∧ getRail s i = .softStart) ∧
    (∃ (s : State) (i : Nat), i < 46 ∧ (getRail s i = .softStart ∨ getRail s i = .on)) :=
  ⟨⟨wHub, 1, by decide +kernel⟩,
   ⟨{ wHub with clock := { timeA := 250000, timeB := 250000 } }, 1, _, by decide +kernel, rfl, by decide +kernel⟩,
   ⟨{ wHub with clock := { timeA := 250000, timeB := 250000 }, hubB := { lead := .follower, pg := true, flitLost := true } }, 1, _,
     by decide +kernel, rfl, by decide +kernel⟩,
   ⟨{ contact := false, beats := 200 }, by decide +kernel⟩,
   ⟨{ contact := false, beats := 200, lead := .demoted }, by decide +kernel⟩,
   ⟨wHub, 1, by decide +kernel⟩,
   ⟨{ wR with rails := [(45, .softStart)] }, 45, by decide +kernel⟩,
   ⟨{ wR with rails := [(45, .softStart)] }, 45, by decide +kernel⟩⟩

theorem witness_ThermalCommandsRun :
    (∃ (s : State) (sub : Submission), Takes spThermal (fun _ => true) sub s ∧ checkCmd spThermal false sub (thermalFields sub.entry)
     true s = none ∧ (ent sub.entry 79 72 ≤ s.thermal.inletMax ∨ lowersBusy s (capStep s.power.capW) (inletLevel (ent sub.entry 79
     72)) = false)) ∧
    (∃ (s : State) (sub : Submission), Takes spThermal (fun _ => true) sub s ∧ checkCmd spThermal false sub (thermalFields sub.entry)
     true s = none ∧ s.thermal.inletMax < ent sub.entry 79 72 ∧ lowersBusy s (capStep s.power.capW) (inletLevel (ent sub.entry 79
     72)) = true) ∧
    (∃ (s : State) (sub : Submission) (w : Nat), ent sub.entry 79 64 = w ∧ checkCmd spPower false sub (capOk w) true s = none ∧ Takes
     spPower (fun e => !entFlag e) sub s ∧ (s.power.capW ≤ w ∨ lowersBusy s (capStep w) (inletLevel s.thermal.inletMax) = false)) ∧
    (∃ (s : State) (sub : Submission) (w : Nat), ent sub.entry 79 64 = w ∧ checkCmd spPower false sub (capOk w) true s = none ∧ Takes
     spPower (fun e => !entFlag e) sub s ∧ w < s.power.capW ∧ lowersBusy s (capStep w) (inletLevel s.thermal.inletMax) = true) ∧
    (∃ (s : State) (sub : Submission) (w : Nat), ent sub.entry 79 64 = w ∧ checkCmd spPower false sub (capOk w) true s = none ∧ Takes
     spPower entFlag sub s ∧ s.power.capW ≤ w) ∧
    (∃ (s : State) (sub : Submission) (w : Nat), ent sub.entry 79 64 = w ∧ checkCmd spPower false sub (capOk w) true s = none ∧ Takes
     spPower entFlag sub s ∧ w < s.power.capW) ∧
    (∃ (s t : State) (rs : List (List Int)), readingsOk rs = true ∧ powered s = true ∧ { s with thermal := { s.thermal with dies := (rs.zipIdx).foldl (fun m q => SMap.set {} m q.2 (sampleDie q.2 q.1 (SMap.get {} s.thermal.dies q.2))) s.thermal.dies } }
     = t ∧ (rs.zipIdx).any (fun q => q.1.any (fun x => decide (tripAt q.2 ≤ x))) = true) ∧
    (∃ (s t : State) (rs : List (List Int)), readingsOk rs = true ∧ powered s = true ∧ { s with thermal := { s.thermal with dies := (rs.zipIdx).foldl (fun m q => SMap.set {} m q.2 (sampleDie q.2 q.1 (SMap.get {} s.thermal.dies q.2))) s.thermal.dies } }
     = t ∧ (rs.zipIdx).any (fun q => q.1.any (fun x => decide (tripAt q.2 ≤ x))) = false) ∧
    (∃ (s : State) (n : Nat) (d : ThmDie), n < 22 ∧ SMap.get {} s.thermal.dies n = d ∧ d.action = false ∧ d.budget < 100) ∧
    (∃ (s : State) (ds ts : List (Option Int)), ds.length = 4 ∧ ts.length = 2 ∧ powered s = true) ∧
    (∃ (s : State) (w : Nat) (l : List Nat), powered s = true ∧ (w :: s.power.samples).take 100 = l) ∧
    (∃ (s : State) (fl : List (Nat × Nat)) (plan : List (Nat × Nat)), s.fw.stage = 8 ∧ fl.all (floorOk s) = true ∧ fl.foldl (fun m f =>
     SMap.set (islandTarget (f.1 % 50)) m f.1 f.2) s.power.floors = plan) :=
  ⟨⟨ak (sb [(0, 0x70), (72, 40), (80, 30), (88, 60), (96, 30), (104, 60), (112, 30), (120, 60), (128, 3435), (144, 3435), (160,
     1008), (176, 1008), (192, 1008), (208, 1008)]) wR, sb [(0, 0x70), (72, 40), (80, 30), (88, 60), (96, 30), (104, 60), (112,
     30), (120, 60), (128, 3435), (144, 3435), (160, 1008), (176, 1008), (192, 1008), (208, 1008)], ⟨by decide +kernel,
     by decide +kernel⟩, by decide +kernel⟩,
   ⟨ak (sb [(0, 0x70), (72, 40), (80, 30), (88, 60), (96, 30), (104, 60), (112, 30), (120, 60), (128, 3435), (144, 3435), (160,
     1008), (176, 1008), (192, 1008), (208, 1008)]) { wBusy with thermal := { inletMax := 15 }, power := { floors := [((4 * capStep 4800 + inletLevel 40) * 50, 100)] } },
     sb [(0, 0x70), (72, 40), (80, 30), (88, 60), (96, 30), (104, 60), (112, 30), (120, 60), (128, 3435), (144, 3435), (160,
     1008), (176, 1008), (192, 1008), (208, 1008)], ⟨by decide +kernel, by decide +kernel⟩, by decide +kernel⟩,
   ⟨ak (sb [(0, 0x71), (64, 1500)]) wR, sb [(0, 0x71), (64, 1500)], 1500, by decide +kernel, by decide +kernel, ⟨by decide +kernel,
     by decide +kernel⟩, by decide +kernel⟩,
   ⟨ak (sb [(0, 0x71), (64, 1500)]) { wBusy with power := { floors := [((4 * capStep 1500 + inletLevel 40) * 50, 100)] } }, sb [(0,
     0x71), (64, 1500)], 1500, by decide +kernel, by decide +kernel, ⟨by decide +kernel, by decide +kernel⟩,
     by decide +kernel⟩,
   ⟨ak (sb [(0, 0x71), (8, 1), (64, 4800)]) wR, sb [(0, 0x71), (8, 1), (64, 4800)], 4800, by decide +kernel, by decide +kernel,
     ⟨by decide +kernel, by decide +kernel⟩, by decide +kernel⟩,
   ⟨ak (sb [(0, 0x71), (8, 1), (64, 1500)]) wR, sb [(0, 0x71), (8, 1), (64, 1500)], 1500, by decide +kernel, by decide +kernel,
     ⟨by decide +kernel, by decide +kernel⟩, by decide +kernel⟩,
   ⟨wR, _, wRead 0, by decide +kernel, by decide +kernel, rfl, by decide +kernel⟩,
   ⟨wR, _, wRead 214, by decide +kernel, by decide +kernel, rfl, by decide +kernel⟩,
   ⟨{ wR with thermal := { dies := [(21, { budget := 90 })] } }, 21, { budget := 90 }, by decide +kernel⟩,
   ⟨wR, [none, none, none, none], [none, none], by decide +kernel⟩,
   ⟨wR, 5000, [5000], by decide +kernel⟩,
   ⟨wR, [(49, 0)], _, by decide +kernel, by decide +kernel, rfl⟩⟩

/-- An OWNED part inside the fuse window whose DEBUG_UNLOCK sequence has come to a step. -/
def wUs (phase : Nat) (good : Bool) (lead : LeadState) : State :=
  { wR with sec := { owners := [0], unlock := some (wUnlock phase good) }, thermal := wWarm, hubA := { lead := lead, pg := true } }

theorem witness_SecurityCommandsRun :
    (∃ (s : State) (sub : Submission), Takes spLifecycle (fun e => lcMode e = 0) sub s ∧ checkCmd spLifecycle false sub (ent sub.entry
     191 128 = 0) true s = none) ∧
    (∃ (s : State) (sub : Submission), checkCmd spLifecycle false sub true true s = none ∧ s.sec.words = [] ∧ fuseWindow s = true ∧
     Takes spLifecycle (fun e => lcMode e = 1) sub s ∧ lifecycle s = 0) ∧
    (∃ (s : State) (sub : Submission), Takes spDebug (fun _ => true) sub s ∧ checkCmd spDebug false sub true true s = none ∧ lifecycle s ≠ 1) ∧
    (∃ (s : State) (sub : Submission), Takes spDebug (fun _ => true) sub s ∧ checkCmd spDebug false sub true true s = none ∧
     lifecycle s = 1 ∧ fuseWindow s = false) ∧
    (∃ (s : State) (sub : Submission), Takes spDebug (fun _ => true) sub s ∧ checkCmd spDebug false sub true true s = none ∧
     lifecycle s = 1 ∧ fuseWindow s = true) ∧
    (∃ (s : State) (sub : Submission) (u : Unlock), unlockOf sub s = some u ∧ u.phase = 0 ∧ u.good = false) ∧
    (∃ (s : State) (sub : Submission) (u : Unlock), unlockOf sub s = some u ∧ u.phase = 0 ∧ u.good = true ∧ unlockOrphan u s = false ∧
     fuseWindow s = true) ∧
    (∀ k, k < 3 → ∃ (s : State) (sub : Submission) (u : Unlock), unlockOf sub s = some u ∧ u.phase = k + 1) ∧
    (∃ (s : State) (sub : Submission) (u : Unlock), unlockOf sub s = some u ∧ u.phase = 4 ∧ unlockOrphan u s = false) ∧
    (∃ (s : State) (sub : Submission) (u : Unlock), unlockOf sub s = some u ∧ u.phase = 5 ∧ unlockOrphan u s = false ∧
     s.fw.defer.any (fun d => d.kind = .log 4) = false) ∧
    (∃ (s : State) (sub : Submission) (u : Unlock), unlockOf sub s = some u ∧ 4 ≤ u.phase ∧ unlockOrphan u s = true) ∧
    (∃ (s : State) (w : Nat × BitVec 384), s.sec.words.find? (fun w => !wordQueued s w.1) = some w ∧ fuseWindow s = true) ∧
    (∃ (s : State), 2 ^ 20 ≤ s.sec.drbgReq) ∧
    (∃ (s : State) (d : Deferred), s.fw.defer.find? (replayable s) = some d) :=
  ⟨⟨ak (sb [(0, 0x92)]) wR, sb [(0, 0x92)], ⟨by decide +kernel, by decide +kernel⟩, by decide +kernel⟩,
   ⟨ak (sb [(0, 0x92), (64, 1)]) { wR with thermal := wWarm }, sb [(0, 0x92), (64, 1)], by decide +kernel, by decide +kernel,
     by decide +kernel, ⟨by decide +kernel, by decide +kernel⟩, by decide +kernel⟩,
   ⟨ak (sb [(0, 0x91)]) wR, sb [(0, 0x91)], ⟨by decide +kernel, by decide +kernel⟩, by decide +kernel⟩,
   ⟨ak (sb [(0, 0x91)]) { wR with sec := { owners := [0] } }, sb [(0, 0x91)], ⟨by decide +kernel, by decide +kernel⟩, by decide +kernel⟩,
   ⟨ak (sb [(0, 0x91)]) { wR with sec := { owners := [0] }, thermal := wWarm }, sb [(0, 0x91)], ⟨by decide +kernel, by decide +kernel⟩,
     by decide +kernel⟩,
   ⟨wUs 0 false .lead, sb [(0, 0x91)], wUnlock 0 false, by decide +kernel⟩,
   ⟨wUs 0 true .lead, sb [(0, 0x91)], wUnlock 0 true, by decide +kernel⟩,
   fun
    | 0, _ => ⟨wUs 1 true .lead, sb [(0, 0x91)], wUnlock 1 true, by decide +kernel⟩
    | 1, _ => ⟨wUs 2 true .lead, sb [(0, 0x91)], wUnlock 2 true, by decide +kernel⟩
    | 2, _ => ⟨wUs 3 true .lead, sb [(0, 0x91)], wUnlock 3 true, by decide +kernel⟩,
   ⟨wUs 4 true .lead, sb [(0, 0x91)], wUnlock 4 true, by decide +kernel⟩,
   ⟨wUs 5 true .lead, sb [(0, 0x91)], wUnlock 5 true, by decide +kernel⟩,
   ⟨wUs 5 true .out, sb [(0, 0x91)], wUnlock 5 true, by decide +kernel⟩,
   ⟨{ wR with sec := { words := [(1, 0)] }, thermal := wWarm }, (1, 0), by decide +kernel⟩,
   ⟨{ wR with sec := { drbgReq := 2 ^ 20 } }, by decide +kernel⟩,
   ⟨{ wR with fw := { stage := 8, defer := [⟨0, .failedBank 1, 0⟩] }, thermal := { steady := [(0, some 0)] }, clock := { timeA := 1000000000, timeB := 1000000000 } },
     ⟨0, .failedBank 1, 0⟩, by decide +kernel⟩⟩

theorem witness_SuppliesAndResetsRun :
    (∃ (s : State), s.pins.vaux3 = false) ∧
    (∃ (s : State), s.pins.vaux3 = true) ∧
    (∃ (s : State), s.pins.pwrGood = true ∧ s.pins.vaux3 = true ∧ s.pins.supply = false) ∧
    (∃ (s : State), s.pins.pwrGood = false ∧ s.pins.resetN = false) ∧
    (∃ (s : State), s.pins.pwrGood = true) ∧
    (∃ (s : State), s.pins.resetN = false) ∧
    (∃ (s : State), s.pins.resetN = true) :=
  ⟨⟨{ State.reset with pins := { vaux3 := false } }, by decide +kernel⟩,
   ⟨wR, by decide +kernel⟩,
   ⟨wR, by decide +kernel⟩,
   ⟨{ State.reset with pins := { pwrGood := false } }, by decide +kernel⟩,
   ⟨State.reset, by decide +kernel⟩,
   ⟨wR, by decide +kernel⟩,
   ⟨{ State.reset with pins := { resetN := true } }, by decide +kernel⟩⟩

theorem witness_BootRuns :
    (∃ (s : State), powered s = true ∧ s.fw.t0 ≤ now s ∧ s.fw.stage = 0) ∧
    (∃ (s : State), powered s = true ∧ s.fw.t0 ≤ now s ∧ s.fw.stage = 1) ∧
    (∃ (s : State), powered s = true ∧ s.fw.t0 ≤ now s ∧ s.fw.stage = 2 ∧ railsSettled s = true) ∧
    (∃ (s : State), powered s = true ∧ s.fw.t0 ≤ now s ∧ s.fw.stage = 3) ∧
    (∃ (s : State), powered s = true ∧ s.fw.t0 ≤ now s ∧ s.fw.stage = 4 ∧ bankValid s s.fw.bank = true) ∧
    (∃ (s : State), powered s = true ∧ s.fw.t0 ≤ now s ∧ s.fw.stage = 5) ∧
    (∃ (s : State), powered s = true ∧ s.fw.t0 ≤ now s ∧ s.fw.stage = 6) ∧
    (∃ (s : State), powered s = true ∧ s.fw.t0 ≤ now s ∧ s.fw.stage = 7) ∧
    (∃ (s : State), railsSettled s = false) ∧
    (∃ (s t : State) (g i : Nat), railsSettled s = true ∧ s.fw.railGroups = g ∧ bootRails s = t ∧ i ∈ railGroup g ∧ getRail s i = .off) ∧
    (∃ (s : State), portFenced s 0 = false) ∧
    (∃ (s t : State) (b : Nat), powered s = true ∧ s.fw.t0 + 1500000000 ≤ now s ∧ 1 ≤ s.fw.stage ∧ s.fw.stage < 8 ∧ s.fw.fallback =
     false ∧ s.fw.bank = b ∧ recordBoth (.failedBank b) s = t ∧ bankValid t (1 - b) = true) ∧
    (∃ (s t : State) (b : Nat), powered s = true ∧ s.fw.t0 + 1500000000 ≤ now s ∧ 1 ≤ s.fw.stage ∧ s.fw.stage < 8 ∧ s.fw.fallback =
     false ∧ s.fw.bank = b ∧ recordBoth (.failedBank b) s = t ∧ bankValid t (1 - b) = false) :=
  ⟨⟨{ State.reset with fw := { stage := 0 }, clock := { timeA := 2000000000, timeB := 2000000000 } }, by decide +kernel⟩,
   ⟨{ State.reset with fw := { stage := 1 }, clock := { timeA := 2000000000, timeB := 2000000000 } }, by decide +kernel⟩,
   ⟨{ State.reset with fw := { stage := 2 }, clock := { timeA := 2000000000, timeB := 2000000000 } }, by decide +kernel⟩,
   ⟨{ State.reset with fw := { stage := 3 }, clock := { timeA := 2000000000, timeB := 2000000000 } }, by decide +kernel⟩,
   ⟨{ State.reset with fw := { stage := 4 }, clock := { timeA := 2000000000, timeB := 2000000000 } }, by decide +kernel⟩,
   ⟨{ State.reset with fw := { stage := 5 }, clock := { timeA := 2000000000, timeB := 2000000000 } }, by decide +kernel⟩,
   ⟨{ State.reset with fw := { stage := 6 }, clock := { timeA := 2000000000, timeB := 2000000000 } }, by decide +kernel⟩,
   ⟨{ State.reset with fw := { stage := 7 }, clock := { timeA := 2000000000, timeB := 2000000000 } }, by decide +kernel⟩,
   ⟨{ State.reset with rails := [(45, .softStart)] }, by decide +kernel⟩,
   ⟨{ State.reset with fw := { railGroups := 2 } }, _, 2, 39, by decide +kernel, rfl, rfl, by decide +kernel⟩,
   ⟨State.reset, by decide +kernel⟩,
   ⟨{ State.reset with fw := { stage := 7 }, clock := { timeA := 2000000000, timeB := 2000000000 } }, _, 0, by decide +kernel,
     by decide +kernel, by decide +kernel, by decide +kernel, by decide +kernel, by decide +kernel, rfl, by decide +kernel⟩,
   ⟨{ State.reset with fw := { stage := 7, bankB := { good := false } }, clock := { timeA := 2000000000, timeB := 2000000000 } }, _,
     0, by decide +kernel, by decide +kernel, by decide +kernel, by decide +kernel, by decide +kernel, by decide +kernel, rfl,
     by decide +kernel⟩⟩

theorem witness_FirmwareUpdateRuns :
    (∃ (s : State), s.pins.vaux3 = true ∧ s.fw.pldm = .idle) ∧
    (∃ (s : State), s.pins.vaux3 = true ∧ s.fw.pldm ≠ .idle) ∧
    (∃ (s : State), s.pins.vaux3 = true ∧ s.fw.pldm = .learn) ∧
    (∃ (s : State) (size : _), s.pins.vaux3 = true ∧ s.fw.pldm = .ready ∧ 1 ≤ size ∧ size ≤ 2 ^ 24) ∧
    (∃ (s : State), s.pins.vaux3 = true ∧ s.fw.pldm = .download) ∧
    (∃ (s : State), s.pins.vaux3 = true ∧ s.fw.pldm = .download ∧ s.fw.imageLen ≤ s.fw.image.length) ∧
    (∃ (s : State), s.pins.vaux3 = true ∧ s.fw.pldm = .verify ∧ bankValid s (1 - s.fw.bank) = true) ∧
    (∃ (s : State), s.pins.vaux3 = true ∧ s.fw.pldm = .verify ∧ bankValid s (1 - s.fw.bank) = false) ∧
    (∃ (s : State), s.pins.vaux3 = true ∧ s.fw.pldm = .apply) ∧
    (∃ (s : State), s.pins.vaux3 = true ∧ s.fw.pldm = .ready ∧ s.fw.verified = true) ∧
    (∃ (s : State), s.pins.vaux3 = true ∧ s.fw.pldm = .ready ∧ s.fw.verified = false) ∧
    (∃ (s : State), s.pins.vaux3 = true ∧ (s.fw.pldm = .download ∨ s.fw.pldm = .verify ∨ s.fw.pldm = .apply)) ∧
    (∃ (s : State), s.pins.vaux3 = true) ∧
    (∃ (s : State) (c : Instr), s.pins.vaux3 = true ∧ s.fw.pldm = .idle ∧ c ∈ ([.passComponentTable, .updateComponent 1,
     .requestFirmwareData [], .transferComplete, .verifyComplete, .applyComplete, .activateFirmware, .cancelUpdateComponent,
     .cancelUpdate] : List Instr)) :=
  ⟨⟨{ State.reset with fw := { pldm := .idle } }, by decide +kernel⟩,
   ⟨{ State.reset with fw := { pldm := .ready } }, by decide +kernel⟩,
   ⟨{ State.reset with fw := { pldm := .learn } }, by decide +kernel⟩,
   ⟨{ State.reset with fw := { pldm := .ready } }, 2 ^ 24, by decide +kernel⟩,
   ⟨{ State.reset with fw := { pldm := .download } }, by decide +kernel⟩,
   ⟨{ State.reset with fw := { pldm := .download, image := [1], imageLen := 1 } }, by decide +kernel⟩,
   ⟨{ State.reset with fw := { pldm := .verify } }, by decide +kernel⟩,
   ⟨{ State.reset with fw := { pldm := .verify, bankB := { good := false } } }, by decide +kernel⟩,
   ⟨{ State.reset with fw := { pldm := .apply } }, by decide +kernel⟩,
   ⟨{ State.reset with fw := { pldm := .ready, verified := true } }, by decide +kernel⟩,
   ⟨{ State.reset with fw := { pldm := .ready } }, by decide +kernel⟩,
   ⟨{ State.reset with fw := { pldm := .apply } }, by decide +kernel⟩,
   ⟨{ State.reset with fw := { pldm := .idle } }, by decide +kernel⟩,
   ⟨{ State.reset with fw := { pldm := .idle } }, .cancelUpdate, by decide +kernel⟩⟩

theorem witness_SpdmResponderRuns :
    (∃ (s : State), 5 ≤ s.fw.stage) ∧
    (∃ (s : State), 5 ≤ s.fw.stage ∧ 1 ≤ s.sec.spdm) ∧
    (∃ (s : State) (algs : BitVec 32), 5 ≤ s.fw.stage ∧ lifecycle s ≠ 2 ∧ 2 ≤ s.sec.spdm ∧ algs.extractLsb' 0 4 = 0xF#4) ∧
    (∃ (s : State), 5 ≤ s.fw.stage ∧ lifecycle s ≠ 2 ∧ 3 ≤ s.sec.spdm) ∧
    (∃ (s : State), 5 ≤ s.fw.stage ∧ lifecycle s ≠ 2 ∧ 3 ≤ s.sec.spdm) ∧
    (∃ (s : State), 5 ≤ s.fw.stage ∧ lifecycle s ≠ 2 ∧ 3 ≤ s.sec.spdm) ∧
    (∃ (s : State) (k : _), 5 ≤ s.fw.stage ∧ lifecycle s ≠ 2 ∧ 3 ≤ s.sec.spdm ∧ 1 ≤ k ∧ k ≤ 6) ∧
    (∃ (s : State), 5 ≤ s.fw.stage ∧ lifecycle s ≠ 2 ∧ 3 ≤ s.sec.spdm ∧ s.sec.sessions.length < 8) ∧
    (∃ (s : State), 5 ≤ s.fw.stage ∧ lifecycle s ≠ 2 ∧ 3 ≤ s.sec.spdm ∧ 8 ≤ s.sec.sessions.length) ∧
    (∃ (s : State) (x : _), 5 ≤ s.fw.stage ∧ lifecycle s ≠ 2 ∧ 3 ≤ s.sec.spdm ∧ x ∈ s.sec.sessions ∧ x.st = 0) ∧
    (∃ (s : State) (x : _), 5 ≤ s.fw.stage ∧ lifecycle s ≠ 2 ∧ 3 ≤ s.sec.spdm ∧ x ∈ s.sec.sessions ∧ x.st = 1) ∧
    (∃ (s : State) (c : Instr), 5 ≤ s.fw.stage ∧ lifecycle s = 2 ∧ c ∈ ([.negotiateAlgorithms 0xF, .getDigests, .getCertificate 0 0 1,
     .challenge 0, .getMeasurements 1 0, .keyExchange 0, .finish 0, .heartbeat 0, .keyUpdate 0, .endSession 0] : List Instr)) :=
  ⟨⟨{ wR with sec := { spdm := 0 } }, by decide +kernel⟩,
   ⟨{ wR with sec := { spdm := 1 } }, by decide +kernel⟩,
   ⟨{ wR with sec := { spdm := 2 } }, 0xFFFFFFFF, by decide +kernel⟩,
   ⟨{ wR with sec := { spdm := 3 } }, by decide +kernel⟩,
   ⟨{ wR with sec := { spdm := 3 } }, by decide +kernel⟩,
   ⟨{ wR with sec := { spdm := 3 } }, by decide +kernel⟩,
   ⟨{ wR with sec := { spdm := 3 } }, 6, by decide +kernel⟩,
   ⟨{ wR with sec := { spdm := 3, sessions := List.replicate 7 ⟨0, 0, 0⟩ } }, by decide +kernel⟩,
   ⟨{ wR with sec := { spdm := 3, sessions := List.replicate 8 ⟨0, 0, 0⟩ } }, by decide +kernel⟩,
   ⟨{ wR with sec := { spdm := 3, sessions := [⟨5, 0, 0⟩] } }, ⟨5, 0, 0⟩, by decide +kernel⟩,
   ⟨{ wR with sec := { spdm := 3, sessions := [⟨5, 1, 0⟩] } }, ⟨5, 1, 0⟩, by decide +kernel⟩,
   ⟨{ wR with sec := { spdm := 3, owners := [0], debugOpen := true } }, .endSession 0, by decide +kernel⟩⟩

theorem witness_ManagementBusRuns :
    (∃ (s : State), s.pins.vaux3 = true ∧ s.mgmt.dyn = none) ∧
    (∃ (s : State) (a : Nat), s.pins.vaux3 = true ∧ s.mgmt.dyn = some a) ∧
    (∃ (s : State) (c : Instr), s.pins.vaux3 = true ∧ s.mgmt.dyn = none ∧ c ∈ ([.enec 1, .disec 1, .getpid, .getbcr, .getdcr,
     .getstatus, .setmwl 8, .getmwl, .setmrl 8, .getmrl] : List Instr)) ∧
    (∃ (s : State), s.pins.vaux3 = true) ∧
    (∃ (s : State) (i : _), s.pins.vaux3 = true ∧ i < 22) ∧
    (∃ (s : State) (i : _), s.pins.vaux3 = true ∧ 22 ≤ i) :=
  ⟨⟨State.reset, by decide +kernel⟩,
   ⟨{ State.reset with mgmt := { dyn := some 127 } }, 127, by decide +kernel⟩,
   ⟨State.reset, .getmrl, by decide +kernel⟩,
   ⟨State.reset, by decide +kernel⟩,
   ⟨State.reset, 21, by decide +kernel⟩,
   ⟨State.reset, 22, by decide +kernel⟩⟩

theorem witness_JtagCommandsRun :
    (∃ (s : State) (ir : Nat → State), s.pins.vaux3 = true ∧ (∀ k, ir k = { s with jtag := { s.jtag with ir := k } })) ∧
    (∃ (s : State) (ir : Nat → State), s.pins.vaux3 = true ∧ (∀ k, ir k = { s with jtag := { s.jtag with ir := k } }) ∧ s.pins.resetN =
     true) ∧
    (∃ (s : State) (ir : Nat → State), s.pins.vaux3 = true ∧ (∀ k, ir k = { s with jtag := { s.jtag with ir := k } }) ∧ s.pins.resetN =
     false) ∧
    (∃ (s : State) (ir : Nat → State), s.pins.vaux3 = true ∧ (∀ k, ir k = { s with jtag := { s.jtag with ir := k } })) ∧
    (∃ (s : State) (ir : Nat → State), s.pins.vaux3 = true ∧ (∀ k, ir k = { s with jtag := { s.jtag with ir := k } }) ∧ lifecycle s ≠ 2) ∧
    (∃ (s : State) (ir : Nat → State), s.pins.vaux3 = true ∧ (∀ k, ir k = { s with jtag := { s.jtag with ir := k } }) ∧ lifecycle s = 2) ∧
    (∃ (s : State) (ir : Nat → State) (k : _), s.pins.vaux3 = true ∧ (∀ k, ir k = { s with jtag := { s.jtag with ir := k } }) ∧
     s.pins.resetN = false ∧ k < 256) :=
  ⟨⟨State.reset, fun k => { State.reset with jtag := { State.reset.jtag with ir := k } }, by decide +kernel, fun _ => rfl⟩,
   ⟨{ State.reset with pins := { resetN := true } }, fun k => { { State.reset with pins := { resetN := true } } with jtag := { ({ State.reset with pins := { resetN := true } }).jtag with ir := k } },
     by decide +kernel, fun _ => rfl, by decide +kernel⟩,
   ⟨State.reset, fun k => { State.reset with jtag := { State.reset.jtag with ir := k } }, by decide +kernel, fun _ => rfl,
     by decide +kernel⟩,
   ⟨State.reset, fun k => { State.reset with jtag := { State.reset.jtag with ir := k } }, by decide +kernel, fun _ => rfl⟩,
   ⟨State.reset, fun k => { State.reset with jtag := { State.reset.jtag with ir := k } }, by decide +kernel, fun _ => rfl,
     by decide +kernel⟩,
   ⟨{ State.reset with sec := { owners := [0], debugOpen := true } }, _, by decide +kernel, fun _ => rfl, by decide +kernel⟩,
   ⟨State.reset, fun k => { State.reset with jtag := { State.reset.jtag with ir := k } }, 255, by decide +kernel, fun _ => rfl,
     by decide +kernel⟩⟩

theorem witness_TimeCommandsRun :
    (∃ (s : State) (sub : Submission), Takes spTimeSet (fun _ => true) sub s ∧ checkCmd spTimeSet false sub (timeFields sub.entry) true
     s = none) ∧
    (∃ (s : State) (sub : Submission), Takes spTimeGet (fun _ => true) sub s ∧ checkCmd spTimeGet false sub true true s = none) :=
  ⟨⟨ak (sb [(0, 0x03), (64, 2399), (80, 12), (84, 31), (89, 23), (94, 59), (100, 59), (112, 999999999)]) wR, sb [(0, 0x03), (64,
     2399), (80, 12), (84, 31), (89, 23), (94, 59), (100, 59), (112, 999999999)], ⟨by decide +kernel, by decide +kernel⟩, by decide +kernel⟩,
   ⟨ak (sb [(0, 0x04)]) wR, sb [(0, 0x04)], ⟨by decide +kernel, by decide +kernel⟩, by decide +kernel⟩⟩

theorem witness_FrameEdgesRun :
    (∃ (s : State) (c : Clock) (w : Nat), s.clock = c ∧ halfWindow s = w ∧ c.running = true ∧ c.judged = false ∧ c.bj + w ≤ now s ∧
     bestRef { c with ref0 := judgeRef ((edgesIn w c.bj c.ref0.edges).length = 1) c.ref0, ref1 := judgeRef ((edgesIn w c.bj c.ref1.edges).length = 1) c.ref1 }
     = c.active) ∧
    (∃ (s : State), s.clock.running = true ∧ s.clock.judged = true ∧ s.clock.next ≤ now s ∧ s.clock.devPend = none) ∧
    (∃ (s : State), s.clock.stepOut = true ∧ s.clock.bj + 1000 ≤ now s) ∧
    (∃ (s : State) (l : Bool), s.clock.level ≠ l ∧ s.clock.levelAt + 1000 ≤ now s ∧ l = edgeLevel s.clock ∧ s.clock.ignore = false ∧
     s.clock.useSync = true ∧ s.clock.jumpPend = false) ∧
    (∃ (s : State), s.clock.level = edgeLevel s.clock ∧ s.clock.levelAt + 4 * s.clock.f < now s ∧ s.clock.ref0.state = .unqualified ∧
     s.clock.active = 2 ∧ s.clock.ref1.state = .disabled) ∧
    (∃ (s : State), s.clock.level ≠ edgeLevel s.clock ∧ s.clock.levelAt + 1000 ≤ now s ∧ s.clock.ref0.state = .stuck) :=
  ⟨⟨{ wR with clock := { timeA := 100000000, timeB := 100000000, running := true } }, _, _, rfl, rfl, by decide +kernel⟩,
   ⟨{ wR with clock := { timeA := 100000000, timeB := 100000000, running := true, judged := true, next := 100000000 } },
     by decide +kernel⟩,
   ⟨{ wR with clock := { timeA := 100000000, timeB := 100000000, stepOut := true } }, by decide +kernel⟩,
   ⟨{ wR with clock := { timeA := 100000000, timeB := 100000000, ignore := false } }, true, by decide +kernel⟩,
   ⟨{ wR with clock := { timeA := 100000000, timeB := 100000000, level := true } }, by decide +kernel⟩,
   ⟨{ wR with clock := { timeA := 100000000, timeB := 100000000, ref0 := { state := .stuck } } }, by decide +kernel⟩⟩

theorem witness_SyncCommandsRun :
    (∃ (s : State) (sub : Submission) (e : BitVec 512), sub.entry = e ∧ Takes spSync (fun e => syncMode e = 0 || syncMode e = 3) sub s
     ∧ checkCmd spSync false sub (syncMode e = 0 && noPodFields e && ent e 255 192 = 0 && 1000 ≤ ent e 99 80 && ent e 99 80 ≤
     1000000 && !entPodV e) true s = none ∧ isPF sub.mbx.fn = true ∧ deviceBlocked s (1000 * ent e 99 80) = false) ∧
    (∃ (s : State) (sub : Submission) (e : BitVec 512) (p : Nat), sub.entry = e ∧ Takes spSync (fun e => syncMode e = 1) sub s ∧
     checkCmd spSync false sub (syncPodFields s e && (entPodV e || !isPF sub.mbx.fn)) true s = none ∧ cmdPod sub = some
     p ∧ holdsStep s p = false) ∧
    (∃ (s : State) (sub : Submission) (e : BitVec 512), sub.entry = e ∧ Takes spSync (fun e => syncMode e = 2) sub s ∧ checkCmd spSync
     false sub (noPodFields e && noDeviceFields e && !entPodV e) true s = none ∧ isPF sub.mbx.fn = true ∧ s.clock.useHost = true ∧
     s.clock.bj ≤ ent e 255 192 + halfWindow s ∧ s.clock.judged = false) ∧
    (∃ (p : Nat), p < 4) :=
  ⟨⟨ak (sb [(0, 0x72), (80, 1000000)]) wR, sb [(0, 0x72), (80, 1000000)], (sb [(0, 0x72), (80, 1000000)]).entry, by decide +kernel,
     ⟨by decide +kernel, by decide +kernel⟩, by decide +kernel⟩,
   ⟨ak (sb [(0, 0x72), (36, 1), (64, 1), (69, 1), (104, 100)]) wB, sb [(0, 0x72), (36, 1), (64, 1), (69, 1), (104, 100)], (sb [(0,
     0x72), (36, 1), (64, 1), (69, 1), (104, 100)]).entry, 0, by decide +kernel, ⟨by decide +kernel, by decide +kernel⟩, by decide +kernel⟩,
   ⟨ak (sb [(0, 0x72), (64, 2), (192, 12345)]) { wR with clock := { useHost := true } }, sb [(0, 0x72), (64, 2), (192, 12345)], (sb
     [(0, 0x72), (64, 2), (192, 12345)]).entry, by decide +kernel, ⟨by decide +kernel, by decide +kernel⟩,
     by decide +kernel⟩,
   ⟨3, by decide +kernel⟩⟩


end Sys2Proof.Tests
end

section
/-! The writes of the CSR range: who reaches a register (R37, R346, R478), and what each writable register takes (O23). -/

namespace Sys2Proof.Machine

open Sys2Proof

/-! ### Who reaches the CSR range -/

/-- A write by a requester that reaches the register is made (R346). -/
theorem csrReach_writer {s : State} {req : Requester} {off len : Nat} (make : State → State) (h : csrWriter s req off len = true) :
    csrReach req off len s make = make s := by
  cases req with
  | control => rfl
  | fn f =>
    obtain ⟨halive, hcsr⟩ : fnAlive s f = true ∧ fnCsr s f off len true = true := by simpa [csrWriter] using h
    have hthere : fnThere s f = true := by simp_all [fnAlive]
    simp [csrReach, hthere, halive, hcsr]

/-- A write by a function that is there and does not reach the register is dropped and counted (R348). -/
theorem csrReach_refused {s : State} {f off len : Nat} (make : State → State) (hthere : fnThere s f = true)
    (h : csrWriter s (.fn f) off len = false) :
    csrReach (.fn f) off len s make =
      refuseWrite (fnPort f) (addrCsr + off) (Config.freeId s.freeIdx) false { s with freeIdx := s.freeIdx + 1 } := by
  have hreach : (fnAlive s f && fnCsr s f off len true) = false := h
  simp [csrReach, hthere, hreach, freeReqId]

theorem csrWriter_isOwner {s : State} {req : Requester} (off len : Nat) (h : isOwner s req = true) :
    csrWriter s req off len = true := by
  cases req with
  | control => rfl
  | fn f =>
    obtain ⟨⟨hpf, howner⟩, hport⟩ : (isPF f = true ∧ s.owner = some f) ∧ portFenced s (fnPort f) = false := by
      simpa [isOwner] using h
    have hf : f < 20 := Nat.lt_trans (of_decide_eq_true hpf) (by decide)
    simp [csrWriter, fnAlive, fnThere, fnCsr, hpf, howner, hport, hf]

theorem csrWriter_ownerOrControl {s : State} {req : Requester} (off len : Nat) (h : ownerOrControl s req = true) :
    csrWriter s req off len = true := by
  cases req with
  | control => rfl
  | fn f => exact csrWriter_isOwner off len (by simpa [ownerOrControl] using h)

/-- A VF of pod p reaches what its pod's `HUB_KV_LAND` and `HUB_LAND_CH` take (R346). -/
theorem csrWriter_isPodFn {s : State} {req : Requester} {p off len : Nat} (h : isPodFn s req p = true)
    (hreg : vfCsrWrite p off len = true) : csrWriter s req off len = true := by
  cases req with
  | control => rfl
  | fn f =>
    obtain ⟨halive, hpod⟩ : fnAlive s f = true ∧ boundPod s f = some p := by simpa [isPodFn] using h
    have hvf : isPF f = false := Bool.eq_false_iff.mpr (fun hpf => by
      have hlow : f < 4 := of_decide_eq_true hpf
      rw [boundPod, if_pos hlow] at hpod
      exact absurd hpod (Option.some_ne_none p).symm)
    simp [csrWriter, fnCsr, halive, hpod, hvf, hreg]

@[simp] theorem csrBase_kvLand (p : Nat) : csrBase .kvLand p = 0x300000 + 64 * p := rfl

@[simp] theorem csrBase_landCh (n : Nat) : csrBase .landCh n = 0x301000 + 32 * n := rfl

theorem vfCsrWrite_kvLand (p : Nat) : vfCsrWrite p (csrBase .kvLand p) 64 = true := by simp [vfCsrWrite]

/-- The LEN word of a landing channel lies among the 16 channels of its pod. -/
theorem vfCsrWrite_landLen (n : Nat) : vfCsrWrite (n / 16) (csrBase .landCh n + 8) 8 = true := by
  refine Bool.or_eq_true_iff.mpr (Or.inr (Bool.and_eq_true_iff.mpr ⟨decide_eq_true ?_, decide_eq_true ?_⟩)) <;>
    simp only [csrBase_landCh] <;> omega

/-- The writers of a landing channel reach its LEN word (R306). -/
theorem csrWriter_landWriter {s : State} {req : Requester} {n : Nat} (h : landWriter s req n = true) :
    n < 256 ∧ csrWriter s req (csrBase .landCh n + 8) 8 = true := by
  obtain ⟨hn, hwho⟩ : n < 256 ∧ (ownerOrControl s req = true ∨ isPodFn s req (n / 16) = true) := by simpa [landWriter] using h
  refine ⟨hn, ?_⟩
  rcases hwho with howner | hpod
  · exact csrWriter_ownerOrControl _ _ howner
  · exact csrWriter_isPodFn hpod (vfCsrWrite_landLen n)

/-! ### The LC slot cap (R28) -/

theorem exec_lcCapWrite {s : State} {req : Requester} {n : Nat} (v : BitVec 32) (hn : n < 37) (howner : isOwner s req = true) :
    exec (.lcCapWrite req n v) s =
      .next (if bits v.toNat 13 8 ≤ 48 then setLink n { getLink s n with capNext := bits v.toNat 13 8 } s else s) := by
  change Host.Outcome.next (if n < 37 then csrReach req (csrBase .lcCap n) 4 s (lcCapWrite req n v) else s) = _
  rw [if_pos hn, csrReach_writer _ (csrWriter_isOwner _ _ howner)]
  simp [lcCapWrite, hn, howner]

theorem getLink_restartWindow (n k : Nat) (up : Bool) (s : State) : getLink (restartWindow n up s) k = getLink s k := by
  unfold restartWindow
  split <;> rfl

/-- Restarting a window moves the arbitration alone. -/
theorem restartWindow_fabric (n : Nat) (up : Bool) (s : State) :
    restartWindow n up s = { s with fabric := (restartWindow n up s).fabric } := by
  unfold restartWindow
  split <;> rfl

/-- What the fabric alone decides stays so over a second change of the fabric. -/
theorem fabric_trans {s t u : State} (hst : t = { s with fabric := t.fabric }) (htu : u = { t with fabric := u.fabric }) :
    u = { s with fabric := u.fabric } := by
  rw [htu, hst]

theorem lcCapApply_boundary {s : State} {n : Nat} (hn : n < 37) (hjobs : s.insts = [])
    (hb : atBoundary s n true = true ∨ atBoundary s n false = true) :
    lcCapApply n s = restartWindow n true (restartWindow n false (applyCap n s)) := by
  have hb' : (atBoundary s n true || atBoundary s n false) = true := by simpa using hb
  simp [lcCapApply, noJobs, hn, hjobs, hb']

theorem exec_lcCapApply {s : State} {n : Nat} (hn : n < 37) (hjobs : s.insts = [])
    (hb : atBoundary s n true = true ∨ atBoundary s n false = true) :
    ∃ t, exec (.lcCapApply n) s = .next t ∧ (getLink t n).capActive = (getLink s n).capNext ∧
      (∀ k, k ≠ n → getLink t k = getLink s k) ∧ t = { s with fabric := t.fabric } := by
  refine ⟨lcCapApply n s, rfl, ?_⟩
  rw [lcCapApply_boundary hn hjobs hb]
  refine ⟨?_, fun k hk => ?_, ?_⟩
  · simp [getLink_restartWindow, applyCap]
  · simp [getLink_restartWindow, applyCap, getLink_setLink_other _ _ hk]
  · exact fabric_trans (fabric_trans rfl (restartWindow_fabric n false _)) (restartWindow_fabric n true _)

/-! ### Page-walk units, landings and landing channels (R202, R233, R306, R307) -/

theorem exec_pwuInvalidate_all {s : State} {req : Requester} {st : Nat} {v : BitVec 64} {u : Pwu} (hst : st < 16)
    (hwho : ownerOrControl s req = true) (hall : bit v.toNat 16 = true) (hu : SMap.get {} s.pwu st = u) :
    exec (.pwuInvalidate req st v) s =
      .next { s with pwu := SMap.set {} s.pwu st { u with lab := [], invals := satAdd 0xFFFF u.invals 1 } } := by
  change Host.Outcome.next (if st < 16 then csrReach req (csrBase .pwuInv st) 8 s
    (fun s => if ownerOrControl s req then pwuInvWrite st v.toNat s else s) else s) = _
  rw [if_pos hst, csrReach_writer _ (csrWriter_ownerOrControl _ _ hwho), if_pos hwho]
  have hnone : u.lab.filter (fun _ => false) = [] := List.filter_eq_nil_iff.mpr (fun _ _ => Bool.false_ne_true)
  rw [pwuInvWrite, if_pos hall, pwuInval, hu, hnone]

theorem exec_kvLandWrite {s : State} {req : Requester} {p : Nat} (v : BitVec 512) (hp : p < 16) (hpod : isPodFn s req p = true) :
    exec (.kvLandWrite req p v) s = .next (kvLand p v s) := by
  change Host.Outcome.next (if p < 16 then csrReach req (csrBase .kvLand p) 64 s
    (fun s => if isPodFn s req p then kvLand p v s else s) else s) = _
  rw [if_pos hp, csrReach_writer _ (csrWriter_isPodFn hpod (vfCsrWrite_kvLand p)), if_pos hpod]

/-- A landing for a stream that waits for none is dropped and counted (R233). -/
theorem kvLand_free {s : State} {p : Nat} {v : BitVec 512} (h : (getStream s (bits v.toNat 15 0)).state = .free) :
    kvLand p v s = { s with kvDropped := SMap.mod 0 s.kvDropped p (fun n => satAdd 0xFFFF n 1) } := by
  simp [kvLand, h]

/-- A landing that names an open inbound stream of the pod by its length and key makes it RESIDENT (R233). -/
theorem kvLand_resident {s : State} {p : Nat} {v : BitVec 512} {e : Stream} (hs : getStream s (bits v.toNat 15 0) = e)
    (hopen : e.state = .open_) (hin : e.inbound = true) (hready : e.inReady = true) (hpod : e.pod = p)
    (hlen : e.inLen = bits v.toNat 56 32) (hkey : e.inKey.toNat = bits v.toNat 95 64) :
    kvLand p v s =
      setStream (bits v.toNat 15 0) { e with state := .resident, inbound := false, wp := e.inLen, tail := tailIndex e.pt e.inLen } s := by
  simp only [kvLand, hs]
  rw [if_pos (by simp [hopen, hin, hready, hpod, hlen, hkey])]

theorem exec_landChArm {s : State} {req : Requester} {n : Nat} {len : BitVec 48} (hwho : landWriter s req n = true) (hlen : len ≠ 0) :
    exec (.landChArm req n len) s = .next (landLen n len.toNat s) := by
  obtain ⟨hn, hreach⟩ := csrWriter_landWriter hwho
  change Host.Outcome.next (if n < 256 && len ≠ 0 then csrReach req (csrBase .landCh n + 8) 8 s
    (fun s => if landWriter s req n then landLen n len.toNat s else s) else s) = _
  rw [if_pos (by simpa [hn] using hlen), csrReach_writer _ hreach, if_pos hwho]

theorem exec_landChDisarm {s : State} {req : Requester} {n : Nat} (hwho : landWriter s req n = true) :
    exec (.landChDisarm req n) s = .next (landLen n 0 s) := by
  obtain ⟨hn, hreach⟩ := csrWriter_landWriter hwho
  change Host.Outcome.next (if n < 256 then csrReach req (csrBase .landCh n + 8) 8 s
    (fun s => if landWriter s req n then landLen n 0 s else s) else s) = _
  rw [if_pos hn, csrReach_writer _ hreach, if_pos hwho]

/-- A range of whole granules that the pod reaches arms its channel (R307). -/
theorem landLen_armed {s : State} {n len : Nat} {c : LandCh} (hc : getLand s n = c) (hlen : len ≠ 0) (hbase : c.base % 64 = 0)
    (hgran : len % 64 = 0) (hwalk : reachWalk 4096 s (n / 16) c.base (c.base + len) = true) :
    landLen n len s = setLand n { c with len := len, count := 0, armed := true, armErr := false } s := by
  simp [landLen, hc, hlen, hbase, hgran, hwalk]

/-! ### Apertures and the correction buckets (R347, R361) -/

theorem exec_apertureWrite {s : State} {req : Requester} {n : Nat} (v : BitVec 128) (hn : n < 256) (hwho : ownerOrControl s req = true) :
    exec (.apertureWrite req n v) s = .next (aperWrite n v.toNat s) := by
  change Host.Outcome.next (if n < 256 then csrReach req (csrBase .aper n) 16 s
    (fun s => if ownerOrControl s req then aperWrite n v.toNat s else s) else s) = _
  rw [if_pos hn, csrReach_writer _ (csrWriter_ownerOrControl _ _ hwho), if_pos hwho]

theorem get_aperWrite (s : State) (n : Nat) {v : Nat} (hmode : bits v 1 0 ≠ 3) :
    SMap.get {} (aperWrite n v s).aper n =
      { mode := bits v 1 0, rdonly := bit v 2, region := bits v 15 8, len := bits v 55 32, base := bits v 111 76 * 4096 } := by
  simp [aperWrite, hmode]

theorem exec_eccCfgWrite {s : State} {req : Requester} (v : BitVec 64) (howner : isOwner s req = true) :
    exec (.eccCfgWrite req v) s = .next { s with eccWritten := eccCfgMerge s.eccWritten v.toNat } := by
  change Host.Outcome.next (csrReach req (csrBase .eccCfg 0) 8 s
    (fun s => if isOwner s req then { s with eccWritten := eccCfgMerge s.eccWritten v.toNat } else s)) = _
  rw [csrReach_writer _ (csrWriter_isOwner _ _ howner), if_pos howner]

/-! ### BAR0 (R311) -/

theorem mbxExists_lt {fn m : Nat} (h : mbxExists ⟨fn, m⟩ = true) : m < 4 := by
  simp only [mbxExists, Bool.or_eq_true, Bool.and_eq_true, decide_eq_true_eq] at h
  omega

/-- Word 0 of `MBX_RING[m]` in a function's BAR0 (R339). -/
theorem bar0Store_ring {fn m : Nat} (v : BitVec 32) (s : State) (h : mbxExists ⟨fn, m⟩ = true) :
    bar0Store fn (0x10000 + 0x100 * m) v s = ringStore ⟨fn, m⟩ 0 v s := by
  have hm := mbxExists_lt h
  have hidx : (0x10000 + 0x100 * m - 0x10000) / 0x100 = m := by omega
  have hword : (0x10000 + 0x100 * m - 0x10000) % 0x100 = 0 := by omega
  unfold bar0Store
  rw [if_neg (by omega), if_neg (by omega), if_pos ⟨by omega, by omega, by omega, by simpa only [hidx] using h⟩, hidx, hword]

/-- The low half of a disabled mailbox's SQ base (R311). -/
theorem ringStore_sqBaseLow {m : Mbx} (v : BitVec 32) {s : State} (h : (getMbx s m).enable = false) :
    ringStore m 0 v s = setMbx m { getMbx s m with sqBase := (getMbx s m).sqBase.extractLsb' 32 32 ++ v } s := by
  simp [ringStore, h, putHalf]

theorem exec_registerWrite_bar0 {s : State} {fn : Nat} (off : Nat) (v : BitVec 32) (h : fnAlive s fn = true) :
    exec (.registerWrite (.fn fn) .bar0 off v) s = .next (bar0Store fn off v s) := by
  change Host.Outcome.next (if fnAlive s fn then bar0Store fn off v s else s) = _
  rw [if_pos h]

/-- Settles O23: each writer reaches its register (`csrWriter_…`), and the register takes the write as its own rule says. -/
theorem registerWritesRun : Obligations.RegisterWritesRun := by
  refine ⟨?lcCapWrite, ?lcCapApply, ?pwuInvalidate, ?kvDropped, ?kvLanded, ?arm, ?disarm, ?aperture, ?eccCfg, ?ring, ?refused⟩
  case lcCapWrite =>
    intro s req n v hn howner
    rw [exec_lcCapWrite v hn howner]
    exact ⟨fun h => by rw [if_pos h], fun h => by rw [if_neg (by omega)]⟩
  case lcCapApply => exact fun s n hn hjobs hb => exec_lcCapApply hn hjobs hb
  case pwuInvalidate => exact fun s req st v u hst hwho hall hu => exec_pwuInvalidate_all hst hwho hall hu
  case kvDropped =>
    intro s req p v hp hpod hfree
    rw [exec_kvLandWrite v hp hpod, kvLand_free hfree]
  case kvLanded =>
    intro s req p v e hp hpod hs hopen hin hready he hlen hkey
    rw [exec_kvLandWrite v hp hpod, kvLand_resident hs hopen hin hready he hlen hkey]
  case arm =>
    intro s req n len c hwho hlen hc hbase hgran hwalk
    have hlen' : len.toNat ≠ 0 := fun h => hlen (BitVec.eq_of_toNat_eq h)
    rw [exec_landChArm hwho hlen, landLen_armed hc hlen' hbase hgran hwalk]
  case disarm => exact fun s req n hwho => exec_landChDisarm hwho
  case aperture =>
    intro s req n v hn hwho hmode
    exact ⟨aperWrite n v.toNat s, exec_apertureWrite v hn hwho, rfl, get_aperWrite s n hmode⟩
  case eccCfg => exact fun s req v howner => exec_eccCfgWrite v howner
  case ring =>
    intro s fn m v halive hmbx hoff
    rw [exec_registerWrite_bar0 _ v halive, bar0Store_ring v s hmbx, ringStore_sqBaseLow v hoff]
  case refused =>
    rintro s req off len f rfl hthere hreach make
    exact csrReach_refused make hthere hreach

end Sys2Proof.Machine
end

section
/-! The third unsuccessful retrain of a link (R30, R31, R476), and why it does not leave memory as it was (O25). -/

namespace Sys2Proof.Machine

open Sys2Proof

/-- The third unsuccessful try makes the link FAILED, which changes the set of failures (R30, R31). -/
theorem retrainDone_third {s : State} {n : Nat} (hn : n < 37) (hstate : (getLink s n).state = 1) (htries : (getLink s n).badTries = 2) :
    retrainDone n false s = routesChanged 0x03 n (setLink n { getLink s n with state := 2, badTries := 3 } s) := by
  simp [retrainDone, hstate, htries, Nat.not_le.mpr hn]

/-- The node of the one stranded flit that a node issued ends FAULTED (R476). -/
theorem routesChanged_strands {s : State} {r : NodeRef} (cause detail : Nat)
    (h : (stranded s).filterMap (fun f => f.desc.node) = [r]) :
    routesChanged cause detail s = faultNode r csFENCED (extendPlans (recordLate hasWork cause detail (reroute s))) := by
  simp [routesChanged, h]

/-! ### A COPY node whose flit is cut off

Stack 0 reaches the rest of the part by links 13 and 14. Link 14 is FAILED and link 13 is in its third retrain; a flit of a running COPY
node waits for link 13. The node's output is the first granule of slice 1, which holds a byte. -/

namespace CutOff

/-- The COPY node. -/
def ref : NodeRef := ⟨0, 7, 0⟩

/-- Its output: 64 bytes, the first granule of slice 1. -/
def output : TDesc :=
  { fmt := 3, rnd := 0, scaled := false, lc := false, space := 0, ndim := 1, seed := 0, base := addrSlice 1, shapes := 0,
    shapesV := false, ext := [64], stride := [1], origin := [0, 0, 0, 0, 0] }

/-- Its graph, of that node alone. -/
def graph : Graph :=
  { pod := 0, id := 1, step := false, peer := false, lcCap := 0, storeAt := 0, image := leBytes 128 0, bufs := [output], loaded := true,
    nodes := [{ kind := 3, cores := 1, peer := false, sprout := false, gang := 0, costCyc := 0, costSer := 1000,
                routes := [0, 0, 0, 0, 0], succ := [], bodyOff := 0, blkLen := 1, progOff := 0, outs := [0, 0xFFFF, 0xFFFF, 0xFFFF],
                qbase := 0, qlen := 0, chan := 0, sproutTd := 0, value := 0 }] }

/-- Its run, the node running and nothing copied yet. -/
def inst : Inst :=
  { pod := 0, num := 7, graph := 1, tok := ⟨⟨0, 0⟩, 0, 0, 0, 0⟩, promised := true, release := 0, deadline := 1000000000,
    step := none, peers := [], cancelled := false, late := none, floors := [], sources := 0,
    nodes := [{ st := .running, cause := 0, cores := [96], start := 0, fin := 1000, jpos := none, startedAt := 0, hwm := [0, 0, 0, 0],
                pmask := 0, work := false, units := 0, poison := false, hold := none, unacked := [], stop := none, waiting := false }] }

/-- What the node's flit carries, from stack 0 to HB-A. -/
def flitDesc : FlitDesc :=
  { src := .stack 0, dst := .hub 0, what := .other, pod := 0, core := 96, node := some ref, mask := 0, payload := 0 }

/-- The flit, which waits for link 13. -/
def flit : Flit :=
  { id := 0, desc := flitDesc, crc := flitCrc flitDesc, yields := false, route := [(13, false), (4, false)], fails := 0 }

/-- The part at that moment. -/
def part : State :=
  { State.reset with
    mem := [(addrSlice 1, 5)]
    pods := [(0, { state := .bound, vf := some 0, share := 1, quota := 16, cores := [0], slices := [0, 1], graphSlices := [0] })]
    graphs := [graph]
    insts := [inst]
    fabric := { State.reset.fabric with
      links := [(13, { state := 1, badTries := 2 }), (14, { state := 2, badTries := 3 }), (33, { state := 3 }), (34, { state := 3 }),
        (35, { state := 3 }), (36, { state := 3 })]
      flits := [flit], nextFlit := 1 } }

/-- The part with link 13 FAILED. -/
def failed : State := setLink 13 { getLink part 13 with state := 2, badTries := 3 } part

theorem stranded_failed : (stranded failed).filterMap (fun f => f.desc.node) = [ref] := by decide +kernel

/-- The fault of the node ends its output's values (R12, R16), and with them the byte. -/
theorem faultNode_clears :
    (faultNode ref csFENCED (extendPlans (recordLate hasWork 0x03 13 (reroute failed)))).mem = [] := by decide +kernel

theorem retrainDone_clears : (retrainDone 13 false part).mem = [] := by
  rw [retrainDone_third (by decide) (by decide +kernel) (by decide +kernel)]
  change (routesChanged 0x03 13 failed).mem = []
  rw [routesChanged_strands _ _ stranded_failed, faultNode_clears]

end CutOff

/-- Refutes O25: when a link becomes FAILED, a node whose flit has no live route left ends FAULTED (R476), and the bytes of its output
above its mark hold no value any more (R12, R16); the third unsuccessful retrain of `CutOff.part` so takes a byte out of memory, where
the statement has memory as before. -/
theorem not_linksCarryFlits : ¬ Obligations.LinksCarryFlits := by
  rintro ⟨-, -, -, hretrain⟩
  have hstate : (getLink CutOff.part 13).state = 1 := by decide +kernel
  have htries : (getLink CutOff.part 13).badTries = 2 := by decide +kernel
  obtain ⟨t, ht, -, hmem, -⟩ := (hretrain CutOff.part 13 (by decide) hstate).2.2 htries
  have hrun : retrainDone 13 false CutOff.part = t := Host.Outcome.next.inj ht
  rw [← hrun, CutOff.retrainDone_clears] at hmem
  exact List.cons_ne_nil _ _ hmem.symm

end Sys2Proof.Machine
end

section
/-! The records of TB2 (R44-R46): the elements of each byte, the invalid bytes and the scale (O8). -/

namespace Sys2Proof.Machine

open Sys2Proof

/-! ### Lists made of pieces of one length -/

/-- The pieces from number `m` on stand after `m` pieces of length `k`. -/
theorem drop_flatMap_range {α : Type} {f : Nat → List α} {n m k : Nat} (hm : m ≤ n) (hf : ∀ i, i < m → (f i).length = k) :
    ((List.range n).flatMap f).drop (k * m) = (List.range' m (n - m)).flatMap f := by
  have hlen : ((List.range m).flatMap f).length = k * m := by
    rw [List.length_flatMap, List.map_congr_left (g := fun _ => k) (fun i hi => hf i (List.mem_range.mp hi)), List.map_const',
      List.sum_replicate_nat, List.length_range, Nat.mul_comm]
  have hsplit : List.range n = List.range m ++ List.range' m (n - m) := by
    have happ := List.range'_append_1 (s := 0) (m := m) (n := n - m)
    rw [Nat.zero_add, Nat.add_sub_cancel' hm] at happ
    rw [List.range_eq_range', List.range_eq_range', happ]
  rw [hsplit, List.flatMap_append, ← hlen, List.drop_left]

/-- Adding one for each element that passes counts those that pass. -/
theorem sum_map_one_eq_length_filter {α : Type} (p : α → Prop) [DecidablePred p] (l : List α) :
    (l.map (fun i => if p i then 1 else 0)).sum = (l.filter (fun i => decide (p i))).length := by
  induction l with
  | nil => rfl
  | cons a l ih => by_cases ha : p a <;> simp [ha, ih, Nat.add_comm]

/-! ### One byte (R45, R46) -/

/-- How many elements byte j of a record holds. -/
def tb2Count (j : Nat) : Nat := if j < 12 then 5 else 4

/-- The least value of byte j that is invalid. -/
def tb2Limit (j : Nat) : Nat := if j < 12 then 243 else 81

theorem tb2Count_byte {j : Nat} (hj : j < 12) : tb2Count j = 5 := if_pos hj

theorem tb2Limit_byte {j : Nat} (hj : j < 12) : tb2Limit j = 243 := if_pos hj

/-- The limit is the number of values that the digits of the byte's elements take. -/
theorem tb2Limit_eq (j : Nat) : tb2Limit j = 3 ^ tb2Count j := by
  by_cases hj : j < 12
  · exact (tb2Limit_byte hj).trans (congrArg (fun n => 3 ^ n) (tb2Count_byte hj).symm)
  · exact (if_neg hj : tb2Limit j = 81).trans (congrArg (fun n => 3 ^ n) (if_neg hj : tb2Count j = 4).symm)

theorem tb2Byte_eq (j b : Nat) :
    tb2Byte j b = if tb2Limit j ≤ b then (List.replicate (tb2Count j) (.fin false 0 0), 1)
      else ((List.range (tb2Count j)).map (tritVal b), 0) :=
  ite_congr (congrArg (· ≤ b) (tb2Limit_eq j).symm) (fun _ => rfl) (fun _ => rfl)

/-- The elements of a byte that is too large are zeros (R46). -/
theorem tb2Byte_invalid {j b : Nat} (h : tb2Limit j ≤ b) : tb2Byte j b = (List.replicate (tb2Count j) (.fin false 0 0), 1) := by
  rw [tb2Byte_eq, if_pos h]

theorem tb2Byte_valid {j b : Nat} (h : b < tb2Limit j) : tb2Byte j b = ((List.range (tb2Count j)).map (tritVal b), 0) := by
  rw [tb2Byte_eq, if_neg (Nat.not_le.mpr h)]

theorem length_tb2Byte (j b : Nat) : (tb2Byte j b).1.length = tb2Count j := by
  by_cases h : tb2Limit j ≤ b
  · rw [tb2Byte_invalid h, List.length_replicate]
  · rw [tb2Byte_valid (Nat.not_le.mp h), List.length_map, List.length_range]

theorem tb2Byte_bad (j b : Nat) : (tb2Byte j b).2 = if tb2Limit j ≤ b then 1 else 0 := by
  by_cases h : tb2Limit j ≤ b
  · rw [tb2Byte_invalid h, if_pos h]
  · rw [tb2Byte_valid (Nat.not_le.mp h), if_neg h]

/-- The value of a trit digit (R45). -/
theorem tritVal_digit {b i d : Nat} (h : b / 3 ^ i % 3 = d) :
    tritVal b i = if d = 0 then .fin false 0 0 else if d = 1 then .fin false 1 0 else .fin true 1 0 := by
  have hd : d < 3 := h ▸ Nat.mod_lt _ (by decide)
  unfold tritVal
  rw [h]
  match d, hd with
  | 0, _ => rfl
  | 1, _ => rfl
  | 2, _ => rfl

/-! ### The scale (R44) -/

/-- A BF16 code is a number exactly where its exponent is not all ones (R41). -/
theorem fltDecode_bf16_special {c : Nat} (h : c / 128 % 256 = 255) :
    (∃ neg, fltDecode fltBF16 c = .inf neg) ∨ fltDecode fltBF16 c = .nan := by
  have htop : fltBF16.top < c % 2 ^ (fltBF16.width - 1) := by
    show 0x7F7F < c % 32768
    omega
  unfold fltDecode
  dsimp only
  rw [if_pos ⟨htop, rfl⟩]
  by_cases hinf : fltBF16.inf = some (c % 2 ^ (fltBF16.width - 1))
  · exact .inl ⟨_, if_pos hinf⟩
  · exact .inr (if_neg hinf)

theorem fltDecode_bf16_finite {c : Nat} (h : c / 128 % 256 ≠ 255) : ∃ neg m e, fltDecode fltBF16 c = .fin neg m e := by
  have htop : ¬ fltBF16.top < c % 2 ^ (fltBF16.width - 1) := by
    show ¬ 0x7F7F < c % 32768
    omega
  unfold fltDecode
  dsimp only
  rw [if_neg (fun hc => htop hc.1)]
  by_cases hexp : (c % 2 ^ (fltBF16.width - 1)) >>> fltBF16.mb = 0
  · exact ⟨_, _, _, if_pos hexp⟩
  · exact ⟨_, _, _, if_neg hexp⟩

theorem scaleFlt_bf16_nan {c : Nat} (h : c / 128 % 256 = 255) : scaleFlt fltBF16 c = none := by
  obtain ⟨neg, hc⟩ | hc := fltDecode_bf16_special h <;> rw [scaleFlt, hc]

theorem scaleFlt_bf16 {c : Nat} (h : c / 128 % 256 ≠ 255) : scaleFlt fltBF16 c = some (fltDecode fltBF16 c) := by
  obtain ⟨neg, m, e, hc⟩ := fltDecode_bf16_finite h
  rw [scaleFlt, hc]

/-! ### The record -/

/-- The unscaled elements of a record whose byte j is `byte j`. -/
def tb2Elems (byte : Nat → Nat) : List FVal := (List.range 13).flatMap (fun j => (tb2Byte j (byte j)).1)

/-- The bytes of a record that are invalid (R46). -/
def tb2Bad (byte : Nat → Nat) : Nat := ((List.range 13).map (fun j => (tb2Byte j (byte j)).2)).sum

theorem length_tb2Elems (byte : Nat → Nat) : (tb2Elems byte).length = 64 := by
  rw [tb2Elems, List.length_flatMap]
  simp only [length_tb2Byte]
  rfl

/-- Byte j, 0 to 11, holds elements 5j to 5j + 4 (R45). -/
theorem tb2Elems_byte (byte : Nat → Nat) {j : Nat} (hj : j < 12) :
    ((tb2Elems byte).drop (5 * j)).take 5 = (tb2Byte j (byte j)).1 := by
  have hlen : ∀ i, i ≤ j → (tb2Byte i (byte i)).1.length = 5 := fun i hi =>
    (length_tb2Byte i _).trans (tb2Count_byte (Nat.lt_of_le_of_lt hi hj))
  have hrest : 13 - j = (12 - j) + 1 := by omega
  rw [tb2Elems, drop_flatMap_range (by omega) (fun i hi => hlen i (Nat.le_of_lt hi)), hrest, List.range'_succ, List.flatMap_cons,
    ← hlen j (Nat.le_refl j), List.take_left]

/-- Byte 12 holds elements 60 to 63 (R45). -/
theorem tb2Elems_last (byte : Nat → Nat) : (tb2Elems byte).drop 60 = (tb2Byte 12 (byte 12)).1 := by
  have hlen : ∀ i, i < 12 → (tb2Byte i (byte i)).1.length = 5 := fun i hi => (length_tb2Byte i _).trans (tb2Count_byte hi)
  have hdrop : (tb2Elems byte).drop (5 * 12) = (List.range' 12 (13 - 12)).flatMap (fun j => (tb2Byte j (byte j)).1) :=
    drop_flatMap_range (by decide) hlen
  exact hdrop.trans (List.append_nil _)

theorem tb2Bad_eq (byte : Nat → Nat) :
    tb2Bad byte = ((List.range 12).filter (fun j => decide (243 ≤ byte j))).length + (if 81 ≤ byte 12 then 1 else 0) := by
  have hfirst : (List.range 12).map (fun j => (tb2Byte j (byte j)).2) = (List.range 12).map (fun j => if 243 ≤ byte j then 1 else 0) :=
    List.map_congr_left (fun j hj => by rw [tb2Byte_bad, tb2Limit_byte (List.mem_range.mp hj)])
  have hlast : (tb2Byte 12 (byte 12)).2 = if 81 ≤ byte 12 then 1 else 0 := tb2Byte_bad 12 (byte 12)
  rw [tb2Bad, List.range_succ, List.map_append, List.sum_append, hfirst, List.map_singleton, List.sum_singleton, hlast,
    sum_map_one_eq_length_filter]

/-- A TB2 record is its elements under its BF16 scale, bytes 14:13 (R44-R46). -/
theorem loadRecord_tb2 (scaled : Bool) {bs : List Byte} {byte : Nat → Nat} (hlen : bs.length = 15)
    (hbyte : ∀ j, byte j = (nth 0 bs j).toNat) :
    loadRecord 0xA scaled bs = loadBlock (scaleFlt fltBF16 (byte 13 + 256 * byte 14)) (tb2Elems byte) (tb2Bad byte) := by
  have hscale : leNat ((bs.drop 13).take 2) = byte 13 + 256 * byte 14 := by
    rw [hbyte, hbyte, nth, nth, List.getElem?_eq_getElem (by omega), List.getElem?_eq_getElem (by omega),
      List.drop_eq_getElem_cons (by omega), List.drop_eq_getElem_cons (by omega)]
    rfl
  have hbytes : byte = fun j => (nth 0 bs j).toNat := funext hbyte
  rw [← hscale, hbytes]
  simp only [loadRecord, tb2Elems, tb2Bad, List.sum_eq_foldl, List.flatMap_map, List.map_map, Function.comp_def]

/-- Settles O8: the record is the elements of its 13 bytes (`tb2Elems`) under its scale (`loadRecord_tb2`). -/
theorem ternaryRecordsDecode : Obligations.TernaryRecordsDecode := by
  intro bs scaled c byte trit hlen hbyte hc htrit
  have hzero : trit 0 = .fin false 0 0 := htrit 0
  have hdigit : ∀ {b i d : Nat}, b / 3 ^ i % 3 = d → tritVal b i = trit d := fun h => (tritVal_digit h).trans (htrit _).symm
  refine ⟨_, rfl, ?_⟩
  rw [loadRecord_tb2 scaled hlen hbyte, ← hc]
  by_cases hnan : c / 128 % 256 = 255
  · rw [scaleFlt_bf16_nan hnan]
    refine ⟨(List.length_map _).trans (length_tb2Elems byte), fun h => absurd hnan h, fun _ => ⟨rfl, rfl, fun v hv => ?_⟩⟩
    obtain ⟨-, -, rfl⟩ := List.mem_map.mp hv
    rfl
  · rw [scaleFlt_bf16 hnan]
    generalize fltDecode fltBF16 c = k
    have hpiece : ∀ j, j < 12 → (((tb2Elems byte).map (fun v => fvMul v k)).drop (5 * j)).take 5 =
        (tb2Byte j (byte j)).1.map (fun v => fvMul v k) := fun j hj => by
      rw [← List.map_drop, ← List.map_take, tb2Elems_byte byte hj]
    have hlast : ((tb2Elems byte).map (fun v => fvMul v k)).drop 60 = (tb2Byte 12 (byte 12)).1.map (fun v => fvMul v k) := by
      rw [← List.map_drop, tb2Elems_last]
    refine ⟨(List.length_map _).trans (length_tb2Elems byte), fun _ => ⟨rfl, tb2Bad_eq byte, ?digits, ?lastDigits, ?invalid, ?lastInvalid⟩,
      fun h => absurd h hnan⟩
    case digits =>
      intro j d0 d1 d2 d3 d4 hj h0 h1 h2 h3 h4 hb
      refine (hpiece j hj).trans ?_
      rw [tb2Byte_valid (by rw [tb2Limit_byte hj]; omega), tb2Count_byte hj]
      have e0 : tritVal (byte j) 0 = trit d0 := hdigit (by omega)
      have e1 : tritVal (byte j) 1 = trit d1 := hdigit (by omega)
      have e2 : tritVal (byte j) 2 = trit d2 := hdigit (by omega)
      have e3 : tritVal (byte j) 3 = trit d3 := hdigit (by omega)
      have e4 : tritVal (byte j) 4 = trit d4 := hdigit (by omega)
      show [tritVal (byte j) 0, tritVal (byte j) 1, tritVal (byte j) 2, tritVal (byte j) 3, tritVal (byte j) 4].map _ = _
      rw [e0, e1, e2, e3, e4]
      rfl
    case lastDigits =>
      intro d0 d1 d2 d3 h0 h1 h2 h3 hb
      refine hlast.trans ?_
      have hvalid : byte 12 < tb2Limit 12 := show byte 12 < 81 by omega
      rw [tb2Byte_valid hvalid]
      have e0 : tritVal (byte 12) 0 = trit d0 := hdigit (by omega)
      have e1 : tritVal (byte 12) 1 = trit d1 := hdigit (by omega)
      have e2 : tritVal (byte 12) 2 = trit d2 := hdigit (by omega)
      have e3 : tritVal (byte 12) 3 = trit d3 := hdigit (by omega)
      show [tritVal (byte 12) 0, tritVal (byte 12) 1, tritVal (byte 12) 2, tritVal (byte 12) 3].map _ = _
      rw [e0, e1, e2, e3]
      rfl
    case invalid =>
      intro j hj hb
      refine (hpiece j hj).trans ?_
      rw [tb2Byte_invalid (by rw [tb2Limit_byte hj]; exact hb), tb2Count_byte hj, List.map_replicate, hzero]
    case lastInvalid =>
      intro hb
      refine hlast.trans ?_
      rw [tb2Byte_invalid (j := 12) hb, List.map_replicate, hzero]
      rfl

end Sys2Proof.Machine
end

section
/-! Accumulators of engine lanes (R145, R155-R157), and what the instructions of the exact class do with them (O43). -/

namespace Sys2Proof.Machine

open Sys2Proof

/-! ### One accumulator -/

@[simp] theorem acv_wac_same (g : Group) (i d : Nat) (a : EngAcc) : acv (wac i d a g) i d = a := by
  simp [acv, wac]

theorem acv_wac_other {g : Group} {i j k d : Nat} (a : EngAcc) (hk : k < 8) (hd : d < 8) (h : j ≠ i ∨ k ≠ d) :
    acv (wac i d a g) j k = acv g j k := by
  unfold acv wac
  dsimp only
  rw [SMap.get_set_other]
  omega

namespace AccBecomes

variable {g h : Group} {d : Nat} {new : Nat → Option EngAcc}

theorem refl (g : Group) (d : Nat) : AccBecomes g g d (fun _ => none) :=
  ⟨fun _ _ _ _ => (ite_self _).symm, rfl⟩

/-- What a change gives matters in the 32 lanes alone. -/
theorem congr {new' : Nat → Option EngAcc} (hg : AccBecomes g h d new) (hnew : ∀ i, i < 32 → new' i = new i) :
    AccBecomes g h d new' :=
  ⟨fun i k hi hk => by rw [hnew i hi]; exact hg.1 i k hi hk, hg.2⟩

/-- One more lane's accumulator written. -/
theorem wac (hg : AccBecomes g h d new) {i : Nat} (hi : i < 32) (hd : d < 8) (a : EngAcc) :
    AccBecomes g (Machine.wac i d a h) d (fun j => if j = i then some a else new j) := by
  obtain ⟨hacc, hframe⟩ := hg
  refine ⟨fun j k hj hk => ?_, by rw [hframe]; rfl⟩
  by_cases hjk : j = i ∧ k = d
  · obtain ⟨rfl, rfl⟩ := hjk
    simp
  · rw [acv_wac_other a hk hd (by omega), hacc j k hj hk]
    by_cases hkd : k = d
    · have hji : j ≠ i := fun h => hjk ⟨h, hkd⟩
      simp [hkd, hji]
    · simp [hkd]

/-- The same accumulator written in each lane of a list. -/
theorem eachLane {l : List Nat} (hl : ∀ i ∈ l, i < 32) (hd : d < 8) (a : EngAcc) (hg : AccBecomes g h d new) :
    AccBecomes g (Machine.eachLane l (fun i => Machine.wac i d a) h) d (fun i => if i ∈ l then some a else new i) := by
  induction l generalizing h new with
  | nil => simpa [Machine.eachLane] using hg
  | cons i l ih =>
    refine (ih (fun j hj => hl j (List.mem_cons_of_mem _ hj)) (hg.wac (hl i List.mem_cons_self) hd a)).congr (fun j _ => ?_)
    by_cases hj : j = i <;> by_cases hjl : j ∈ l <;> simp [hj, hjl]

/-- Registers written first and an accumulator after them: each is as if written alone. -/
theorem after_regs {k : Group} {l : List Nat} {regs : Nat → Nat → Option (BitVec 32 × Bool)} (hr : RegsBecome g h l regs)
    (ha : AccBecomes h k d new) :
    RegsBecome g { k with acc := g.acc } l regs ∧ AccBecomes { g with v := k.v, poison := k.poison } k d new := by
  have hacc : h.acc = g.acc := by rw [hr.2.2]
  have hk : k = { h with acc := k.acc } := ha.2
  have hregs : { k with acc := g.acc } = h := by rw [hk, ← hacc]
  have hbase : { g with v := k.v, poison := k.poison } = h := by rw [hk]; exact hr.2.2.symm
  exact ⟨hregs ▸ hr, hbase ▸ ha⟩

end AccBecomes

/-- Per lane a register and then an accumulator, or all the registers and then all the accumulators: the same. -/
theorem eachLane_wac_wv (l : List Nat) (d a : Nat) (x : Nat → BitVec 32) (po : Nat → Bool) (b : EngAcc) (g : Group) :
    eachLane l (fun i h => wac i a b (wv i d (x i) (po i) h)) g =
      eachLane l (fun i => wac i a b) (eachLane l (fun i => wv i d (x i) (po i)) g) := by
  induction l generalizing g with
  | nil => rfl
  | cons i l ih =>
    have hcomm : ∀ (l : List Nat) (g : Group), eachLane l (fun i => wv i d (x i) (po i)) (wac i a b g) =
        wac i a b (eachLane l (fun i => wv i d (x i) (po i)) g) := fun l => by
      induction l with
      | nil => exact fun _ => rfl
      | cons j l ihl => exact fun g => ihl (wv j d (x j) (po j) g)
    show eachLane l _ (wac i a b (wv i d (x i) (po i) g)) = eachLane l _ (wac i a b (eachLane l _ (wv i d (x i) (po i) g)))
    rw [ih, hcomm]

/-! ### XCLR and XRED (R148, R155, R156) -/

theorem exec_xclr {s : State} {at_ : Issue} {w : EngFields} {run : EngineRun} {g : Group} (hr : readyGroup .xclr at_ w s = some (run, g)) :
    exec (.xclr at_ w) s =
      .next (advanced .xclr at_ w run g (eachLane (guarded_ g w) (fun i => wac i (w.d.toNat % 8) {}) g) s) :=
  congrArg Host.Outcome.next (issue_on hr rfl)

/-- What the lane i of an XRED receives: the lowest of the lanes `l` in its aligned run of n the merge over the run (R156). -/
def xredLane (l : List Nat) (n a : Nat) (g : Group) (i : Nat) : Option EngAcc :=
  match l.filter (fun j => j / n = i / n) with
  | j :: r => if i = j then some { acc := r.foldl (fun m k => accMerge m (acv g k a).acc) (acv g j a).acc, stage := none } else none
  | [] => none

/-- One aligned run of an XRED. -/
def xredRun (l : List Nat) (n a d : Nat) (g h : Group) (k : Nat) : Group :=
  match l.filter (fun i => i / n = k) with
  | [] => h
  | i :: r => wac i d { acc := r.foldl (fun m j => accMerge m (acv g j a).acc) (acv g i a).acc, stage := none } h

theorem xredGroup_eq (w : EngFields) (g : Group) :
    xredGroup w g = (List.range (32 / 2 ^ bits w.imm.toNat 2 0)).foldl
      (xredRun (guarded_ g w) (2 ^ bits w.imm.toNat 2 0) (w.a.toNat % 8) (w.d.toNat % 8) g) g := rfl

/-- The first m runs of an XRED. -/
theorem xredRun_fold {l : List Nat} (hl : ∀ i ∈ l, i < 32) (n a : Nat) {d : Nat} (hd : d < 8) (g : Group) (m : Nat) :
    AccBecomes g ((List.range m).foldl (xredRun l n a d g) g) d (fun i => if i / n < m then xredLane l n a g i else none) := by
  induction m with
  | zero => exact (AccBecomes.refl g d).congr (fun i _ => if_neg (Nat.not_lt_zero _))
  | succ m ih =>
    rw [List.range_succ, List.foldl_append, List.foldl_cons, List.foldl_nil]
    generalize (List.range m).foldl (xredRun l n a d g) g = h at ih
    unfold xredRun
    cases hrun : l.filter (fun i => i / n = m) with
    | nil =>
      refine ih.congr (fun i _ => ?_)
      by_cases him : i / n = m
      · simp [him, xredLane, hrun]
      · have hlt : i / n < m + 1 ↔ i / n < m := by omega
        simp only [hlt]
    | cons j r =>
      obtain ⟨hjl, hjm⟩ := List.mem_filter.mp (hrun ▸ List.mem_cons_self : j ∈ l.filter (fun i => i / n = m))
      have hjm : j / n = m := of_decide_eq_true hjm
      refine (ih.wac (hl j hjl) hd _).congr (fun i _ => ?_)
      by_cases him : i / n = m
      · simp [him, xredLane, hrun]
      · have hij : i ≠ j := fun h => him (h ▸ hjm)
        have hlt : i / n < m + 1 ↔ i / n < m := by omega
        simp only [hij, hlt, if_false]

theorem xredGroup_becomes {w : EngFields} {g : Group} {n : Nat} (hn : 2 ^ bits w.imm.toNat 2 0 = n) (hk : bits w.imm.toNat 2 0 ≤ 5) :
    AccBecomes g (xredGroup w g) (w.d.toNat % 8) (xredLane (guarded_ g w) n (w.a.toNat % 8) g) := by
  have hdvd : n ∣ 32 := hn ▸ Nat.pow_dvd_pow 2 hk
  rw [xredGroup_eq, hn]
  refine (xredRun_fold (fun i => lane_guarded) n _ (Nat.mod_lt _ (by decide)) g (32 / n)).congr (fun i hi => ?_)
  rw [if_pos (Nat.div_lt_div_of_lt_of_dvd hdvd hi)]

theorem xredBody_fault {w : EngFields} {e : Nat} {run : EngineRun} {g : Group} {s : State}
    (h : ∃ i, i ∈ guarded_ g w ∧ ((acv g i (w.a.toNat % 8)).stage.isSome = true ∨ (acv g i (w.d.toNat % 8)).stage.isSome = true)) :
    xredBody w e run g s = .error csBAD_OPERAND :=
  if_pos (by simpa using h)

theorem xredBody_ok {w : EngFields} {e : Nat} {run : EngineRun} {g : Group} {s : State}
    (h : ∀ i, i ∈ guarded_ g w → (acv g i (w.a.toNat % 8)).stage = none ∧ (acv g i (w.d.toNat % 8)).stage = none) :
    xredBody w e run g s = .ok { s := s, g := xredGroup w g, goes := .on } :=
  if_neg (by simpa using h)

/-! ### XEXIT (R157) -/

theorem xexitBody_fault {w : EngFields} {e : Nat} {run : EngineRun} {g : Group} {s : State}
    (h : ∃ i, i ∈ guarded_ g w ∧ (acv g i (w.a.toNat % 8)).stage.isSome = true) : xexitBody w e run g s = .error csBAD_OPERAND :=
  if_pos (by simpa using h)

/-- The exit of accA in lane i: the code, and whether it saturates (R51, R157). -/
def xexitLane (run : EngineRun) (g : Group) (w : EngFields) (i : Nat) : Nat × Bool :=
  accExit (bits w.imm.toNat 3 0) (bits w.imm.toNat 9 8) (laneBits run g w i) run.desc.anchor (acv g i (w.a.toNat % 8)).acc

/-- The group with the exits written to vD. -/
def xexitRegs (run : EngineRun) (w : EngFields) (g : Group) : Group :=
  eachLane (guarded_ g w) (fun i => wv i w.d.toNat (regCode (bits w.imm.toNat 3 0) (xexitLane run g w i).1)
    (acv g i (w.a.toNat % 8)).acc.poison) g

/-- The group after an XEXIT: accA cleared unless KEEP. -/
def xexitGroup (run : EngineRun) (w : EngFields) (g : Group) : Group :=
  if w.imm.getLsbD 11 then xexitRegs run w g else eachLane (guarded_ g w) (fun i => wac i (w.a.toNat % 8) {}) (xexitRegs run w g)

theorem xexitBody_ok {w : EngFields} {e : Nat} {run : EngineRun} {g : Group} {s : State}
    (h : ∀ i, i ∈ guarded_ g w → (acv g i (w.a.toNat % 8)).stage = none) (hco : coordPoison g w (guarded_ g w) = false) :
    xexitBody w e run g s = .ok
      { s := countStk e 0 0 (countIf (fun i => (xexitLane run g w i).2) (guarded_ g w)) 0 s, g := xexitGroup run w g, goes := .on } := by
  have hstage : ¬ ((guarded_ g w).any (fun i => (acv g i (w.a.toNat % 8)).stage.isSome) = true) := by simpa using h
  have hkeep : bit w.imm.toNat 11 = w.imm.getLsbD 11 := rfl
  unfold xexitBody
  dsimp only
  rw [if_neg hstage, if_neg (by simp [hco]), hkeep]
  unfold xexitGroup xexitRegs
  cases w.imm.getLsbD 11 with
  | true => rfl
  | false => simp only [Bool.false_eq_true, if_false, eachLane_wac_wv]; rfl

theorem xexitRegs_becomes (run : EngineRun) (w : EngFields) (g : Group) :
    RegsBecome g (xexitRegs run w g) (guarded_ g w) (fun i r => if r = w.d.toNat then
      some (regCode (bits w.imm.toNat 3 0) (xexitLane run g w i).1, (acv g i (w.a.toNat % 8)).acc.poison) else none) :=
  regs_eachLane (nodup_guarded g w) (fun _ => lane_guarded) w.d.isLt
    (fun i _ => (regCode (bits w.imm.toNat 3 0) (xexitLane run g w i).1, (acv g i (w.a.toNat % 8)).acc.poison)) (fun _ _ _ _ _ => rfl) g

theorem xexitGroup_accs (run : EngineRun) (w : EngFields) (g : Group) :
    AccBecomes (xexitRegs run w g) (xexitGroup run w g) (w.a.toNat % 8)
      (fun i => if i ∈ guarded_ g w ∧ w.imm.getLsbD 11 = false then some {} else none) := by
  unfold xexitGroup
  cases w.imm.getLsbD 11 with
  | true => exact (AccBecomes.refl _ _).congr (fun i _ => by simp)
  | false =>
    exact ((AccBecomes.refl _ _).eachLane (fun _ => lane_guarded) (Nat.mod_lt _ (by decide)) {}).congr (fun i _ => by simp)

/-! ### XMAC (R154, R155) -/

theorem xmacBody_fault {w : EngFields} {e c : Nat} {run : EngineRun} {g : Group} {s : State}
    (h : (guarded_ g w).findSome? (xmacFault run.desc w g) = some c) : xmacBody w e run g s = .error c := by
  simp only [xmacBody, h]

theorem xmacBody_ok {w : EngFields} {e : Nat} {run : EngineRun} {g : Group} {s : State}
    (h : (guarded_ g w).findSome? (xmacFault run.desc w g) = none) :
    xmacBody w e run g s = .ok { s := ((guarded_ g w).foldl (xmacStep e run w) (g, s)).2,
                                 g := ((guarded_ g w).foldl (xmacStep e run w) (g, s)).1, goes := .on } := by
  simp only [xmacBody, h]

/-- One lane of an XMAC without POSTINC, on the bytes that it reads. -/
theorem xmacStep_eq {s s1 s2 : State} {e i : Nat} {w : EngFields} {run : EngineRun} {g : Group} {a b : List (Byte × Bool)}
    (hpost : w.imm.getLsbD 11 = false)
    (ha : readLocal e (rv g i w.a.toNat).toNat (xBytes (xOps w.imm.toNat).1) s = (a, s1))
    (hb : readLocal e (rv g i w.b.toNat).toNat (xBytes (xOps w.imm.toNat).2.1) s1 = (b, s2))
    {r : EngAcc × Nat × Nat × Nat}
    (hlane : xmacLane run.desc.anchor w.imm.toNat (a.map (fun q => q.1)) (b.map (fun q => q.1))
      (a.any (fun q => q.2) || b.any (fun q => q.2)) (acv g i (w.d.toNat % 8)) = r) :
    xmacStep e run w (g, s) i = (wac i (w.d.toNat % 8) r.1 g, countStk e r.2.1 r.2.2.1 0 r.2.2.2 s2) := by
  have hbit : bit w.imm.toNat 11 = false := hpost
  rw [xmacStep, ha]
  dsimp only
  rw [hb]
  dsimp only
  rw [hlane, hbit]
  rfl

/-! ### QBLK (R158) -/

section Qblk

variable {w : EngFields} {e lead : Nat} {rest : List Nat} {run : EngineRun} {g : Group} {s : State}

theorem qblkBody_fault (hl : guarded_ g w = lead :: rest) (hpo : rpo g lead w.b.toNat = false)
    (hco : coordPoison g w (lead :: rest) = false)
    (hbad : localOk run.desc (rv g lead w.b.toNat).toNat (recBytes (bits w.imm.toNat 3 0) false) = false) :
    qblkBody w e run g s = .error csBAD_OPERAND := by
  simp [qblkBody, hl, hpo, hco, hbad]

theorem qblkBody_ok {r : List Byte × Nat} (hl : guarded_ g w = lead :: rest) (hpo : rpo g lead w.b.toNat = false)
    (hco : coordPoison g w (lead :: rest) = false)
    (hok : localOk run.desc (rv g lead w.b.toNat).toNat (recBytes (bits w.imm.toNat 3 0) false) = true)
    (hr : storeBlock (bits w.imm.toNat 3 0) (bits w.imm.toNat 9 8) ((List.range 32).map (fun i =>
      if (lead :: rest).contains i then (fp32Val (rv g i w.a.toNat), laneBits run g w i) else (.fin false 0 0, 0))) = r) :
    qblkBody w e run g s = .ok
      { s := countStk e 0 0 r.2 0 (writeLocal e run.node (rv g lead w.b.toNat).toNat
          (r.1.map (fun b => (b, anyPoison g (lead :: rest) w.a.toNat))) s), g := g, goes := .on } := by
  simp only [qblkBody, hl, List.head?_cons, hpo, hco, hok, hr, Bool.or_self, Bool.not_true, Bool.false_eq_true, if_false]

end Qblk

/-- Settles O43: each instruction's own meaning (`…Body_fault`, `…Body_ok`) under the rule of issue (R171), and its group's accumulators
lane by lane (`AccBecomes`). -/
theorem engineAccumulatorsRun : Obligations.EngineAccumulatorsRun := by
  refine ⟨⟨?xclr, ?xred, ?xexit⟩, ?xmac, ?xmacLane, ?qblk⟩
  case xclr =>
    intro s at_ w run g hr
    exact ⟨_, exec_xclr hr, (AccBecomes.refl _ _).eachLane (fun _ => lane_guarded) (Nat.mod_lt _ (by decide)) {}⟩
  case xred =>
    rintro s at_ w run g a d n hr rfl rfl hn - hk
    exact ⟨fun hopen => congrArg Host.Outcome.next (issue_fault hr (xredBody_fault hopen)), fun hclosed =>
      ⟨_, congrArg Host.Outcome.next (issue_on hr (xredBody_ok hclosed)), xredGroup_becomes hn hk⟩⟩
  case xexit =>
    rintro s at_ w run g a one hr rfl hone
    obtain rfl : one = xexitLane run g w := funext hone
    refine ⟨fun hopen => congrArg Host.Outcome.next (issue_fault hr (xexitBody_fault hopen)), fun hclosed hco =>
      ⟨_, congrArg Host.Outcome.next (issue_on hr (xexitBody_ok hclosed hco)), ?_⟩⟩
    exact (xexitGroup_accs run w g).after_regs (xexitRegs_becomes run w g)
  case xmac =>
    intro s at_ w run g hr
    exact ⟨fun c hc => congrArg Host.Outcome.next (issue_fault hr (xmacBody_fault hc)), fun hok =>
      ⟨_, _, rfl, congrArg Host.Outcome.next (issue_on hr (xmacBody_ok hok))⟩⟩
  case xmacLane =>
    rintro s s1 s2 e i d w run g a b rfl hi hpost ha hb
    exact ⟨_, _, xmacStep_eq hpost ha hb rfl, (AccBecomes.refl _ _).wac hi (Nat.mod_lt _ (by decide)) _, rfl⟩
  case qblk =>
    rintro s at_ w run g lead off rest r hr hl rfl hpo hco
    exact ⟨fun hbad => congrArg Host.Outcome.next (issue_fault hr (qblkBody_fault hl hpo hco hbad)), fun hok hblock =>
      congrArg Host.Outcome.next (issue_on hr (qblkBody_ok hl hpo hco hok hblock))⟩

end Sys2Proof.Machine
end

section
/-! The conversion of engine lanes (R57, R157), and why an INT32 source does not round in the mode of the modifier (O42). -/

namespace Sys2Proof.Machine

open Sys2Proof

/-! ### The launch after an instruction -/

theorem putGroup_engine {e : Nat} {s : State} {run : EngineRun} (g : Group) (hr : SMap.get none s.engines e = some run) :
    SMap.get none (putGroup e g s).engines e =
      some { run with groups := run.groups.map (fun h => if h.slot = g.slot then g else h), lastSlot := g.slot } := by
  simp [putGroup, modEngine, hr]

/-- Of a launch with one group, what an instruction that is not the program's last leaves of it (R126, R152). -/
theorem advanced_engine {op : EngOp} {at_ : Issue} {w : EngFields} {run : EngineRun} {g h : Group} {s : State}
    (hlast : g.pc + 1 ≠ run.desc.codeLen) (hr : SMap.get none s.engines at_.engine = some run) (hg : run.groups = [g])
    (hslot : h.slot = g.slot) :
    SMap.get none (advanced op at_ w run g h s).engines at_.engine =
      some { run with groups := [{ h with pc := g.pc + 1, late := lateAfter op w g.late }], lastSlot := h.slot } := by
  unfold advanced
  rw [if_neg hlast, putGroup_engine _ hr, hg]
  simp [hslot]

/-- Two results of such an instruction agree only where the registers that they leave agree. -/
theorem regs_of_advanced_eq {op : EngOp} {at_ : Issue} {w : EngFields} {run : EngineRun} {g h k : Group} {s t : State}
    (heq : advanced op at_ w run g h s = advanced op at_ w run g k t) (hlast : g.pc + 1 ≠ run.desc.codeLen)
    (hs : SMap.get none s.engines at_.engine = some run) (ht : SMap.get none t.engines at_.engine = some run) (hg : run.groups = [g])
    (hh : h.slot = g.slot) (hk : k.slot = g.slot) : h.v = k.v := by
  have hregs := congrArg (fun u : State => (SMap.get none u.engines at_.engine).map (fun r => r.groups.map Group.v)) heq
  simpa [advanced_engine hlast hs hg hh, advanced_engine hlast ht hg hk] using hregs

theorem RegsBecome.slot {g h : Group} {l : List Nat} {new : Nat → Nat → Option (BitVec 32 × Bool)} (hr : RegsBecome g h l new) :
    h.slot = g.slot := by rw [hr.2.2]

theorem RegsBecome.rv {g h : Group} {l : List Nat} {new : Nat → Nat → Option (BitVec 32 × Bool)} (hr : RegsBecome g h l new) {i r : Nat}
    {x : BitVec 32} {po : Bool} (hi : i < 32) (hlane : i ∈ l) (hlt : r < 64) (hnew : new i r = some (x, po)) : Machine.rv h i r = x := by
  have := hr.1 i r hi hlt
  rw [if_pos hlane, hnew] at this
  exact congrArg Prod.fst this

/-! ### CVT (R57, R157) -/

/-- The conversion of lane i: to FP32 always to nearest even, else in the modifier's mode (R57). -/
def cvtLane (run : EngineRun) (g : Group) (w : EngFields) (i : Nat) : Nat × Bool :=
  convertTo (bits w.imm.toNat 3 0) (bits w.imm.toNat 9 8) (laneBits run g w i) (regValue (bits w.imm.toNat 7 4) (rv g i w.a.toNat))

theorem cvtBody_ok {w : EngFields} {e : Nat} {run : EngineRun} {g : Group} {s : State} (hco : coordPoison g w (guarded_ g w) = false) :
    cvtBody w e run g s = .ok
      { s := countStk e 0 0 (countIf (fun i => (cvtLane run g w i).2) (guarded_ g w)) 0 s
        g := eachLane (guarded_ g w) (fun i => wv i w.d.toNat (regCode (bits w.imm.toNat 3 0) (cvtLane run g w i).1) (rpo g i w.a.toNat)) g
        goes := .on } :=
  if_neg (by simp [hco])

/-- What CVT does: every lane that takes part gets its own conversion, and saturations are counted. -/
theorem exec_cvt {s : State} {at_ : Issue} {w : EngFields} {run : EngineRun} {g : Group} (hr : readyGroup .cvt at_ w s = some (run, g))
    (hco : coordPoison g w (guarded_ g w) = false) :
    ∃ h, exec (.cvt at_ w) s =
        .next (advanced .cvt at_ w run g h (countStk at_.engine 0 0 (countIf (fun i => (cvtLane run g w i).2) (guarded_ g w)) 0 s)) ∧
      RegsBecome g h (guarded_ g w) (fun i r => if r = w.d.toNat then
        some (regCode (bits w.imm.toNat 3 0) (cvtLane run g w i).1, rpo g i w.a.toNat) else none) :=
  ⟨_, congrArg Host.Outcome.next (issue_on hr (cvtBody_ok hco)),
    regs_eachLane (nodup_guarded g w) (fun _ => lane_guarded) w.d.isLt
      (fun i _ => (regCode (bits w.imm.toNat 3 0) (cvtLane run g w i).1, rpo g i w.a.toNat)) (fun _ _ _ _ _ => rfl) g⟩

/-! ### A conversion of INT32 to FP32 whose modifier says toward zero

The SIMT node of a part has one thread, whose v0 is 2^25 - 1: 25 ones, where FP32 holds 24. Its next instruction is
`CVT v1, v0` from INT32 (code 0xB) to FP32 (code 0x0) in mode 1. -/

namespace IntToFp32

/-- The CVT's fields. -/
def word : EngFields := { d := 1, a := 0, b := 0, c := 0, imm := 0x1B0 }

/-- Its thread group. -/
def group : Group :=
  { slot := 0, j := 0, pc := 0, wait := .none, active := 1, v := [(0, 0x1FFFFFF)], p := [], acc := [], poison := [], late := [] }

/-- Its launch on engine 0; a second instruction follows the CVT. -/
def launch : EngineRun :=
  { node := CutOff.ref
    desc := { lc := false, barrier := false, resGroups := 1, anchor := 0, sharedKib := 1, gx := 1, gy := 1, gz := 1, code := 0, codeLen := 2,
              args := 0, localBase := 0, localLen := 4096, seed := 0 }
    code := [encodeWord .cvt word, encodeWord .nop ⟨0, 0, 0, 0, 0⟩], args := [], order := 0, total := 1, groups := [group], nextJ := 1, counters := [],
    lastSlot := 0 }

/-- The part with the node running: the graph's one node is a SIMT node. -/
def part : State :=
  { CutOff.part with
    graphs := [{ CutOff.graph with nodes := CutOff.graph.nodes.map (fun n => { n with kind := 2 }) }]
    fabric := State.reset.fabric
    engines := [(0, some launch)] }

theorem ready : readyGroup .cvt ⟨0, 0⟩ word part = some (launch, group) := by decide +kernel

theorem guarded : guarded_ group word = [0] := by decide

/-- The CVT rounds up to 2^25 (R57); toward zero it would give 2^25 - 2. -/
theorem nearest : regCode (bits word.imm.toNat 3 0) (cvtLane launch group word 0).1 = 0x4C000000#32 := by decide +kernel

theorem towardZero :
    regCode (bits word.imm.toNat 3 0) (convert (bits word.imm.toNat 3 0) (bits word.imm.toNat 9 8) (laneBits launch group word 0)
      (regValue (bits word.imm.toNat 7 4) (rv group 0 word.a.toNat))).1 = 0x4BFFFFFF#32 := by decide +kernel

end IntToFp32

/-- Refutes O42: a conversion of INT32 to FP32 rounds to nearest even whatever the mode (R57), and so does the model's CVT (`convertTo`);
the statement has CVT round in the modifier's mode (`convert`). In `IntToFp32.part` a CVT in mode 1 of 2^25 - 1 gives 2^25, where the
statement has 2^25 - 2. -/
theorem not_engineFloatRuns : ¬ Obligations.EngineFloatRuns := by
  rintro ⟨-, -, -, -, -, -, hcvt⟩
  obtain ⟨h, hexec, hregs⟩ := hcvt IntToFp32.part ⟨0, 0⟩ IntToFp32.word IntToFp32.launch IntToFp32.group _ _ IntToFp32.ready
    (by decide +kernel) rfl (fun _ => rfl)
  obtain ⟨k, kexec, kregs⟩ := exec_cvt IntToFp32.ready (by decide +kernel)
  have hv : h.v = k.v := regs_of_advanced_eq (Host.Outcome.next.inj (hexec.symm.trans kexec)) (by decide) rfl rfl rfl hregs.slot kregs.slot
  have hlane : 0 ∈ guarded_ IntToFp32.group IntToFp32.word := by simp [IntToFp32.guarded]
  have hzero : rv h 0 1 = 0x4BFFFFFF#32 :=
    (hregs.rv (by decide) hlane (by decide) (if_pos rfl)).trans IntToFp32.towardZero
  have hnear : rv k 0 1 = 0x4C000000#32 :=
    (kregs.rv (by decide) hlane (by decide) (if_pos rfl)).trans IntToFp32.nearest
  have hsame : rv h 0 1 = rv k 0 1 := congrArg (fun v => SMap.get 0 v 1) hv
  rw [hzero, hnear] at hsame
  exact absurd hsame (by decide)

end Sys2Proof.Machine
end

section
/-! FUSE_REPAIR and its two BISTs (R84-R86, R432, R433), and the lines that a tile's slots leave (R83; O47). -/

namespace Sys2Proof.Machine

open Sys2Proof

/-! ### Logical lines (R83) -/

/-- The element at place i of a filtered range has passed the filter, and i numbers below it have. -/
theorem getElem?_filter_range {p : Nat → Bool} {n i k : Nat} (h : ((List.range n).filter p)[i]? = some k) :
    k < n ∧ p k = true ∧ ((List.range k).filter p).length = i := by
  induction n with
  | zero => simp at h
  | succ n ih =>
    rw [List.range_succ, List.filter_append, List.getElem?_append] at h
    split at h
    next =>
      obtain ⟨hk, hp, hlen⟩ := ih h
      exact ⟨Nat.lt_succ_of_lt hk, hp, hlen⟩
    next hle =>
      cases hp : p n with
      | false => simp [hp] at h
      | true =>
        rw [List.filter_cons_of_pos hp, List.filter_nil, List.getElem?_singleton] at h
        split at h
        next hi =>
          obtain rfl := Option.some.inj h
          exact ⟨Nat.lt_succ_self _, hp, by omega⟩
        next => cases h

theorem physLine_some {slots : List (Option Nat)} {total i k : Nat} (h : physLine slots total i = some k) :
    k < total ∧ ¬ some k ∈ slots ∧ ((List.range k).filter (fun j => !slots.contains (some j))).length = i := by
  obtain ⟨hk, hskip, hlen⟩ := getElem?_filter_range h
  exact ⟨hk, by simpa using hskip, hlen⟩

/-! ### FUSE_REPAIR -/

section Request

variable {s : State} {sub : Submission} {n : Nat} (hu : decodeUnit (ent sub.entry 95 64) = some (.tile n))
  (hc : checkCmd spRepair false sub true true s = none)

include hu hc

theorem fuseRepair_unfenced (tok : CmdTok) (hf : tileFenced s n = false) :
    fuseRepair sub tok s = only sub tok stNOT_PERMITTED 0 0 s := by
  rw [fuseRepair, hu]
  exact (guarded_pass _ hc).trans (if_pos (by simp [hf]))

theorem fuseRepair_outside (tok : CmdTok) (hf : tileFenced s n = true) (hw : repairWindow s n = false) :
    fuseRepair sub tok s = only sub tok stTEMP_WINDOW 0 0 s := by
  rw [fuseRepair, hu]
  exact (guarded_pass _ hc).trans ((if_neg (by simp [hf])).trans (if_pos (by simp [hw])))

theorem fuseRepair_starts (tok : CmdTok) (hf : tileFenced s n = true) (hw : repairWindow s n = true) :
    fuseRepair sub tok s = postFirst tok 0
      { setTile n { getTile s n with busy := 2 } s with cmds := s.cmds ++ [{ tok := tok, work := .repair n false }] } := by
  rw [fuseRepair, hu]
  exact (guarded_pass _ hc).trans ((if_neg (by simp [hf])).trans (if_neg (by simp [hw])))

end Request

theorem exec_fuseRepair {s : State} {sub : Submission} (h : Takes spRepair (fun _ => true) sub s) :
    exec (.fuseRepair sub) s = .next (fuseRepair sub (tokIn s sub) (taken sub s)) :=
  congrArg Host.Outcome.next (runCmd_takes _ h)

/-! ### REPAIR_COMPLETE -/

section Complete

variable {s : State} {n : Nat} {c : PendingCmd} {cells : List (Nat × Nat)}

theorem repairComplete_first (bad : List Nat) (hc : s.cmds.find? (repairOf n) = some c) (hwork : c.work = .repair n false) :
    repairComplete n cells bad s = repairBlow n c cells bad s := by
  simp only [repairComplete, hc]
  exact if_neg (by simp [hwork])

theorem repairComplete_second (bad : List Nat) (hc : s.cmds.find? (repairOf n) = some c) (hwork : c.work = .repair n true) :
    repairComplete n cells bad s = repairVerify n c cells s := by
  simp only [repairComplete, hc]
  exact if_pos hwork

theorem repairBlow_uncoverable (bad : List Nat) (hcov : repairCover (getTile s n) (leftFaults (getTile s n) cells) = none) :
    repairBlow n c cells bad s =
      repairEnds n c stFENCED (bistRecord cells (getTile s n)) { s with cmds := s.cmds.erase c } := by
  simp only [repairBlow, hcov]

theorem repairBlow_windowLeft {cov : Cover} (bad : List Nat)
    (hcov : repairCover (getTile s n) (leftFaults (getTile s n) cells) = some cov)
    (hleft : leftFaults (getTile s n) cells ≠ []) (hw : repairWindow s n = false) :
    repairBlow n c cells bad s =
      repairEnds n c stTEMP_WINDOW (bistRecord cells (getTile s n)) { s with cmds := s.cmds.erase c } := by
  simp only [repairBlow, hcov]
  exact if_pos (by simp [hleft, hw])

theorem repairBlow_blows {cov : Cover} {bad : List Nat} {t' : TileStat} {idx : Nat}
    (hcov : repairCover (getTile s n) (leftFaults (getTile s n) cells) = some cov)
    (hgo : leftFaults (getTile s n) cells = [] ∨ repairWindow s n = true)
    (hblow : blowCover cov bad (bistRecord cells (getTile s n)) s.freeIdx = (t', idx)) :
    repairBlow n c cells bad s = setTile n { t' with busy := 3 } { s with
      freeIdx := idx, cmds := s.cmds.map (fun x => if x = c then { x with work := .repair n true } else x) } := by
  simp only [repairBlow, hcov, hblow]
  refine if_neg ?_
  obtain hnone | hin := hgo
  · simp [hnone]
  · simp [hin]

end Complete

/-! ### The end of a repair -/

theorem getTile_addFence (s : State) (u : UnitRef) (reason n : Nat) : getTile (addFence u reason s) n = getTile s n := by
  unfold addFence
  split <;> rfl

theorem listed_addFence (s : State) (u : UnitRef) (reason : Nat) : listed (addFence u reason s) u = true := by
  unfold addFence
  split
  · assumption
  · simp [listed]

theorem getTile_postFinal (tok : CmdTok) (st : Status) (v0 v1 : Nat) (s : State) (n : Nat) :
    getTile (postFinal tok st v0 v1 s) n = getTile s n := by
  rw [getTile, postFinal, postComp_tiles, getTile]

theorem listed_postFinal (tok : CmdTok) (st : Status) (v0 v1 : Nat) (s : State) (u : UnitRef) :
    listed (postFinal tok st v0 v1 s) u = listed s u := by
  rw [listed, postFinal, postComp_fences, listed]

theorem getTile_repairEnds (n : Nat) (c : PendingCmd) (st : Status) (t : TileStat) (s : State) :
    getTile (repairEnds n c st t s) n = { t with busy := 0 } := by
  unfold repairEnds
  dsimp only
  rw [getTile_postFinal]
  split
  · rw [getTile_addFence, getTile_setTile]
  · exact getTile_setTile s n _

/-- A tile that is left with an uncovered fault is listed as fenced itself (R85). -/
theorem listed_repairEnds (n : Nat) (c : PendingCmd) (st : Status) {t : TileStat} (s : State) (ht : t.uncovered = true) :
    listed (repairEnds n c st t s) (.tile n) = true := by
  unfold repairEnds
  dsimp only
  rw [listed_postFinal, ht, Bool.true_and]
  split
  · exact listed_addFence ..
  next h => simpa using h

/-- Settles O47: the request by its three answers (`fuseRepair_…`), a BIST's end by which of the two it is and what it found
(`repairComplete_…`, `repairBlow_…`), and the lines by `physLine_some`. -/
theorem tileRepairRuns : Obligations.TileRepairRuns := by
  refine ⟨?request, ?complete, ?ends, fun t i k => ⟨physLine_some, physLine_some⟩⟩
  case request =>
    intro s sub n htakes hu hc
    rw [exec_fuseRepair htakes]
    refine ⟨fun hf => ?_, fun hf hw => ?_, fun hf hw t ht => ?_⟩
    · exact congrArg Host.Outcome.next (fuseRepair_unfenced (s := taken sub s) hu hc _ hf)
    · exact congrArg Host.Outcome.next (fuseRepair_outside (s := taken sub s) hu hc _ hf hw)
    · rw [← ht]
      exact congrArg Host.Outcome.next (fuseRepair_starts (s := taken sub s) hu hc _ hf hw)
  case complete =>
    rintro s s1 n c cells bad t hc rfl rfl
    refine ⟨fun hwork => ?_, fun hwork hcov => ?_, fun hwork cov hcov =>
      ⟨fun hleft hw => ?_, fun hgo t' idx hblow => ?_⟩⟩ <;> refine congrArg Host.Outcome.next ?_
    · exact repairComplete_second bad hc hwork
    · exact (repairComplete_first bad hc hwork).trans (repairBlow_uncoverable bad hcov)
    · exact (repairComplete_first bad hc hwork).trans (repairBlow_windowLeft bad hcov hleft hw)
    · exact (repairComplete_first bad hc hwork).trans (repairBlow_blows hcov hgo hblow)
  case ends => exact fun s n c st t => ⟨getTile_repairEnds n c st t s, listed_repairEnds n c st s⟩

end Sys2Proof.Machine
end

section
/-! Passes, fills and exits of the tiles (R70-R78, R120) and the cluster vector unit's step (R88; O38). -/

namespace Sys2Proof.Machine

open Sys2Proof

theorem activeRun_ref {s : State} {ref : TileRef} {r : TileRun} (h : activeRun s ref = some r) : r.ref = ref := by
  unfold activeRun at h
  split at h
  next => cases h
  next q hq =>
    split at h
    next =>
      obtain rfl := Option.some.inj h
      simpa using List.find?_some hq
    next => cases h

/-! ### TILE_PASS -/

section Pass

variable {s : State} {ref : TileRef} {r : TileRun} (ha : activeRun s ref = some r) (hready : passReady r = true)
  (hlive : nodeCancelled s ref.node = false)

include ha hready hlive

theorem tilePass_on (hmove : listCut s r 1 r.pass = none) (hscatter : (runTile r).stream = true → listCut s r 2 r.pass = none) :
    tilePass ref s = passOn r s := by
  have hout : (if (runTile r).stream then listCut s r 2 r.pass else none) = none := by
    split
    next h => exact hscatter h
    next => rfl
  simp [tilePass, ha, hready, hlive, hmove, hout]

theorem tilePass_movingCut {n c : Nat} (hmove : listCut s r 1 r.pass = some (n, c)) : tilePass ref s = passCut r 1 n c s := by
  simp [tilePass, ha, hready, hlive, hmove]

theorem tilePass_scatterCut {n c : Nat} (hmove : listCut s r 1 r.pass = none) (hstream : (runTile r).stream = true)
    (hscatter : listCut s r 2 r.pass = some (n, c)) : tilePass ref s = passCut r 2 n c s := by
  simp [tilePass, ha, hready, hlive, hmove, hstream, hscatter]

end Pass

theorem passOn_accumulate {r : TileRun} (s : State) (h : (runTile r).stream = false) :
    passOn r s = accumulate r (moveLoads r r.pass (slotsPerPass (runTile r)) (fetchList r 1 (slotsPerPass (runTile r)) s)) := by
  simp [passOn, h]

/-! ### STATIONARY_FILL -/

theorem stationaryFill_fills {s : State} {ref : TileRef} {r : TileRun} {p : Nat} (ha : activeRun s ref = some r)
    (hopen : r.ended = false) (hfill : nextFill r = some p) : stationaryFill ref s = fillRegister r p s := by
  simp [stationaryFill, ha, hopen, hfill]

/-! ### BANK_EXIT -/

section Exit

variable {s : State} {ref : TileRef} {r : TileRun} {bank : Bool} {b : Nat} {rest : List (Bool × Nat)}
  (ha : activeRun s ref = some r) (hexits : r.exits = (bank, b) :: rest)

include ha hexits

theorem bankExit_on (hlist : listCut s r 2 b = none) : bankExit ref s = exitOn r bank b s := by
  simp [bankExit, ha, hexits, hlist]

theorem bankExit_cut {n c : Nat} (hlist : listCut s r 2 b = some (n, c)) : bankExit ref s = exitCut r bank b n c s := by
  simp [bankExit, ha, hexits, hlist]

end Exit

theorem exitOn_rows {r : TileRun} (bank : Bool) (b : Nat) (s : State) (h : (runTile r).exit = true) :
    exitOn r bank b s = rowsExit r bank b s :=
  if_pos h

theorem exitOn_groups {r : TileRun} {s1 : State} (bank : Bool) (b : Nat) {s : State} (h : (runTile r).exit = false)
    (hs : fetchList r 2 (slotsPerPass (runTile r)) s = s1) :
    exitOn r bank b s = (bankItems s1 r bank b (slotsPerPass (runTile r))).foldl (fun s items => exitGroup r items s)
      (putRun (advance (popBank r bank)) s1) := by
  rw [← hs]
  exact if_neg (by simp [h])

theorem exitGroup_port {s : State} {r : TileRun} (items : List Item) (h : drainsToPort s r = true) :
    exitGroup r items s = drainPort r items s :=
  if_pos h

/-! ### VECTOR_STEP -/

/-- What a step without a drain stores (R88): at each coordinate of its destination the operation's result there. -/
def vecItems (op : VecOp) (srcs : List VecSrc) (td : TDesc) : List Item :=
  (allCoords td.ext).map (fun c => { coord := c, val := .value (fp32Val (vecResult op srcs c).1.1), poison := (vecResult op srcs c).1.2 })

/-- The descriptors of a step fit each other and its operation (R88-R90). -/
structure VecFits (s : State) (cluster : Nat) (v : VectorDesc) : Prop where
  sources : v.srcs.all (vecTd s cluster) = true
  target : vecTd s cluster v.dst = true
  store : isStore (tdParse v.dst.2.toNat).fmt (tdParse v.dst.2.toNat).scaled = true
  count : (vecSrcs s cluster v).length = vecSources v.op
  shapes : (vecSrcs s cluster v).all (fun x => vecShape v.op x.ext = (tdParse v.dst.2.toNat).ext) = true

/-- A fitting step from the scratchpads alone, none of whose results is poisoned: it reads its sources, stores its results and counts. -/
theorem vectorStep_stores {s : State} {cluster : Nat} {v : VectorDesc} {run : TileRun}
    (hrun : s.tileRuns.find? (fun r => r.ref.core = cluster && isRunning s r.ref.node) = some run) (hdrain : v.drain = none)
    (hfits : VecFits s cluster v)
    (hclean : (vecItems v.op (vecSrcs s cluster v) (tdParse v.dst.2.toNat)).any (fun it => it.poison) = false) :
    ∃ (addrs : List Nat) (trit nan sat : Nat), vectorStep cluster v s =
      countMx cluster trit nan sat 0 (storeAll (addrTile (8 * cluster + v.dst.1)) (tdParse v.dst.2.toNat)
        (vecItems v.op (vecSrcs s cluster v) (tdParse v.dst.2.toNat)) (touch addrs s)).1 := by
  obtain ⟨hsources, htarget, hstore, hcount, hshapes⟩ := hfits
  have hitems : ((allCoords (tdParse v.dst.2.toNat).ext).map (fun c => (c, vecResult v.op (vecSrcs s cluster v) c))).map
      (fun q => { coord := q.1, val := .value (fp32Val q.2.1.1), poison := q.2.1.2 : Item }) =
      vecItems v.op (vecSrcs s cluster v) (tdParse v.dst.2.toNat) := by
    rw [List.map_map]
    rfl
  simp only [vectorStep, hrun, hdrain]
  rw [if_neg (by rw [hsources, htarget, hstore, hcount, hshapes]; simp), hitems, hclean]
  exact ⟨_, _, _, _, rfl⟩

/-- Settles O38: each command of a tile by what it finds in its list (`tilePass_…`, `bankExit_…`), and the vector unit's by
`vectorStep_stores`. -/
theorem tileCommandsRun : Obligations.TileCommandsRun := by
  refine ⟨?pass, fun s r h => passOn_accumulate s h, ?fill, ?exits, fun s r items h => exitGroup_port items h, ?vector⟩
  case pass =>
    intro s ref r ha hready hlive
    exact ⟨fun hmove hscatter => congrArg Host.Outcome.next (tilePass_on ha hready hlive hmove hscatter),
      fun n c hmove => congrArg Host.Outcome.next (tilePass_movingCut ha hready hlive hmove),
      fun n c hmove hstream hscatter => congrArg Host.Outcome.next (tilePass_scatterCut ha hready hlive hmove hstream hscatter)⟩
  case fill => exact fun s ref r p ha hopen hfill => congrArg Host.Outcome.next (stationaryFill_fills ha hopen hfill)
  case exits =>
    intro s ref r bank b rest ha hexits
    refine ⟨fun hlist hexit => ?_, fun hlist hexit s1 hs => ?_, fun n c hlist s1 hs => ?_⟩ <;> refine congrArg Host.Outcome.next ?_
    · exact (bankExit_on ha hexits hlist).trans (exitOn_rows bank b s hexit)
    · exact (bankExit_on ha hexits hlist).trans (exitOn_groups bank b hexit hs)
    · obtain rfl := activeRun_ref ha
      rw [← hs]
      exact bankExit_cut ha hexits hlist
  case vector =>
    rintro s cluster v run srcs td items hrun hdrain rfl rfl hsources htarget hstore hcount hshapes rfl hclean
    obtain ⟨addrs, trit, nan, sat, hstep⟩ := vectorStep_stores hrun hdrain ⟨hsources, htarget, hstore, hcount, hshapes⟩ hclean
    exact ⟨addrs, trit, nan, sat, congrArg Host.Outcome.next hstep⟩

end Sys2Proof.Machine
end

section
/-! Integer and move instructions of the engines (R146-R148, R151, R153, R170; O39). -/

namespace Sys2Proof.Machine

open Sys2Proof

/-! ### The operands of one lane -/

namespace SameLane

variable {i : Nat} {g h : Group}

theorem reg (hs : SameLane i g h) (r : BitVec 6) : rv h i r.toNat = rv g i r.toNat := (hs.1 _ r.isLt).1

theorem regPoison (hs : SameLane i g h) (r : BitVec 6) : rpo h i r.toNat = rpo g i r.toNat := (hs.1 _ r.isLt).2

theorem pred (hs : SameLane i g h) (k : Nat) : pv h i k = pv g i k := by
  rw [hs.2.2]
  rfl

end SameLane

/-- The immediate of the I class is IMM bits 23:0 sign-extended (R151). -/
theorem ofInt_signed_imm (x : BitVec 32) : BitVec.ofInt 32 (signed 24 (bits x.toNat 23 0)) = (x.setWidth 24).signExtend 32 := by
  have hint : signed 24 (bits x.toNat 23 0) = (x.setWidth 24).toInt := by
    rw [BitVec.toInt_eq_toNat_cond, BitVec.toNat_setWidth]
    simp only [signed, bits, Nat.shiftRight_zero]
    omega
  rw [hint, BitVec.signExtend]

theorem operandB_imm {g : Group} {w : EngFields} {i : Nat} (h : w.imm.getLsbD 31 = true) :
    operandB g w i = ((w.imm.setWidth 24).signExtend 32, false) := by
  rw [← ofInt_signed_imm]
  exact if_pos h

theorem operandB_reg {g : Group} {w : EngFields} {i : Nat} (h : w.imm.getLsbD 31 = false) :
    operandB g w i = (rv g i w.b.toNat, rpo g i w.b.toNat) :=
  if_neg (Bool.eq_false_iff.mp h)

theorem SameLane.operandB {i : Nat} {g h : Group} (hs : SameLane i g h) (w : EngFields) :
    Machine.operandB h w i = Machine.operandB g w i := by
  simp only [Machine.operandB, hs.reg, hs.regPoison]

/-! ### vD written lane by lane -/

/-- An instruction whose own meaning is to write vD, in each lane of a list, with a value formed from that lane alone. -/
theorem lanes_written {ins : Instr} {op : EngOp} {at_ : Issue} {w : EngFields} {body : Body} {s : State} {run : EngineRun} {g : Group}
    {l : List Nat} (hexec : exec ins s = .next (issue op at_ w body s)) (hr : readyGroup op at_ w s = some (run, g)) (hn : l.Nodup)
    (hl : ∀ i ∈ l, i < 32) (f : Nat → Group → BitVec 32 × Bool) (hf : ∀ i g h, i < 32 → SameLane i g h → f i h = f i g)
    (hbody : body at_.engine run g s =
      .ok { s := s, g := eachLane l (fun i h => wv i w.d.toNat (f i h).1 (f i h).2 h) g, goes := .on }) :
    ∃ h, exec ins s = .next (advanced op at_ w run g h s) ∧
      RegsBecome g h l (fun i r => if r = w.d.toNat then some (f i g) else none) :=
  ⟨_, hexec.trans (congrArg Host.Outcome.next (issue_on hr hbody)), regs_eachLane hn hl w.d.isLt f hf g⟩

/-! ### The two-operand instructions (R147, R148, R151, R170) -/

/-- What a two-operand instruction writes to vD of a lane, with the poison of its sources. -/
def aluLane (f : BitVec 32 → BitVec 32 → BitVec 32) (w : EngFields) (i : Nat) (g : Group) : BitVec 32 × Bool :=
  (f (rv g i w.a.toNat) (operandB g w i).1, rpo g i w.a.toNat || (operandB g w i).2)

theorem some_aluLane (f : BitVec 32 → BitVec 32 → BitVec 32) (w : EngFields) (i : Nat) (g : Group) :
    some (aluLane f w i g) = if w.imm.getLsbD 31 then
        some (f (rv g i w.a.toNat) ((w.imm.setWidth 24).signExtend 32), rpo g i w.a.toNat)
      else some (f (rv g i w.a.toNat) (rv g i w.b.toNat), rpo g i w.a.toNat || rpo g i w.b.toNat) := by
  cases himm : w.imm.getLsbD 31 with
  | true => simp [aluLane, operandB_imm himm]
  | false => simp [aluLane, operandB_reg himm]

theorem aluTwo_written {ins : Instr} {op : EngOp} {at_ : Issue} {w : EngFields} {f : BitVec 32 → BitVec 32 → BitVec 32} {s : State}
    {run : EngineRun} {g : Group} (hexec : exec ins s = .next (issue op at_ w (aluTwo f w) s))
    (hr : readyGroup op at_ w s = some (run, g)) :
    ∃ h, exec ins s = .next (advanced op at_ w run g h s) ∧
      RegsBecome g h (guarded_ g w) (fun i r => if r = w.d.toNat then some (aluLane f w i g) else none) :=
  lanes_written hexec hr (nodup_guarded g w) (fun _ => lane_guarded) (aluLane f w)
    (fun i g h _ hs => by simp only [aluLane, hs.reg, hs.regPoison, hs.operandB]) rfl

/-- The guarded two-operand instructions of the I class, each with its function (R148, R151). -/
def aluTable (w : EngFields) : List (EngOp × (Issue → EngFields → Instr) × (BitVec 32 → BitVec 32 → BitVec 32)) :=
  [(.iadd, .iadd, fun a b => a + b), (.imul, .imul, fun a b => a * b), (.and_, .and_, fun a b => a &&& b),
   (.or_, .or_, fun a b => a ||| b), (.xor_, .xor_, fun a b => a ^^^ b), (.shl, .shl, fun a b => a <<< (b.toNat % 32)),
   (.shr, .shr, fun a b => if w.imm.getLsbD 24 then a.sshiftRight (b.toNat % 32) else a >>> (b.toNat % 32))]

theorem exec_aluTable {op : EngOp} {c : Issue → EngFields → Instr} {f : BitVec 32 → BitVec 32 → BitVec 32} (at_ : Issue) {w : EngFields}
    (s : State) (h : (op, c, f) ∈ aluTable w) : exec (c at_ w) s = .next (issue op at_ w (aluTwo f w) s) := by
  have hall : ∀ q ∈ aluTable w, exec (q.2.1 at_ w) s = .next (issue q.1 at_ w (aluTwo q.2.2 w) s) := by
    simp only [aluTable, List.forall_mem_cons]
    exact ⟨rfl, rfl, rfl, rfl, rfl, rfl, rfl, fun _ hq => absurd hq List.not_mem_nil⟩
  exact hall _ h

/-! ### SEL (R146, R170) -/

theorem selBody_poisoned {w : EngFields} {e i : Nat} {run : EngineRun} {g : Group} {s : State} (hi : i ∈ activeLanes g)
    (hpo : ppo g i (w.c.toNat % 8) = true) : selBody w e run g s = .error csPOISONED :=
  if_pos (List.any_eq_true.mpr ⟨i, hi, hpo⟩)

/-- What SEL writes to vD of a lane: the register that its predicate selects. -/
def selLane (w : EngFields) (i : Nat) (g : Group) : BitVec 32 × Bool :=
  let r := if pv g i (w.c.toNat % 8) then w.a.toNat else w.b.toNat
  (rv g i r, rpo g i r)

theorem selLane_eq (w : EngFields) (i : Nat) (g : Group) :
    selLane w i g =
      if pv g i (w.c.toNat % 8) then (rv g i w.a.toNat, rpo g i w.a.toNat) else (rv g i w.b.toNat, rpo g i w.b.toNat) := by
  unfold selLane
  split <;> rfl

theorem SameLane.selLane {i : Nat} {g h : Group} (hs : SameLane i g h) (w : EngFields) : Machine.selLane w i h = Machine.selLane w i g := by
  simp only [selLane_eq, hs.pred, hs.reg, hs.regPoison]

theorem selBody_ok {w : EngFields} {e : Nat} {run : EngineRun} {g : Group} {s : State}
    (h : ∀ i, i ∈ activeLanes g → ppo g i (w.c.toNat % 8) = false) :
    selBody w e run g s = .ok
      { s := s, g := eachLane (activeLanes g) (fun i h => wv i w.d.toNat (selLane w i h).1 (selLane w i h).2 h) g, goes := .on } :=
  if_neg (by simpa using h)

/-- Settles O39: each instruction writes vD lane by lane (`lanes_written`), the two-operand ones with operand B of R151
(`some_aluLane`). -/
theorem engineIntegerRuns : Obligations.EngineIntegerRuns := by
  refine ⟨⟨?alu, ?imad⟩, ?movi, ?sreg, ?sel⟩
  case alu =>
    intro s at_ w run g op c f hop hr
    simpa only [some_aluLane] using aluTwo_written (exec_aluTable at_ s hop) hr
  case imad =>
    intro s at_ w run g hr
    exact lanes_written (Eq.refl (exec (.imad at_ w) s)) hr (nodup_active g) (fun _ => lane_active)
      (fun i h => (rv h i w.a.toNat * rv h i w.b.toNat + rv h i w.c.toNat, rpo h i w.a.toNat || rpo h i w.b.toNat || rpo h i w.c.toNat))
      (fun i g h _ hs => by simp only [hs.reg, hs.regPoison]) rfl
  case movi =>
    intro s at_ w run g hr
    exact lanes_written (Eq.refl (exec (.movi at_ w) s)) hr (nodup_guarded g w) (fun _ => lane_guarded)
      (fun _ _ => (w.imm, false)) (fun _ _ _ _ _ => rfl) rfl
  case sreg =>
    intro s at_ w run g hr
    exact lanes_written (Eq.refl (exec (.sreg at_ w) s)) hr (nodup_guarded g w) (fun _ => lane_guarded)
      (fun i _ => (BitVec.ofNat 32 (specialValue at_.engine run g i (bits w.imm.toNat 7 0)).1,
        (specialValue at_.engine run g i (bits w.imm.toNat 7 0)).2)) (fun _ _ _ _ _ => rfl) rfl
  case sel =>
    intro s at_ w run g hr
    refine ⟨fun hclean => ?_, fun i hi hpo => congrArg Host.Outcome.next (issue_fault hr (selBody_poisoned hi hpo))⟩
    simpa only [selLane_eq] using lanes_written (Eq.refl (exec (.sel at_ w) s)) hr (nodup_active g) (fun _ => lane_active) (selLane w)
      (fun _ _ _ _ hs => hs.selLane w) (selBody_ok hclean)

end Sys2Proof.Machine
end

section
/-! Branches, barriers and counter waits of the engines, and what releases them (R136-R138, R147, R152, R167; O41). -/

namespace Sys2Proof.Machine

open Sys2Proof

/-! ### BRA (R152) -/

theorem braBody_clean {w : EngFields} {e : Nat} {run : EngineRun} {g : Group} {s : State}
    (h : ∀ i, i ∈ activeLanes g → ppo g i (w.c.toNat % 8) = false) :
    braBody w e run g s = if (guarded_ g w).isEmpty then .ok { s := s, g := g, goes := .on }
      else .ok { s := s, g := g, goes := if braTaken g w then .to (bits w.imm.toNat 12 0) else .on } :=
  if_neg (by simpa using h)

/-- With a thread that takes part, conditions 0 and 1 branch, and 2 and 3 where every ACTIVE thread takes part. -/
theorem braTaken_iff {g : Group} {w : EngFields} (h : guarded_ g w ≠ []) :
    braTaken g w = true ↔ bits w.imm.toNat 15 14 ≤ 1 ∨ guarded_ g w = activeLanes g := by
  unfold braTaken
  split
  next h0 => simp [h0]
  next h1 => simp [h1, h]
  next h0 h1 =>
    have hcode : ¬ bits w.imm.toNat 15 14 ≤ 1 := fun hle => by
      obtain h | h := Nat.le_one_iff_eq_zero_or_eq_one.mp hle
      · exact h0 h
      · exact h1 h
    simp [hcode]

theorem issue_bra {at_ : Issue} {w : EngFields} {run : EngineRun} {g : Group} {s : State} (hr : readyGroup .bra at_ w s = some (run, g))
    (h : ∀ i, i ∈ activeLanes g → ppo g i (w.c.toNat % 8) = false) :
    issue .bra at_ w (braBody w) s =
      if guarded_ g w ≠ [] ∧ (bits w.imm.toNat 15 14 ≤ 1 ∨ guarded_ g w = activeLanes g) then
        branched .bra at_ w g g (bits w.imm.toNat 12 0) s else advanced .bra at_ w run g g s := by
  by_cases hnone : guarded_ g w = []
  · rw [if_neg (fun hc => hc.1 hnone)]
    exact issue_on hr ((braBody_clean h).trans (if_pos (by simp [hnone])))
  · have hbody := (braBody_clean (e := at_.engine) (run := run) (s := s) h).trans (if_neg (by simpa using hnone))
    by_cases htaken : braTaken g w = true
    · rw [if_pos ⟨hnone, (braTaken_iff hnone).mp htaken⟩]
      exact issue_to hr (hbody.trans (by rw [if_pos htaken]))
    · rw [if_neg (fun hc => htaken ((braTaken_iff hnone).mpr hc.2))]
      exact issue_on hr (hbody.trans (by rw [if_neg htaken]))

/-! ### WAITC (R167) -/

section Waitc

variable {w : EngFields} {e lead : Nat} {rest : List Nat} {run : EngineRun} {g : Group} {s : State} (hl : guarded_ g w = lead :: rest)

include hl

theorem waitcBody_imm (himm : w.imm.getLsbD 4 = true) :
    waitcBody w e run g s =
      .ok { s := s, g := { g with wait := .counter (bits w.imm.toNat 3 0) (bits w.imm.toNat 31 8) }, goes := .on } := by
  have hbit : bit w.imm.toNat 4 = true := himm
  simp [waitcBody, hl, hbit]

theorem waitcBody_reg (himm : w.imm.getLsbD 4 = false) (hpo : rpo g lead w.a.toNat = false) :
    waitcBody w e run g s =
      .ok { s := s, g := { g with wait := .counter (bits w.imm.toNat 3 0) (rv g lead w.a.toNat).toNat }, goes := .on } := by
  have hbit : bit w.imm.toNat 4 = false := himm
  simp [waitcBody, hl, hbit, hpo]

end Waitc

/-! ### A change of one launch -/

/-- Changing a launch moves the launches alone. -/
theorem modEngine_frame (e : Nat) (f : EngineRun → EngineRun) (s : State) :
    modEngine e f s = { s with engines := (modEngine e f s).engines } := by
  unfold modEngine
  split <;> rfl

theorem modEngine_some {e : Nat} {f : EngineRun → EngineRun} {s : State} {run : EngineRun} (hr : SMap.get none s.engines e = some run) :
    modEngine e f s = { s with engines := SMap.set none s.engines e (some (f run)) } := by
  simp only [modEngine, hr]

theorem get_modEngine_same (e : Nat) (f : EngineRun → EngineRun) (s : State) :
    SMap.get none (modEngine e f s).engines e = (SMap.get none s.engines e).map f := by
  cases hr : SMap.get none s.engines e with
  | none => simp [modEngine, hr]
  | some run => simp [modEngine_some hr]

theorem get_modEngine_other {e k : Nat} (f : EngineRun → EngineRun) (s : State) (h : k ≠ e) :
    SMap.get none (modEngine e f s).engines k = SMap.get none s.engines k := by
  cases hr : SMap.get none s.engines e with
  | none => simp [modEngine, hr]
  | some run => simp only [modEngine_some hr, SMap.get_set_other _ _ _ h]

/-- What the launches alone decide stays so over a second change of them. -/
theorem engines_trans {s t u : State} (hst : t = { s with engines := t.engines }) (htu : u = { t with engines := u.engines }) :
    u = { s with engines := u.engines } := by
  rw [htu, hst]

/-! ### The barriers' releases (R136, R137) -/

/-- A group that no longer waits on a barrier. -/
def pastBarrier (b : Wait) (g : Group) : Group := if g.wait = b then { g with wait := .none } else g

theorem pastBarrier_twice (b : Wait) (g : Group) : pastBarrier b (pastBarrier b g) = pastBarrier b g := by
  unfold pastBarrier
  by_cases hg : g.wait = b <;> simp [hg]

/-- A launch whose groups no longer wait on a barrier. -/
def released (b : Wait) (run : EngineRun) : EngineRun := { run with groups := run.groups.map (pastBarrier b) }

theorem releaseWait_eq (e : Nat) (b : Wait) (s : State) : releaseWait e b s = modEngine e (released b) s := rfl

/-- Where every group waits on the barrier, every group goes on. -/
theorem released_all {b : Wait} {run : EngineRun} (h : ∀ g, g ∈ run.groups → g.wait = b) :
    released b run = { run with groups := run.groups.map (fun g => { g with wait := .none }) } := by
  have hmap : run.groups.map (pastBarrier b) = run.groups.map (fun g => { g with wait := .none }) :=
    List.map_congr_left (fun g hg => if_pos (h g hg))
  rw [released, hmap]

theorem released_twice (b : Wait) (run : EngineRun) : released b (released b run) = released b run := by
  simp [released, pastBarrier_twice]

theorem allWait_iff (run : EngineRun) (b : Wait) :
    allWait run b = true ↔ run.groups ≠ [] ∧ ∀ g, g ∈ run.groups → g.wait = b := by
  simp [allWait]

theorem engineRelease_all {e : Nat} {run : EngineRun} {s : State} (hr : SMap.get none s.engines e = some run) (hne : run.groups ≠ [])
    (hall : ∀ g, g ∈ run.groups → g.wait = .engineBarrier) :
    engineRelease e s = { s with
      engines := SMap.set none s.engines e (some { run with groups := run.groups.map (fun g => { g with wait := .none }) }) } := by
  simp only [engineRelease, hr]
  rw [if_pos ((allWait_iff _ _).mpr ⟨hne, hall⟩), releaseWait_eq, modEngine_some hr, released_all hall]

/-- The releases of a list of launches. -/
def releaseEach (b : Wait) (runs : List (Nat × EngineRun)) (s : State) : State := runs.foldl (fun s r => releaseWait r.1 b s) s

theorem releaseEach_frame (b : Wait) (runs : List (Nat × EngineRun)) (s : State) :
    releaseEach b runs s = { s with engines := (releaseEach b runs s).engines } := by
  induction runs generalizing s with
  | nil => rfl
  | cons r runs ih => exact engines_trans (modEngine_frame r.1 (released b) s) (ih (releaseWait r.1 b s))

theorem get_releaseEach (b : Wait) (runs : List (Nat × EngineRun)) (e : Nat) (s : State) :
    SMap.get none (releaseEach b runs s).engines e =
      if e ∈ runs.map Prod.fst then (SMap.get none s.engines e).map (released b) else SMap.get none s.engines e := by
  induction runs generalizing s with
  | nil => rfl
  | cons r runs ih =>
    refine (ih (releaseWait r.1 b s)).trans ?_
    rw [releaseWait_eq, List.map_cons]
    by_cases he : e = r.1
    · have htwice : ∀ o : Option EngineRun, (o.map (released b)).map (released b) = o.map (released b) := fun o => by
        cases o <;> simp [released_twice]
      rw [he, get_modEngine_same, htwice, ite_self, if_pos List.mem_cons_self]
    · rw [get_modEngine_other _ _ he]
      simp only [List.mem_cons, he, false_or]

theorem mem_groupRuns {n e : Nat} {run : EngineRun} {s : State} (h : (e, run) ∈ groupRuns n s) :
    SMap.get none s.engines e = some run ∧ run.groups ≠ [] := by
  obtain ⟨i, -, hi⟩ := List.mem_filterMap.mp h
  split at hi
  next r hr =>
    split at hi
    next => cases hi
    next hne =>
      obtain ⟨rfl, rfl⟩ := Prod.mk.inj (Option.some.inj hi)
      exact ⟨hr, by simpa using hne⟩
  next => cases hi

theorem groupRelease_all {n : Nat} {s : State} (hne : groupRuns n s ≠ [])
    (hall : ∀ r, r ∈ groupRuns n s → ∀ g, g ∈ r.2.groups → g.wait = .groupBarrier) :
    groupRelease n s = releaseEach .groupBarrier (groupRuns n s) s := by
  have hwait : (groupRuns n s).all (fun r => allWait r.2 .groupBarrier) = true :=
    List.all_eq_true.mpr (fun r hr => (allWait_iff _ _).mpr ⟨(mem_groupRuns hr).2, hall r hr⟩)
  exact if_pos (by simpa [hne] using hwait)

/-! ### The release of a counter wait (R138) -/

/-- A group of a slot after its counter has been looked at. -/
def counted (slot : Nat) (counters : SMap Nat) (g : Group) : Group :=
  match g.wait with
  | .counter c v => if g.slot = slot ∧ v ≤ SMap.get 0 counters c then { g with wait := .none } else g
  | _ => g

theorem waitcGo_eq (at_ : Issue) (s : State) :
    waitcGo at_ s = modEngine at_.engine (fun run => { run with groups := run.groups.map (counted at_.slot run.counters) }) s := rfl

theorem counted_reached {slot c v : Nat} {counters : SMap Nat} {g : Group} (hw : g.wait = .counter c v) (hslot : g.slot = slot)
    (h : v ≤ SMap.get 0 counters c) : counted slot counters g = { g with wait := .none } := by
  simp [counted, hw, hslot, h]

theorem counted_waits {slot c v : Nat} {counters : SMap Nat} {g : Group} (hw : g.wait = .counter c v)
    (h : SMap.get 0 counters c < v) : counted slot counters g = g := by
  simp [counted, hw, Nat.not_le.mpr h]

/-- Settles O41: each instruction's own meaning under the rules of issue, and the releases by the launches that they change
(`get_releaseEach`, `waitcGo_eq`). -/
theorem engineControlRuns : Obligations.EngineControlRuns := by
  refine ⟨fun s at_ w run g => ⟨fun hr => ?nop, fun hr => ?end_, fun hr => ?bare, fun hr => ?barg, fun hr hclean => ?bra,
    fun hr lead rest hl himm => ?waitcImm, fun hr lead rest hl himm hpo => ?waitcReg⟩, ?engineBarrier, ?groupBarrier, ?counter⟩
  case nop => exact congrArg Host.Outcome.next (issue_on hr rfl)
  case end_ => exact congrArg Host.Outcome.next (issue_ends hr rfl)
  case bare => exact congrArg Host.Outcome.next (issue_on hr rfl)
  case barg => exact congrArg Host.Outcome.next (issue_on hr rfl)
  case bra => exact congrArg Host.Outcome.next (issue_bra hr hclean)
  case waitcImm => exact congrArg Host.Outcome.next (issue_on hr (waitcBody_imm hl himm))
  case waitcReg => exact congrArg Host.Outcome.next (issue_on hr (waitcBody_reg hl himm hpo))
  case engineBarrier =>
    rintro s e run free hr hne hall rfl
    exact congrArg Host.Outcome.next (engineRelease_all hr hne hall)
  case groupBarrier =>
    intro s n hne hall
    refine ⟨_, congrArg Host.Outcome.next (groupRelease_all hne hall), releaseEach_frame _ _ _, fun e run he => ?_, fun e he => ?_⟩
    · rw [get_releaseEach, if_pos (List.mem_map_of_mem (f := Prod.fst) he), (mem_groupRuns he).1, Option.map_some, released_all (hall _ he)]
    · rw [get_releaseEach, if_neg]
      intro hmem
      obtain ⟨⟨_, run⟩, hrun, rfl⟩ := List.mem_map.mp hmem
      exact he run hrun
  case counter =>
    intro s at_ run g c v hr hg hslot hw
    have hmem := List.mem_map_of_mem (f := counted at_.slot run.counters) hg
    refine ⟨_, _, congrArg Host.Outcome.next (waitcGo_eq at_ s), modEngine_frame _ _ _,
      (get_modEngine_same _ _ _).trans (congrArg (Option.map _) hr), fun hv => ?_, fun hv => ?_⟩
    · rwa [counted_reached hw hslot hv] at hmem
    · rwa [counted_waits hw hv] at hmem

end Sys2Proof.Machine
end

section
/-! GCOPY, XCHG and SPRT, the landing of granules, and the sprout port (R138-R142, R165-R168, R192-R194, R219; O45). -/

namespace Sys2Proof.Machine

open Sys2Proof

/-! ### Reads of memory without errors (R289) -/

/-- No granule is poisoned or holds an error. -/
def errorFree (s : State) : Prop := s.sramErr = [] ∧ s.dramErr = [] ∧ s.poison = []

theorem fetchGranule_clean {s : State} (h : errorFree s) (g : Nat) : fetchGranule g s = ((granuleBytes s g, false), s) := by
  obtain ⟨hsram, hdram, hpoison⟩ := h
  unfold fetchGranule
  split
  · exact if_pos (by simp [hdram, hpoison])
  · exact if_pos (by simp [hsram, hpoison])

theorem fetchGranules_clean {s : State} (h : errorFree s) (n g : Nat) :
    ∃ bs, fetchGranules n g s = (bs, s) ∧ ∀ b, b ∈ bs → b.2 = false := by
  induction n generalizing g with
  | zero => exact ⟨[], rfl, fun _ hb => absurd hb List.not_mem_nil⟩
  | succ n ih =>
    obtain ⟨bs, hbs, hclean⟩ := ih (g + 1)
    refine ⟨(granuleBytes s g).map (fun b => (b, false)) ++ bs, ?_, fun b hb => ?_⟩
    · simp only [fetchGranules, fetchGranule_clean h, hbs]
    · obtain hb | hb := List.mem_append.mp hb
      · obtain ⟨_, -, rfl⟩ := List.mem_map.mp hb
        rfl
      · exact hclean b hb

/-- A read of memory without errors changes nothing and finds no poison. -/
theorem fetchBytes_clean {s : State} (h : errorFree s) (a len : Nat) :
    ∃ bs, fetchBytes a len s = (bs, s) ∧ ∀ b, b ∈ bs → b.2 = false := by
  unfold fetchBytes
  split
  · exact ⟨[], rfl, fun _ hb => absurd hb List.not_mem_nil⟩
  · obtain ⟨bs, hbs, hclean⟩ := fetchGranules_clean h ((a + len - 1) / 64 + 1 - a / 64) (a / 64)
    refine ⟨(bs.drop (a % 64)).take len, ?_, fun b hb => hclean b (List.mem_of_mem_drop (List.mem_of_mem_take hb))⟩
    simp only [hbs]

/-! ### GCOPY (R165) -/

section Gcopy

variable (s s1 : State) (e : Nat) (run : EngineRun) (g : Group) (w : EngFields) (lead : Nat) (db : List (Byte × Bool)) (t : TDesc)

/-- The first granule of a GCOPY in device memory. -/
def gcopyFirst : Nat := t.base / 64 + (rv g lead w.c.toNat).toNat

/-- Its number of granules. -/
def gcopyCount : Nat := bits w.imm.toNat 11 0 + 1

/-- A GCOPY that has read the bytes `db` as its descriptor, which give the tensor `t`, passes its checks (R165, R171). -/
structure GcopyFits : Prop where
  clean : rpo g lead w.a.toNat = false ∧ rpo g lead w.b.toNat = false ∧ rpo g lead w.c.toNat = false
  descLocal : localOk run.desc (rv g lead w.a.toNat).toNat 128 = true
  dataLocal : localOk run.desc (rv g lead w.b.toNat).toNat (64 * gcopyCount w) = true
  descClean : db.any (fun b => b.2) = false
  descOk : tdOk (leNat (db.map (fun b => b.1))) = true
  tensor : tdParse (leNat (db.map (fun b => b.1))) = t
  aligned : t.base % 64 = 0
  device : t.space ≠ 1 ∧ tdWindow t = false
  span : (tdGranules t).1 ≤ gcopyFirst g w lead t ∧
    gcopyFirst g w lead t + gcopyCount w ≤ (tdGranules t).1 + (tdGranules t).2
  reach : rangeFault s run.node.pod (6 + e / 64) (64 * gcopyFirst g w lead t) (64 * gcopyCount w) (w.imm.getLsbD 12) = none

/-- What a GCOPY does after it has read its descriptor. -/
def gcopyMoves : State :=
  if w.imm.getLsbD 12 then copyOut run e (rv g lead w.b.toNat).toNat (gcopyCount w) (gcopyFirst g w lead t) s1
  else copyIn run (t.lc && run.desc.lc) e (rv g lead w.b.toNat).toNat (bits w.imm.toNat 19 16) (gcopyCount w)
    (gcopyFirst g w lead t) s1

variable {s s1 e run g w lead db t}

theorem gcopyBody_ok {rest : List Nat} (hl : activeLanes g = lead :: rest)
    (hread : readLocal e (rv g lead w.a.toNat).toNat 128 s = (db, s1)) (hfits : GcopyFits s e run g w lead db t) :
    gcopyBody w e run g s = .ok { s := gcopyMoves s1 e run g w lead t, g := g, goes := .on } := by
  obtain ⟨⟨hpa, hpb, hpc⟩, hdesc, hdata, hclean, hok, htensor, haligned, ⟨hspace, hwindow⟩, ⟨hlow, hhigh⟩, hreach⟩ := hfits
  have hbit : bit w.imm.toNat 12 = w.imm.getLsbD 12 := rfl
  simp only [gcopyFirst, gcopyCount] at hdata hlow hhigh hreach
  unfold gcopyBody
  rw [hl]
  refine (if_neg (by simp [hpa, hpb, hpc])).trans ?_
  refine (if_neg (by simp [hdesc, hdata])).trans ?_
  rw [hread]
  refine (if_neg (Bool.eq_false_iff.mp hclean)).trans ?_
  rw [htensor]
  refine (if_neg (by simp [hok, haligned])).trans ?_
  refine (if_neg (by simpa [hspace, hwindow] using And.intro hlow hhigh)).trans ?_
  rw [hbit, hreach]
  rfl

end Gcopy

/-! ### XCHG (R139, R142, R166) -/

section Xchg

variable {run : EngineRun} {e lead off n : Nat} {rest : List Nat} {w : EngFields} {g : Group} {s : State}

theorem xchgBody_ok (hl : guarded_ g w = lead :: rest) (hoff : (rv g lead w.a.toNat).toNat = off) (hn : (rv g lead w.b.toNat).toNat = n)
    (hclean : rpo g lead w.a.toNat = false ∧ rpo g lead w.b.toNat = false) (hstks : onesOf 16 (bits w.imm.toNat 15 0) ≠ [])
    (hcount : 1 ≤ n ∧ n ≤ 4096) (haligned : off % 64 = 0) (hlocal : localOk run.desc off (64 * n) = true)
    (hdest : (onesOf 16 (bits w.imm.toNat 15 0)).findSome? (destFault s run.node.pod e w.imm.toNat) = none) :
    xchgBody w e run g s =
      .ok { s := sendBlock run e off n w.imm.toNat (onesOf 16 (bits w.imm.toNat 15 0)) s, g := g, goes := .on } := by
  obtain ⟨hpa, hpb⟩ := hclean
  have hzero : n ≠ 0 := Nat.pos_iff_ne_zero.mp hcount.1
  have hmany : ¬ 4096 < n := Nat.not_lt.mpr hcount.2
  unfold xchgBody
  rw [hl]
  refine (if_neg (by simp [hpa, hpb])).trans ?_
  rw [hoff, hn]
  refine (if_neg (by simp [hstks, hzero, hmany, haligned, hlocal])).trans ?_
  rw [hdest]

/-- The granules of one read of a block, on their way to each stack of the set. -/
def granuleFlights (run : EngineRun) (e off imm : Nat) (stks : List Nat) (bs : List (Byte × Bool)) (s : State) : List Flight :=
  stks.map (fun st => flightOf run.node e .exchange (destEngines s imm st) off (bits imm 27 24) bs)

theorem sendBlock_succ {imm : Nat} {stks : List Nat} {bs : List (Byte × Bool)} {t : State}
    (hread : readLocal e (off + 64 * n) 64 (sendBlock run e off n imm stks s) = (bs, t)) :
    sendBlock run e off (n + 1) imm stks s =
      { t with flights := t.flights ++ granuleFlights run e (off + 64 * n) imm stks bs t } := by
  unfold sendBlock at hread ⊢
  rw [List.range_succ, List.foldl_append, List.foldl_cons, List.foldl_nil, hread]
  rfl

/-- A flight of an exchange of a node, free of poison. -/
def cleanExchange (node : NodeRef) (f : Flight) : Prop := f.node = node ∧ f.what = .exchange ∧ f.poisoned = false

theorem granuleFlights_clean {run : EngineRun} {e off imm : Nat} {stks : List Nat} {bs : List (Byte × Bool)} {s : State}
    (h : ∀ b, b ∈ bs → b.2 = false) : ∀ f, f ∈ granuleFlights run e off imm stks bs s → cleanExchange run.node f := by
  intro f hf
  obtain ⟨_, -, rfl⟩ := List.mem_map.mp hf
  exact ⟨rfl, rfl, List.any_eq_false.mpr (fun b hb => by simp [h b hb])⟩

/-- In memory without errors a block only adds its flights: one for each granule and stack, none of them poisoned. -/
theorem sendBlock_clean (run : EngineRun) (e off n imm : Nat) (stks : List Nat) {s : State} (h : errorFree s) :
    ∃ l, sendBlock run e off n imm stks s = { s with flights := s.flights ++ l } ∧ l.length = n * stks.length ∧
      ∀ f, f ∈ l → cleanExchange run.node f := by
  induction n with
  | zero => exact ⟨[], by simp [sendBlock], by simp, fun _ hf => absurd hf List.not_mem_nil⟩
  | succ n ih =>
    obtain ⟨l, hl, hlen, hclean⟩ := ih
    obtain ⟨bs, hbs, hbytes⟩ := fetchBytes_clean (s := { s with flights := s.flights ++ l }) h (addrLocal e + (off + 64 * n)) 64
    refine ⟨l ++ granuleFlights run e (off + 64 * n) imm stks bs { s with flights := s.flights ++ l }, ?_, ?_, fun f hf => ?_⟩
    · rw [sendBlock_succ (bs := bs) (t := { s with flights := s.flights ++ l }) (by rw [hl]; exact hbs), List.append_assoc]
    · simp [hlen, granuleFlights, Nat.succ_mul]
    · obtain hf | hf := List.mem_append.mp hf
      · exact hclean f hf
      · exact granuleFlights_clean hbytes f hf

end Xchg

/-! ### SPRT (R168) -/

/-- The write that an SPRT hands to its port. -/
def sprtWrite (run : EngineRun) (e lead : Nat) (g : Group) (w : EngFields) (bs : List (Byte × Bool)) : PortWrite :=
  { node := run.node, src := 6 + e / 64, sprt := true, stream := (rv g lead w.b.toNat).toNat, pos := (rv g lead w.c.toNat).toNat,
    layer := bits w.imm.toNat 7 0, value := w.imm.getLsbD 16, pieces := [(0, bs)] }

theorem sprtBody_ok {run : EngineRun} {e lead off n : Nat} {rest : List Nat} {w : EngFields} {g : Group} {s s1 : State}
    {bs : List (Byte × Bool)} (hl : activeLanes g = lead :: rest) (hoff : (rv g lead w.a.toNat).toNat = off)
    (hn : bits w.imm.toNat 15 8 = n)
    (hclean : rpo g lead w.a.toNat = false ∧ rpo g lead w.b.toNat = false ∧ rpo g lead w.c.toNat = false) (hzero : n ≠ 0)
    (hlocal : localOk run.desc off (64 * n) = true) (hread : readLocal e off (64 * n) s = (bs, s1)) :
    sprtBody w e run g s =
      .ok { s := { s1 with portq := s1.portq ++ [sprtWrite run e lead g w bs] }, g := g, goes := .on } := by
  obtain ⟨hpa, hpb, hpc⟩ := hclean
  unfold sprtBody
  rw [hl]
  refine (if_neg (by simp [hpa, hpb, hpc])).trans ?_
  rw [hoff, hn]
  refine (if_neg (by simp [hzero, hlocal])).trans ?_
  rw [hread]
  rfl

/-! ### Landing (R138, R140, R194, R293) -/

theorem exchangeLand_lands {s : State} {i off : Nat} {f : Flight} (hf : flightAt s i = some f) (hoff : f.off = some off) :
    exchangeLand i s = landFlight f off { s with flights := s.flights.eraseIdx i } := by
  simp [exchangeLand, hf, hoff]

theorem sproutLand_lands {s : State} {i : Nat} {f : Flight} (hf : flightAt s i = some f) (hsprout : f.sprout = true) :
    sproutLand i s = landSprout f { s with flights := s.flights.eraseIdx i } := by
  simp [sproutLand, hf, hsprout]

theorem lands_none {s : State} {i : Nat} (h : flightAt s i = none) : exchangeLand i s = s ∧ sproutLand i s = s := by
  simp [exchangeLand, sproutLand, h]

theorem sameGranule_symm {f h : Flight} (hfh : sameGranule f h = true) : sameGranule h f = true := by
  simp only [sameGranule, Bool.and_eq_true, decide_eq_true_eq] at hfh ⊢
  obtain ⟨⟨hsrc, hsprout⟩, hbytes⟩ := hfh
  refine ⟨⟨hsrc.symm, hsprout.symm⟩, ?_⟩
  rw [← hsprout]
  cases hkind : f.sprout with
  | true =>
    simp only [hkind, if_true, List.any_eq_true, Bool.and_eq_true, decide_eq_true_eq] at hbytes ⊢
    obtain ⟨q, hq, x, hx, hqx, hxq⟩ := hbytes
    exact ⟨x, hx, q, hq, hxq, hqx⟩
  | false =>
    simp only [hkind, Bool.false_eq_true, if_false, Bool.and_eq_true, decide_eq_true_eq, List.any_eq_true, List.contains_iff_mem] at hbytes ⊢
    obtain ⟨hoff, e, hef, heh⟩ := hbytes
    exact ⟨hoff.symm, e, heh, hef⟩

/-- A flight to a granule of an earlier one from its source does not land before it (R293). -/
theorem flightAt_held {s : State} {i j : Nat} {f h : Flight} (hf : s.flights[i]? = some f) (hh : s.flights[j]? = some h) (hji : j < i)
    (hsame : sameGranule h f = true) : flightAt s i = none := by
  have hmem : h ∈ s.flights.take i := List.mem_of_getElem? ((List.getElem?_take_of_lt hji).trans hh)
  have hany : (s.flights.take i).any (sameGranule f) = true := List.any_eq_true.mpr ⟨h, hmem, sameGranule_symm hsame⟩
  simp only [flightAt, hf, hany, if_true]

/-! ### The sprout port (R192, R193, R219, R476) -/

section Port

variable {s : State} {p : PortWrite}

theorem sproutWrite_takes {i : Nat} (h : s.portq[i]? = some p) :
    sproutWrite i s = portTake p { s with portq := s.portq.eraseIdx i } := by
  simp only [sproutWrite, h]

theorem portTake_sink {n : Nat} (h : portCheck s p = .sink n) :
    portTake p s = modStream p.stream (fun e => { e with dropped := satAdd 0xFFFFFFFF e.dropped n }) s := by
  simp only [portTake, h]

theorem portTake_fault {c : Nat} (h : portCheck s p = .fault c) : portTake p s = faultNode p.node c s := by
  simp only [portTake, h]

variable {ws : List (Nat × List (Byte × Bool))} {st n : Nat} (h : portCheck s p = .write ws st n)

include h

theorem portTake_unreachable (hroute : ws.any (fun q => !reachable s p.src q.1) = true) : portTake p s = faultNode p.node csFENCED s := by
  simp only [portTake, h]
  exact if_pos hroute

theorem portTake_sends (hroute : ws.any (fun q => !reachable s p.src q.1) = false) :
    ∃ f, portTake p s = { countWindow p n s with flights := (countWindow p n s).flights ++ [f] } ∧ f.sprout = true ∧ f.node = p.node ∧
      f.writes = ws ∧ f.engines = [st] ∧ f.chan = 15 := by
  simp only [portTake, h]
  rw [if_neg (Bool.eq_false_iff.mp hroute)]
  exact ⟨_, rfl, rfl, rfl, rfl, rfl, rfl⟩

end Port

/-- Settles O45: the three instructions' own meanings under the rule of issue, the block's flights by induction on its granules
(`sendBlock_clean`), the landings by what `flightAt` lets land, and the port by what its check says (`portTake_…`). -/
theorem engineExchangesRun : Obligations.EngineExchangesRun := by
  refine ⟨?gcopy, ?xchg, ?sprt, ?exchangeLand, ?port, ?held, ?sproutLand⟩
  case gcopy =>
    rintro s s1 at_ w run g lead doff loff n first rest db t hr hl rfl rfl rfl hpa hpb hpc hdesc hdata hread hclean hok rfl haligned hspace
      hwindow rfl hlow hhigh hreach
    have hbody := gcopyBody_ok hl hread
      ⟨⟨hpa, hpb, hpc⟩, hdesc, hdata, hclean, hok, rfl, haligned, ⟨hspace, hwindow⟩, ⟨hlow, hhigh⟩, hreach⟩
    exact ⟨fun hout => congrArg Host.Outcome.next (issue_on hr (hbody.trans (by rw [gcopyMoves, if_pos hout]; rfl))),
      fun hin => congrArg Host.Outcome.next (issue_on hr (hbody.trans (by rw [gcopyMoves, if_neg (Bool.eq_false_iff.mp hin)]; rfl)))⟩
  case xchg =>
    intro s at_ w run g lead off n rest hr hl hoff hn hpa hpb hstks hlow hhigh haligned hlocal hdest
    exact ⟨congrArg Host.Outcome.next (issue_on hr (xchgBody_ok hl hoff hn ⟨hpa, hpb⟩ hstks ⟨hlow, hhigh⟩ haligned hlocal hdest)),
      fun hsram hdram hpoison => sendBlock_clean _ _ _ _ _ _ ⟨hsram, hdram, hpoison⟩⟩
  case sprt =>
    rintro s s1 at_ w run g lead off n rest bs p hr hl hoff hn hpa hpb hpc hzero hlocal hread rfl
    exact congrArg Host.Outcome.next (issue_on hr (sprtBody_ok hl hoff hn ⟨hpa, hpb, hpc⟩ hzero hlocal hread))
  case exchangeLand => exact fun s i off f hf hoff => congrArg Host.Outcome.next (exchangeLand_lands hf hoff)
  case port =>
    rintro s i p s1 hp rfl
    have htake : exec (.sproutWrite i) s = .next (portTake p { s with portq := s.portq.eraseIdx i }) :=
      congrArg Host.Outcome.next (sproutWrite_takes hp)
    rw [htake]
    refine ⟨fun n h => congrArg _ (portTake_sink h), fun c h => congrArg _ (portTake_fault h),
      fun ws st n h hroute => congrArg _ (portTake_unreachable h hroute), fun ws st n h hroute => ?_⟩
    obtain ⟨f, hsent, hflight⟩ := portTake_sends h hroute
    exact ⟨f, congrArg _ hsent, hflight⟩
  case held =>
    intro s i j f h hf hh hji hsame
    obtain ⟨hexchange, hsprout⟩ := lands_none (flightAt_held hf hh hji hsame)
    exact ⟨congrArg Host.Outcome.next hexchange, congrArg Host.Outcome.next hsprout⟩
  case sproutLand => exact fun s i f hf hsprout => congrArg Host.Outcome.next (sproutLand_lands hf hsprout)

end Sys2Proof.Machine
end

section
/-! The instruction words of the bank engines (R144, R148; O3). -/

namespace Sys2Proof.Machine

open Sys2Proof

/-! ### Opcode numbers (R148) -/

theorem mem_allOps (o : EngOp) : o ∈ allOps := by
  cases o <;> decide

theorem opOf_opCode (o : EngOp) : opOf (opCode o) = some o := by
  cases o <;> decide

theorem opCode_of_opOf {c : BitVec 8} {o : EngOp} (h : opOf c = some o) : opCode o = c := by
  simpa using List.find?_some h

theorem opOf_eq_none {c : BitVec 8} : opOf c = none ↔ ∀ o, opCode o ≠ c := by
  simp [opOf, List.find?_eq_none, mem_allOps]

/-! ### The fields of a word (R144)

The width of a word is kept as the sum of its fields' widths (`-Nat.reduceAdd`), by which the laws of `++` find the fields. -/

theorem extract_opcode_encodeWord (o : EngOp) (f : EngFields) : (encodeWord o f).extractLsb' 56 8 = opCode o := by
  simp [encodeWord, BitVec.extractLsb'_append_eq_of_le, -Nat.reduceAdd]

theorem fieldsOf_encodeWord (o : EngOp) (f : EngFields) : fieldsOf (encodeWord o f) = f := by
  simp [fieldsOf, encodeWord, BitVec.extractLsb'_append_eq_of_le, BitVec.extractLsb'_append_eq_right, -Nat.reduceAdd]

theorem append_fields_eq (w : BitVec 64) :
    w.extractLsb' 56 8 ++ (fieldsOf w).d ++ (fieldsOf w).a ++ (fieldsOf w).b ++ (fieldsOf w).c ++ (fieldsOf w).imm = w := by
  simp [fieldsOf, BitVec.extractLsb'_append_extractLsb'_eq_extractLsb', -Nat.reduceAdd]

theorem decodeWord_eq_some {w : BitVec 64} {o : EngOp} {f : EngFields} :
    decodeWord w = some (o, f) ↔ opOf (w.extractLsb' 56 8) = some o ∧ fieldsOf w = f := by
  unfold decodeWord
  cases opOf (w.extractLsb' 56 8) with
  | none => simp only [Option.map_none, reduceCtorEq, false_and]
  | some o' => simp only [Option.map_some, Option.some.injEq, Prod.mk.injEq]

/-- Settles O3: the opcode numbers are one to one (`opOf_opCode`), and a word is its opcode and fields put together
(`append_fields_eq`). -/
theorem engineWordsRoundTrip : Obligations.EngineWordsRoundTrip := by
  refine ⟨fun o f => ?decode, fun w o f h => ?encode, fun w => ?invalid⟩
  case decode =>
    rw [decodeWord_eq_some, extract_opcode_encodeWord]
    exact ⟨opOf_opCode o, fieldsOf_encodeWord o f⟩
  case encode =>
    obtain ⟨hop, rfl⟩ := decodeWord_eq_some.mp h
    have hcode : opCode o = w.extractLsb' 56 8 := opCode_of_opOf hop
    refine ⟨?_, hcode, rfl, rfl, rfl, rfl, rfl⟩
    rw [encodeWord, hcode]
    exact append_fields_eq w
  case invalid => exact Option.map_eq_none_iff.trans opOf_eq_none

end Sys2Proof.Machine
end

section
/-! Pairs of registers and predicates of engine lanes (R145, R170), written lane by lane. -/

namespace Sys2Proof.Machine

open Sys2Proof

/-! ### A pair of registers -/

/-- Registers d and d + 1 of one lane written. -/
theorem regs_wv_pair {i d : Nat} (hi : i < 32) (hd : d ≤ 62) (x y : BitVec 32) (po : Bool) (g : Group) :
    RegsBecome g (wv i (d + 1) y po (wv i d x po g)) [i]
      (fun _ r => if r = d then some (x, po) else if r = d + 1 then some (y, po) else none) := by
  obtain ⟨hlow, hlowPred, hlowRest⟩ := regs_wv hi (by omega : d < 64) x po g
  obtain ⟨hhigh, hhighPred, hhighRest⟩ := regs_wv hi (by omega : d + 1 < 64) y po (wv i d x po g)
  refine ⟨fun j r hj hr => ?_, fun j k hj hk => (hhighPred j k hj hk).trans (hlowPred j k hj hk), rfl⟩
  rw [hhigh j r hj hr, hlow j r hj hr]
  by_cases hji : j = i
  · by_cases hrd : r = d
    · simp [hji, hrd]
    · by_cases hrd' : r = d + 1 <;> simp [hji, hrd, hrd']
  · simp [hji]

/-- Registers d and d + 1 written with the same pair in every lane of a list. -/
theorem regs_eachLane_pair {l : List Nat} (hn : l.Nodup) (hl : ∀ i ∈ l, i < 32) {d : Nat} (hd : d ≤ 62) (x y : BitVec 32) (po : Bool)
    (g : Group) :
    RegsBecome g (eachLane l (fun i h => wv i (d + 1) y po (wv i d x po h)) g) l
      (fun _ r => if r = d then some (x, po) else if r = d + 1 then some (y, po) else none) :=
  regs_lanes hn hl _ (fun _ _ r => if r = d then some (x, po) else if r = d + 1 then some (y, po) else none)
    (fun _ g hi => regs_wv_pair hi hd x y po g) (fun _ _ _ _ _ => rfl) g

/-! ### One predicate -/

theorem rpo_wp {i k j r : Nat} (x po : Bool) (g : Group) (hj : j < 32) (hr : r < 64) : rpo (wp i k x po g) j r = rpo g j r := by
  unfold wp
  split
  · rfl
  · exact SMap.get_set_other _ _ _ (by omega)

theorem wp_zero (i : Nat) (x po : Bool) (g : Group) : wp i 0 x po g = g := if_pos rfl

theorem pred_wp_same {i k : Nat} (hk : k ≠ 0) (x po : Bool) (g : Group) :
    (pv (wp i k x po g) i k, ppo (wp i k x po g) i k) = (x, po) := by
  simp [pv, ppo, wp, hk]

theorem pred_wp_other {i k j q : Nat} (x po : Bool) (g : Group) (hk : k < 8) (hq : q < 8) (h : j ≠ i ∨ q ≠ k) :
    (pv (wp i k x po g) j q, ppo (wp i k x po g) j q) = (pv g j q, ppo g j q) := by
  by_cases hk0 : k = 0
  · rw [hk0, wp_zero]
  · simp only [pv, ppo, wp, if_neg hk0]
    rw [SMap.get_set_other _ _ _ (by omega), SMap.get_set_other _ _ _ (by omega)]

/-- Lane i reads the same registers and predicates, with their poison, in two groups. -/
def ReadsAlike (i : Nat) (g h : Group) : Prop :=
  (∀ r, r < 64 → rv h i r = rv g i r ∧ rpo h i r = rpo g i r) ∧ ∀ k, k < 8 → pv h i k = pv g i k ∧ ppo h i k = ppo g i k

namespace ReadsAlike

variable {i : Nat} {g h : Group}

theorem reg (hs : ReadsAlike i g h) (r : BitVec 6) : rv h i r.toNat = rv g i r.toNat := (hs.1 _ r.isLt).1

theorem regPoison (hs : ReadsAlike i g h) (r : BitVec 6) : rpo h i r.toNat = rpo g i r.toNat := (hs.1 _ r.isLt).2

theorem pred (hs : ReadsAlike i g h) (k : Nat) : pv h i (k % 8) = pv g i (k % 8) := (hs.2 _ (Nat.mod_lt _ (by decide))).1

theorem predPoison (hs : ReadsAlike i g h) (k : Nat) : ppo h i (k % 8) = ppo g i (k % 8) := (hs.2 _ (Nat.mod_lt _ (by decide))).2

end ReadsAlike

namespace PredBecomes

variable {g h : Group} {l : List Nat} {d : Nat} {new : Nat → Bool × Bool}

/-- What a lane reads of itself while other lanes have been written is as at first. -/
theorem readsAlike (hb : PredBecomes g h l d new) {i : Nat} (hi : i < 32) (hl : i ∉ l) : ReadsAlike i g h := by
  obtain ⟨hpred, hreg, hrest⟩ := hb
  refine ⟨fun r hr => ⟨?_, hreg i r hi hr⟩, fun k hk => Prod.mk.inj ?_⟩
  · rw [hrest]; rfl
  · simpa [hl] using hpred i k hi hk

/-- One more lane's predicate written. -/
theorem wp (hb : PredBecomes g h l d new) {i : Nat} (hi : i < 32) (hd : d < 8) {x po : Bool} (hx : (x, po) = new i) :
    PredBecomes g (Machine.wp i d x po h) (l ++ [i]) d new := by
  obtain ⟨hpred, hreg, hrest⟩ := hb
  refine ⟨fun j k hj hk => ?_, fun j r hj hr => (rpo_wp x po h hj hr).trans (hreg j r hj hr), ?_⟩
  · by_cases hjk : j = i ∧ k = d
    · obtain ⟨rfl, rfl⟩ := hjk
      by_cases hk0 : k = 0
      · subst hk0
        rw [wp_zero, hpred j 0 hj hk]
        simp
      · rw [pred_wp_same hk0, hx]
        simp [hk0]
    · have hlanes : (j ∈ l ++ [i] ∧ k = d ∧ k ≠ 0) ↔ (j ∈ l ∧ k = d ∧ k ≠ 0) := by
        rw [List.mem_append, List.mem_singleton]
        exact ⟨fun ⟨hjl, hkd, hk0⟩ => ⟨hjl.resolve_right fun hji => hjk ⟨hji, hkd⟩, hkd, hk0⟩, fun ⟨hjl, hkd⟩ => ⟨.inl hjl, hkd⟩⟩
      rw [pred_wp_other x po h hd hk (by omega), hpred j k hj hk]
      simp only [hlanes]
  · unfold Machine.wp
    split
    · exact hrest
    · rw [hrest]

/-- More lanes' predicates written, each with a value that the lane forms of itself. -/
theorem andLanes {f : Nat → Group → Bool × Bool} (hf : ∀ i g h, ReadsAlike i g h → f i h = f i g) {more : List Nat}
    (hn : (l ++ more).Nodup) (hl : ∀ i ∈ more, i < 32) (hd : d < 8) (hb : PredBecomes g h l d (fun i => f i g)) :
    PredBecomes g (Machine.eachLane more (fun i h => Machine.wp i d (f i h).1 (f i h).2 h) h) (l ++ more) d (fun i => f i g) := by
  induction more generalizing h l with
  | nil =>
    rw [List.append_nil]
    exact hb
  | cons i more ih =>
    obtain ⟨hi, hmore⟩ := List.forall_mem_cons.mp hl
    have hfresh : i ∉ l := fun hil => (List.nodup_append.mp hn).2.2 i hil i List.mem_cons_self rfl
    have hstep := hb.wp hi hd (hf i g h (hb.readsAlike hi hfresh))
    rw [List.append_cons] at hn ⊢
    exact ih hn hmore hstep

/-- Predicate d written in each lane of a list with a value that the lane forms of itself. -/
theorem eachLane {l : List Nat} (hn : l.Nodup) (hl : ∀ i ∈ l, i < 32) (hd : d < 8) (f : Nat → Group → Bool × Bool)
    (hf : ∀ i g h, ReadsAlike i g h → f i h = f i g) (g : Group) :
    PredBecomes g (Machine.eachLane l (fun i h => Machine.wp i d (f i h).1 (f i h).2 h) g) l d (fun i => f i g) :=
  andLanes (l := []) hf hn hl hd ⟨fun _ _ _ _ => (if_neg fun h => List.not_mem_nil h.1).symm, fun _ _ _ _ => rfl, rfl⟩

end PredBecomes

end Sys2Proof.Machine
end

section
/-! The largest of several FP32 values and its lowest index (R88, R161; O6). -/

namespace Sys2Proof.Machine

open Sys2Proof

/-! ### Folds that keep the better of two -/

/-- A fold that keeps its value unless the next has a larger key ends with the largest key of all. -/
theorem foldl_keeps_largest {α : Type} (key : α → Int) (better : α → α → α) (x : α) (l : List α)
    (hb : ∀ a ∈ x :: l, ∀ b ∈ x :: l, better a b = if key a < key b then b else a) :
    l.foldl better x ∈ x :: l ∧ ∀ y ∈ x :: l, key y ≤ key (l.foldl better x) := by
  induction l generalizing x with
  | nil => exact ⟨List.mem_singleton_self x, fun y hy => by rw [List.mem_singleton.mp hy]; exact Int.le_refl _⟩
  | cons z l ih =>
    have hx : x ∈ x :: z :: l := List.mem_cons_self
    have hz : z ∈ x :: z :: l := List.mem_cons_of_mem _ List.mem_cons_self
    obtain ⟨hbest, hkx, hkz⟩ : better x z ∈ x :: z :: l ∧ key x ≤ key (better x z) ∧ key z ≤ key (better x z) := by
      rw [hb x hx z hz]
      split
      · exact ⟨hz, by omega, by omega⟩
      · exact ⟨hx, by omega, by omega⟩
    have hsub : ∀ y ∈ better x z :: l, y ∈ x :: z :: l :=
      List.forall_mem_cons.mpr ⟨hbest, fun y hy => List.mem_cons_of_mem _ (List.mem_cons_of_mem _ hy)⟩
    obtain ⟨hmem, hle⟩ := ih (better x z) (fun a ha b hb' => hb a (hsub a ha) b (hsub b hb'))
    obtain ⟨hfirst, hrest⟩ := List.forall_mem_cons.mp hle
    exact ⟨hsub _ hmem, List.forall_mem_cons.mpr ⟨Int.le_trans hkx hfirst, List.forall_mem_cons.mpr ⟨Int.le_trans hkz hfirst, hrest⟩⟩⟩

theorem lowest_spec {l : List (BitVec 32)} (h : l ≠ []) : lowest l ∈ l ∧ ∀ x ∈ l, (lowest l).toNat ≤ x.toNat := by
  cases l with
  | nil => exact absurd rfl h
  | cons a l =>
    obtain ⟨hmem, hle⟩ := foldl_keeps_largest (fun x : BitVec 32 => -(x.toNat : Int)) (fun m x => if x.toNat < m.toNat then x else m) a l
      (fun x _ y _ => by simp only [Int.neg_lt_neg_iff, Int.ofNat_lt])
    exact ⟨hmem, fun x hx => Int.ofNat_le.mp (Int.neg_le_neg_iff.mp (hle x hx))⟩

/-! ### The order of FP32 values (R41, R88) -/

/-- The form of the values that FP32 words have: a finite one is at most 24 bits at a power of two from -149 to 104. -/
def Fp32Form (x : FVal) : Prop :=
  match x with
  | .fin _ m e => m < 2 ^ 24 ∧ -149 ≤ e ∧ e ≤ 104
  | _ => True

theorem fp32Form_fp32Val (a : BitVec 32) : Fp32Form (fp32Val a) := by
  have htop : ∀ c : Nat, ¬0x7F7FFFFF < c → c / 2 ^ 23 ≤ 254 := fun c h => by omega
  simp only [fp32Val, fltDecode, fltFP32, Option.isSome_some, Option.some.injEq, and_true, Nat.shiftRight_eq_div_pow]
  split
  · split <;> trivial
  · next hfinite =>
    have hexp := htop _ hfinite
    have hmant := Nat.mod_lt (a.toNat % 2 ^ (32 - 1)) (Nat.two_pow_pos 23)
    split <;> exact ⟨by omega, by omega, by omega⟩

/-- Above every finite FP32 value, in units of 2^-149. -/
def fp32Bound : Int := 2 ^ 24 * 2 ^ 253

/-- A value of FP32 in units of 2^-149, an infinity beyond all of them. -/
def fp32Rank (x : FVal) : Int :=
  match x with
  | .nan => 0
  | .inf neg => if neg then -fp32Bound else fp32Bound
  | .fin neg m e => fvInt neg m e (-149)

theorem fp32Rank_inf (neg : Bool) : fp32Rank (.inf neg) = if neg then -fp32Bound else fp32Bound := rfl

/-- A magnitude at a power of two, counted in units of a lower one. -/
theorem fvInt_units (neg : Bool) (m : Nat) {e q r : Int} (hq : q ≤ e) (hr : r ≤ q) :
    fvInt neg m e r = fvInt neg m e q * 2 ^ (q - r).toNat := by
  have hexp : (e - r).toNat = (e - q).toNat + (q - r).toNat := by omega
  have hmag : ((m <<< (e - r).toNat : Nat) : Int) = ((m <<< (e - q).toNat : Nat) : Int) * 2 ^ (q - r).toNat := by
    rw [hexp, Nat.shiftLeft_eq, Nat.shiftLeft_eq, Nat.pow_add, ← Nat.mul_assoc, Int.natCast_mul, Int.natCast_pow]
    rfl
  unfold fvInt
  dsimp only
  cases neg with
  | false => exact hmag
  | true =>
    rw [if_pos rfl, if_pos rfl, hmag, Int.neg_mul]

theorem fp32Rank_fin_bounds {neg : Bool} {m : Nat} {e : Int} (h : Fp32Form (.fin neg m e)) :
    -fp32Bound < fp32Rank (.fin neg m e) ∧ fp32Rank (.fin neg m e) < fp32Bound := by
  obtain ⟨hm, hlow, hhigh⟩ := h
  have hmag : m <<< (e - -149).toNat < 2 ^ 24 * 2 ^ 253 := by
    rw [Nat.shiftLeft_eq]
    exact Nat.mul_lt_mul_of_lt_of_le hm (Nat.pow_le_pow_right (by decide) (by omega)) (Nat.two_pow_pos _)
  have hbound : fp32Bound = ((2 ^ 24 * 2 ^ 253 : Nat) : Int) := rfl
  simp only [fp32Rank, fvInt, hbound]
  generalize 2 ^ 24 * 2 ^ 253 = top at hmag ⊢
  generalize m <<< (e - -149).toNat = mag at hmag ⊢
  split <;> omega

/-- Two finite values compare as their magnitudes in units of a power of two that is not above either's. -/
theorem fvCmp_fin {a b : Bool} {m n : Nat} {e f r : Int} (he : r ≤ e) (hf : r ≤ f) :
    (fvCmp (.fin a m e) (.fin b n f) = -1 ↔ fvInt a m e r < fvInt b n f r) ∧
      (fvCmp (.fin a m e) (.fin b n f) = 0 ↔ fvInt a m e r = fvInt b n f r) := by
  have hmin : r ≤ min e f := Int.le_min.mpr ⟨he, hf⟩
  have hpos : (0 : Int) < 2 ^ (min e f - r).toNat := Int.pow_pos (by decide)
  rw [fvInt_units a m (Int.min_le_left e f) hmin, fvInt_units b n (Int.min_le_right e f) hmin, Int.mul_lt_mul_right hpos,
    Int.mul_eq_mul_right_iff (Int.ne_of_gt hpos)]
  simp only [fvCmp]
  split
  · omega
  · split <;> omega

theorem fvCmp_inf_inf (a b : Bool) : fvCmp (.inf a) (.inf b) = if a = b then 0 else if a then -1 else 1 := rfl

theorem fvCmp_inf_fin (a b : Bool) (n : Nat) (f : Int) : fvCmp (.inf a) (.fin b n f) = if a then -1 else 1 := rfl

theorem fvCmp_fin_inf (a b : Bool) (m : Nat) (e : Int) : fvCmp (.fin a m e) (.inf b) = if b then 1 else -1 := rfl

/-- The comparison of two FP32 values that are not NaN is that of their ranks. -/
theorem fvCmp_fp32Rank {x y : FVal} (hx : Fp32Form x) (hy : Fp32Form y) (hxn : fvIsNan x = false) (hyn : fvIsNan y = false) :
    (fvCmp x y = -1 ↔ fp32Rank x < fp32Rank y) ∧ (fvCmp x y = 0 ↔ fp32Rank x = fp32Rank y) := by
  cases x with
  | nan => exact absurd hxn Bool.noConfusion
  | inf a =>
    cases y with
    | nan => exact absurd hyn Bool.noConfusion
    | inf b =>
      rw [fvCmp_inf_inf, fp32Rank_inf, fp32Rank_inf]
      cases a <;> cases b <;> decide
    | fin b n f =>
      obtain ⟨hlow, hhigh⟩ := fp32Rank_fin_bounds hy
      rw [fvCmp_inf_fin, fp32Rank_inf]
      split <;> omega
  | fin a m e =>
    cases y with
    | nan => exact absurd hyn Bool.noConfusion
    | inf b =>
      obtain ⟨hlow, hhigh⟩ := fp32Rank_fin_bounds hx
      rw [fvCmp_fin_inf, fp32Rank_inf]
      split <;> omega
    | fin b n f => exact fvCmp_fin hx.2.1 hy.2.1

/-- Between equal numbers the sign decides: -0 below +0. -/
def signKey (neg : Bool) : Int := if neg then 0 else 1

theorem signKey_bounds (a : Bool) : 0 ≤ signKey a ∧ signKey a ≤ 1 := by
  cases a <;> decide

theorem signKey_lt (a b : Bool) : signKey a < signKey b ↔ (a && !b) = true := by
  cases a <;> cases b <;> decide

/-- Where an FP32 word stands in the order of FMAX. -/
def fp32Key (a : BitVec 32) : Int := 2 * fp32Rank (fp32Val a) + signKey a.msb

theorem fp32Less_iff {a b : BitVec 32} (ha : fvIsNan (fp32Val a) = false) (hb : fvIsNan (fp32Val b) = false) :
    fp32Less a b = true ↔ fp32Key a < fp32Key b := by
  obtain ⟨hless, hequal⟩ := fvCmp_fp32Rank (fp32Form_fp32Val a) (fp32Form_fp32Val b) ha hb
  have hsa := signKey_bounds a.msb
  have hsb := signKey_bounds b.msb
  simp only [fp32Less, fp32Key]
  split
  · next h =>
    have hrank := hless.mp h
    exact iff_of_true rfl (by omega)
  · next h =>
    have hrank := hequal.mp h
    rw [← signKey_lt]
    omega
  · next hl he =>
    have hrank := mt hless.mpr hl
    have hother := mt hequal.mpr he
    exact iff_of_false Bool.false_ne_true (by omega)

theorem fp32Max_eq {a b : BitVec 32} (ha : fvIsNan (fp32Val a) = false) (hb : fvIsNan (fp32Val b) = false) :
    fp32Max a b = if fp32Key a < fp32Key b then b else a := by
  simp [fp32Max, ha, hb, ← fp32Less_iff ha hb]

/-- The fold of FMAX over words that are not NaNs: it is one of them, and none is above it. -/
theorem foldl_fp32Max (a : BitVec 32) (l : List (BitVec 32)) (h : ∀ x ∈ a :: l, fvIsNan (fp32Val x) = false) :
    l.foldl fp32Max a ∈ a :: l ∧ ∀ x ∈ a :: l, fp32Less (l.foldl fp32Max a) x = false := by
  obtain ⟨hmem, hle⟩ := foldl_keeps_largest fp32Key fp32Max a l (fun x hx y hy => fp32Max_eq (h x hx) (h y hy))
  refine ⟨hmem, fun x hx => Bool.eq_false_iff.mpr fun hless => ?_⟩
  exact Int.not_lt.mpr (hle x hx) ((fp32Less_iff (h _ hmem) (h x hx)).mp hless)

/-! ### MAXI (R161) -/

/-- The lowest index among the pairs that satisfy a condition. -/
theorem lowest_filter {l : List (BitVec 32 × BitVec 32)} {p : BitVec 32 × BitVec 32 → Bool} {k : BitVec 32}
    (hk : lowest ((l.filter p).map (fun q => q.2)) = k) (hp : ∃ q ∈ l, p q = true) :
    (∃ q ∈ l, p q = true ∧ q.2 = k) ∧ ∀ q ∈ l, p q = true → k.toNat ≤ q.2.toNat := by
  obtain ⟨q, hq, hpq⟩ := hp
  have hne : (l.filter p).map (fun q => q.2) ≠ [] :=
    List.ne_nil_of_mem (List.mem_map.mpr ⟨q, List.mem_filter.mpr ⟨hq, hpq⟩, rfl⟩)
  obtain ⟨hmem, hle⟩ := lowest_spec hne
  rw [hk] at hmem hle
  obtain ⟨x, hx, hxk⟩ := List.mem_map.mp hmem
  exact ⟨⟨x, (List.mem_filter.mp hx).1, (List.mem_filter.mp hx).2, hxk⟩,
    fun y hy hpy => hle y.2 (List.mem_map.mpr ⟨y, List.mem_filter.mpr ⟨hy, hpy⟩, rfl⟩)⟩

/-- Of pairs without a NaN: the largest value, and the lowest index that holds it. -/
theorem maxiValue_largest {l : List (BitVec 32 × BitVec 32)} {m k : BitVec 32} (hx : maxiValue l = (m, k)) (hl : l ≠ [])
    (hnan : ∀ q ∈ l, fvIsNan (fp32Val q.1) = false) :
    (∀ q ∈ l, fp32Less m q.1 = false) ∧ (∃ q ∈ l, q.1 = m ∧ q.2 = k) ∧ ∀ q ∈ l, q.1 = m → k.toNat ≤ q.2.toNat := by
  obtain ⟨q, r, rfl⟩ := List.exists_cons_of_ne_nil hl
  have hclean : ((q :: r).filter (fun q => fvIsNan (fp32Val q.1))).isEmpty = true := by simpa using hnan
  simp only [maxiValue, if_pos hclean, Prod.mk.injEq] at hx
  obtain ⟨hm, hk⟩ := hx
  simp only [hm] at hk
  rw [← List.foldl_map] at hm
  obtain ⟨hmem, hmax⟩ := foldl_fp32Max q.1 (r.map (fun x => x.1)) (by simpa using hnan)
  rw [hm, ← List.map_cons] at hmem
  rw [hm] at hmax
  obtain ⟨x, hx, hxm⟩ := List.mem_map.mp hmem
  have hlow := lowest_filter hk ⟨x, hx, by simpa using hxm⟩
  simp only [decide_eq_true_eq] at hlow
  exact ⟨fun y hy => hmax y.1 (List.mem_map_of_mem (f := fun q => q.1) hy), hlow⟩

/-- Of pairs with a NaN among them: the canonical NaN, and the lowest index that holds a NaN. -/
theorem maxiValue_nan {l : List (BitVec 32 × BitVec 32)} {m k : BitVec 32} (hx : maxiValue l = (m, k))
    (hnan : ∃ q ∈ l, fvIsNan (fp32Val q.1) = true) :
    m = 0x7FC00000#32 ∧ (∃ q ∈ l, fvIsNan (fp32Val q.1) = true ∧ q.2 = k) ∧
      ∀ q ∈ l, fvIsNan (fp32Val q.1) = true → k.toNat ≤ q.2.toNat := by
  have hsome : ¬(l.filter (fun q => fvIsNan (fp32Val q.1))).isEmpty = true := by simpa using hnan
  simp only [maxiValue, if_neg hsome, Prod.mk.injEq] at hx
  exact ⟨hx.1.symm, lowest_filter hx.2 hnan⟩

/-- The pairs (value, index) that MAXI compares. -/
def maxiPairs (w : EngFields) (g : Group) : List (BitVec 32 × BitVec 32) :=
  (guarded_ g w).map (fun i => (rv g i w.a.toNat, rv g i w.b.toNat))

theorem forall_maxiPairs {w : EngFields} {g : Group} {p : BitVec 32 × BitVec 32 → Prop} :
    (∀ q ∈ maxiPairs w g, p q) ↔ ∀ i ∈ guarded_ g w, p (rv g i w.a.toNat, rv g i w.b.toNat) := List.forall_mem_map

theorem exists_maxiPairs {w : EngFields} {g : Group} {p : BitVec 32 × BitVec 32 → Prop} :
    (∃ q ∈ maxiPairs w g, p q) ↔ ∃ i ∈ guarded_ g w, p (rv g i w.a.toNat, rv g i w.b.toNat) :=
  ⟨fun ⟨_, hq, hp⟩ => by
    obtain ⟨i, hi, rfl⟩ := List.mem_map.mp hq
    exact ⟨i, hi, hp⟩,
  fun ⟨_, hi, hp⟩ => ⟨_, List.mem_map.mpr ⟨_, hi, rfl⟩, hp⟩⟩

/-- The poison of what MAXI writes: that of any of its sources (R170). -/
def maxiPoison (w : EngFields) (g : Group) : Bool := anyPoison g (guarded_ g w) w.a.toNat || anyPoison g (guarded_ g w) w.b.toNat

/-- MAXI writes the one pair to every lane that takes part. -/
theorem regs_maxiGroup {w : EngFields} {g : Group} {m k : BitVec 32} (hd : w.d.toNat ≤ 62) (hx : maxiValue (maxiPairs w g) = (m, k)) :
    RegsBecome g (maxiGroup w g) (guarded_ g w) (fun _ r =>
      if r = w.d.toNat then some (m, maxiPoison w g) else if r = w.d.toNat + 1 then some (k, maxiPoison w g) else none) := by
  simp only [maxiPairs] at hx
  simp only [maxiGroup, hx]
  exact regs_eachLane_pair (nodup_guarded g w) (fun _ => lane_guarded) hd m k _ g

/-- Settles O6: every lane of MAXI gets the one pair that `maxiValue` gives (`regs_maxiGroup`), the largest by the order of FMAX
(`maxiValue_largest`), or the canonical NaN (`maxiValue_nan`). -/
theorem maxiFindsLargest : Obligations.MaxiFindsLargest := by
  rintro s at_ w run g l hr hd rfl hl
  obtain ⟨⟨m, k⟩, hx⟩ : ∃ x, maxiValue (maxiPairs w g) = x := ⟨_, rfl⟩
  have hexec : exec (.maxi at_ w) s = .next (advanced .maxi at_ w run g (maxiGroup w g) s) :=
    congrArg Host.Outcome.next (issue_on hr rfl)
  refine ⟨maxiGroup w g, m, k, hexec, fun i hi => ?written, fun hclean => ?largest, fun hnan => ?nan, ?zeros⟩
  case written =>
    have hregs := regs_maxiGroup hd hx
    exact ⟨hregs.rv (lane_guarded hi) hi (by omega) (if_pos rfl),
      hregs.rv (lane_guarded hi) hi (by omega) ((if_neg (by omega)).trans (if_pos rfl))⟩
  case largest =>
    simpa only [forall_maxiPairs, exists_maxiPairs] using
      maxiValue_largest hx (mt List.map_eq_nil_iff.mp hl) (forall_maxiPairs.mpr hclean)
  case nan => simpa only [forall_maxiPairs, exists_maxiPairs] using maxiValue_nan hx (exists_maxiPairs.mpr hnan)
  case zeros => decide +kernel

end Sys2Proof.Machine
end

section
/-! PSET, PLOG and LOOP of the engines (R147, R148, R151, R170; O40). -/

namespace Sys2Proof.Machine

open Sys2Proof

/-! ### Predicates lane by lane -/

/-- An instruction whose own meaning is to write pD, in each lane that takes part, with a value that the lane forms of itself. -/
theorem preds_written {ins : Instr} {op : EngOp} {at_ : Issue} {w : EngFields} {s : State} {run : EngineRun} {g : Group}
    (f : Nat → Group → Bool × Bool) (hf : ∀ i g h, ReadsAlike i g h → f i h = f i g)
    (hexec : exec ins s = .next (issue op at_ w (onGroup (fun _ g =>
      eachLane (guarded_ g w) (fun i h => wp i (w.d.toNat % 8) (f i h).1 (f i h).2 h) g)) s))
    (hr : readyGroup op at_ w s = some (run, g)) :
    ∃ h, exec ins s = .next (advanced op at_ w run g h s) ∧ PredBecomes g h (guarded_ g w) (w.d.toNat % 8) (fun i => f i g) :=
  ⟨_, hexec.trans (congrArg Host.Outcome.next (issue_on hr rfl)),
    PredBecomes.eachLane (nodup_guarded g w) (fun _ => lane_guarded) (Nat.mod_lt _ (by decide)) f hf g⟩

theorem ReadsAlike.psetB {i : Nat} {g h : Group} (hs : ReadsAlike i g h) (w : EngFields) : Machine.psetB h w i = Machine.psetB g w i := by
  simp only [Machine.psetB, hs.reg, hs.regPoison]

/-! ### LOOP (R147, R148, R169) -/

section Loop

variable {w : EngFields} {e lead : Nat} {rest : List Nat} {run : EngineRun} {g : Group} {s : State}

theorem loopBody_none (hl : guarded_ g w = []) : loopBody w e run g s = .ok { s := s, g := g, goes := .on } := by
  simp only [loopBody, hl, List.head?_nil]

theorem loopBody_poisoned (hl : guarded_ g w = lead :: rest) (hpo : rpo g lead w.d.toNat = true) :
    loopBody w e run g s = .error csPOISONED := by
  simp only [loopBody, hl, List.head?_cons, if_pos hpo]

theorem loopBody_counts (hl : guarded_ g w = lead :: rest) (hpo : rpo g lead w.d.toNat = false) :
    loopBody w e run g s = .ok
      { s := s, g := wv lead w.d.toNat (rv g lead w.d.toNat - 1) false g,
        goes := if rv g lead w.d.toNat = 1 then .on else .to (bits w.imm.toNat 12 0) } := by
  have hzero : rv g lead w.d.toNat - 1 ≠ 0 ↔ ¬rv g lead w.d.toNat = 1 := by bv_omega
  simp only [loopBody, hl, List.head?_cons, hpo, rv_wv_same, hzero, ite_not]
  rfl

end Loop

/-- Settles O40: PSET and PLOG write pD lane by lane, each lane of its own reads (`preds_written`), and LOOP acts on the lead thread
(`loopBody_counts`). -/
theorem enginePredicatesRun : Obligations.EnginePredicatesRun := by
  refine ⟨?pset, ?plog, ?loop⟩
  case pset =>
    intro s at_ w run g hr
    exact preds_written (fun i h => (psetCompare w.imm.toNat (rv h i w.a.toNat) (psetB h w i).1, rpo h i w.a.toNat || (psetB h w i).2))
      (fun i g h hs => by simp only [hs.reg, hs.regPoison, hs.psetB]) (Eq.refl (exec (.pset at_ w) s)) hr
  case plog =>
    intro s at_ w run g hr
    exact preds_written (fun i h => (plogOp w.imm.toNat (pv h i (w.a.toNat % 8)) (pv h i (w.b.toNat % 8)),
        ppo h i (w.a.toNat % 8) || ppo h i (w.b.toNat % 8)))
      (fun i g h hs => by simp only [hs.pred, hs.predPoison]) (Eq.refl (exec (.plog at_ w) s)) hr
  case loop =>
    refine fun s at_ w run g hr => ⟨fun hl => congrArg Host.Outcome.next (issue_on hr (loopBody_none hl)), fun lead rest hl => ⟨fun hpo =>
      congrArg Host.Outcome.next (issue_fault hr (loopBody_poisoned hl hpo)), fun hpo => ?_⟩⟩
    have hlead : lead < 32 := lane_guarded (hl ▸ List.mem_cons_self)
    have hbody := loopBody_counts (e := at_.engine) (run := run) (s := s) hl hpo
    refine ⟨_, regs_wv hlead w.d.isLt (rv g lead w.d.toNat - 1) false g, congrArg Host.Outcome.next ?_⟩
    split
    · next hone => exact issue_on hr (hbody.trans (by rw [if_pos hone]))
    · next hmore => exact issue_to hr (hbody.trans (by rw [if_neg hmore]))

end Sys2Proof.Machine
end

section
/-! Loads and stores of the engines (R163, R164, R170, R171; O44). -/

namespace Sys2Proof.Machine

open Sys2Proof

/-! ### Width and alignment (R163) -/

theorem accessWidth_cases (w : EngFields) : accessWidth w = 1 ∨ accessWidth w = 2 ∨ accessWidth w = 4 ∨ accessWidth w = 8 := by
  have hlt : bits w.imm.toNat 25 24 < 4 := Nat.mod_lt _ (by decide)
  have hcode : ∀ k, k < 4 → 2 ^ k = 1 ∨ 2 ^ k = 2 ∨ 2 ^ k = 4 ∨ 2 ^ k = 8 := by decide
  exact hcode _ hlt

theorem accessAt_aligned {m : Mem} {write : Bool} {e i : Nat} {run : EngineRun} {g : Group} {w : EngFields} {s : State}
    (h : accessFault m write e run g w s i = none) : accessAt m g w i % accessWidth w = 0 := by
  refine Decidable.byContradiction fun hodd => ?_
  unfold accessFault at h
  simp only [if_pos hodd] at h
  split at h <;> cases h

/-- An access without a fault lies in one granule. -/
theorem access_in_granule {m : Mem} {write : Bool} {e i : Nat} {run : EngineRun} {g : Group} {w : EngFields} {s : State}
    (h : accessFault m write e run g w s i = none) : accessAddr m e (accessAt m g w i) % 64 + accessWidth w ≤ 64 := by
  have halign := accessAt_aligned h
  have hplace : accessAddr m e (accessAt m g w i) % accessWidth w = 0 := by
    rcases accessWidth_cases w with hw | hw | hw | hw <;> rw [hw] at halign ⊢ <;>
      cases m <;> simp only [accessAddr, addrLocal, addrGroup] <;> omega
  rcases accessWidth_cases w with hw | hw | hw | hw <;> rw [hw] at hplace ⊢ <;> omega

/-! ### Loads -/

section Load

variable {m : Mem} {w : EngFields} {e : Nat} {run : EngineRun} {g : Group} {s : State}

theorem loadBody_fault {c : Nat} (h : (guarded_ g w).findSome? (accessFault m false e run g w s) = some c) :
    loadBody m w e run g s = .error c := by
  simp only [loadBody, h]

theorem loadBody_ok (h : (guarded_ g w).findSome? (accessFault m false e run g w s) = none) :
    loadBody m w e run g s = .ok
      { s := ((guarded_ g w).foldl (loadLane m e run w) (g, s)).2, g := ((guarded_ g w).foldl (loadLane m e run w) (g, s)).1, goes := .on } := by
  simp only [loadBody, h]

/-- The group after one lane's load of a value. -/
def loadedGroup (w : EngFields) (i : Nat) (x : Nat × Bool) (g : Group) : Group :=
  let low := wv i w.d.toNat (BitVec.ofNat 32 (loadValue w x.1)) x.2 g
  if accessWidth w = 8 then wv i (w.d.toNat + 1) (BitVec.ofNat 32 (loadValue w x.1 >>> 32)) x.2 low else low

/-- The bytes of one lane's load, and the state that the read leaves. -/
def laneBytes (m : Mem) (e : Nat) (run : EngineRun) (w : EngFields) (g : Group) (s : State) (i : Nat) : List (Byte × Bool) × State :=
  match m with
  | .device => readDevice run.node (accessAddr m e (accessAt m g w i)) (accessWidth w) s
  | _ => fetchBytes (accessAddr m e (accessAt m g w i)) (accessWidth w) s

/-- What one lane's load does once its bytes are read. -/
def afterRead (w : EngFields) (i : Nat) (g : Group) (r : List (Byte × Bool) × State) : Group × State :=
  match r with
  | (bs, s) => (loadedGroup w i (bytesVal bs) g, s)

theorem loadLane_eq (m : Mem) (e : Nat) (run : EngineRun) (w : EngFields) (g : Group) (s : State) (i : Nat) :
    loadLane m e run w (g, s) i = afterRead w i g (laneBytes m e run w g s i) := rfl

theorem laneBytes_eq {i : Nat} {r : List (Byte × Bool) × State}
    (hfetch : m ≠ .device → fetchBytes (accessAddr m e (accessAt m g w i)) (accessWidth w) s = r)
    (hdevice : m = .device → readDevice run.node (accessAddr m e (accessAt m g w i)) (accessWidth w) s = r) :
    laneBytes m e run w g s i = r := by
  cases m with
  | device => exact hdevice rfl
  | local_ => exact hfetch Mem.noConfusion
  | shared => exact hfetch Mem.noConfusion

theorem regs_loadedGroup {i : Nat} (hi : i < 32) (hd : accessWidth w = 8 → w.d.toNat ≤ 62) (x : Nat × Bool) (g : Group) :
    RegsBecome g (loadedGroup w i x g) [i] (fun _ r =>
      if r = w.d.toNat then some (BitVec.ofNat 32 (loadValue w x.1), x.2)
      else if r = w.d.toNat + 1 ∧ accessWidth w = 8 then some (BitVec.ofNat 32 (loadValue w x.1 >>> 32), x.2) else none) := by
  by_cases hw : accessWidth w = 8
  · simpa only [loadedGroup, hw, and_true, if_true] using regs_wv_pair hi (hd hw) _ _ x.2 g
  · simpa only [loadedGroup, if_neg hw, hw, and_false, if_false] using regs_wv hi w.d.isLt _ x.2 g

end Load

/-- The loads, each with its memory (R163, R164). -/
def loadTable : List (EngOp × (Issue → EngFields → Instr) × Mem) := [(.ldl, .ldl, .local_), (.lds, .lds, .shared), (.ldg, .ldg, .device)]

theorem exec_loadTable {op : EngOp} {c : Issue → EngFields → Instr} {m : Mem} (at_ : Issue) (w : EngFields) (s : State)
    (h : (op, c, m) ∈ loadTable) : exec (c at_ w) s = .next (issue op at_ w (loadBody m w) s) := by
  have hall : ∀ q ∈ loadTable, exec (q.2.1 at_ w) s = .next (issue q.1 at_ w (loadBody q.2.2 w) s) := by
    simp only [loadTable, List.forall_mem_cons]
    exact ⟨rfl, rfl, rfl, fun _ hq => absurd hq List.not_mem_nil⟩
  exact hall _ h

/-! ### A write that lands in one granule (R289-R292) -/

theorem getLsbD_maskFrom {k n j : Nat} (hj : j < 64) : (maskFrom k n).getLsbD j = decide (k ≤ j ∧ j < k + n) := by
  rw [maskFrom, BitVec.getLsbD_ofNat, Nat.testBit_shiftLeft, Nat.testBit_two_pow_sub_one]
  by_cases hkj : k ≤ j
  · simp only [hj, hkj, decide_true, Bool.true_and, true_and, decide_eq_decide]
    omega
  · simp [hkj]

theorem maskFrom_ne_allOnes {k n : Nat} (hn : n < 64) : maskFrom k n ≠ BitVec.allOnes 64 := by
  intro h
  have hlow := getLsbD_maskFrom (k := k) (n := n) (j := 0) (by decide)
  have hhigh := getLsbD_maskFrom (k := k) (n := n) (j := 63) (by decide)
  rw [h] at hlow hhigh
  simp at hlow hhigh
  omega

/-- `t` is `s` but for memory, its poison and errors, and the landing counters. -/
def MemoryOnly (s t : State) : Prop :=
  t = { s with mem := t.mem, poison := t.poison, dramErr := t.dramErr, sramErr := t.sramErr, land := t.land }

theorem MemoryOnly.trans {s t u : State} (h : MemoryOnly s t) (h' : MemoryOnly t u) : MemoryOnly s u := by
  unfold MemoryOnly at *
  rw [h', h]

theorem memoryOnly_landGranule (g : Nat) (mask : BitVec 64) (data : List Byte) (s : State) : MemoryOnly s (landGranule g mask data s) := by
  unfold MemoryOnly landGranule landCount
  dsimp only
  split
  · rfl
  · split <;> rfl

/-- What a write of a part of a granule leaves: a poisoned granule as it is, else the masked bytes written. -/
theorem rawByte_landGranule {g : Nat} {mask : BitVec 64} (hmask : mask ≠ BitVec.allOnes 64) (data : List Byte) (s : State) (x : Nat) :
    rawByte (landGranule g mask data s) x =
      if SMap.get false s.poison g = false ∧ 64 * g ≤ x ∧ x < 64 * g + 64 ∧ mask.getLsbD (x - 64 * g) = true then nth 0 data (x - 64 * g)
      else rawByte s x := by
  have hmem : (landGranule g mask data s).mem = if SMap.get false s.poison g then s.mem else putBytes s.zeroed g mask data s.mem := by
    unfold landGranule landCount
    dsimp only
    rw [if_neg hmask]
    split <;> rfl
  have hzero : (landGranule g mask data s).zeroed = s.zeroed := by rw [memoryOnly_landGranule g mask data s]
  rw [rawByte_eq, rawByte_eq, hmem, hzero]
  cases hpo : SMap.get false s.poison g with
  | true => simp
  | false => simpa using cellByte_putBytes s.zeroed g mask data s.mem x

theorem landFrom_nil (fuel a : Nat) (s : State) : landFrom fuel a [] s = s := by
  cases fuel <;> rfl

theorem landFrom_in_granule (fuel : Nat) {a : Nat} {bs : List (Byte × Bool)} (hne : bs ≠ []) (hin : a % 64 + bs.length ≤ 64)
    (hclean : bs.any (fun b => b.2) = false) (s : State) :
    landFrom (fuel + 1) a bs s =
      landGranule (a / 64) (maskFrom (a % 64) bs.length) (List.replicate (a % 64) 0 ++ bs.map (fun b => b.1)) s := by
  have htake : bs.take (64 - a % 64) = bs := List.take_of_length_le (by omega)
  have hdrop : bs.drop (64 - a % 64) = [] := List.drop_eq_nil_of_le (by omega)
  rw [landFrom]
  · rw [htake, hdrop, landFrom_nil, if_neg (Bool.eq_false_iff.mp hclean)]
  · exact hne

theorem landBytes_in_granule {a : Nat} {bs : List Byte} (hne : bs ≠ []) (hin : a % 64 + bs.length ≤ 64) (s : State) :
    landBytes a bs s = landGranule (a / 64) (maskFrom (a % 64) bs.length) (List.replicate (a % 64) 0 ++ bs) s := by
  have hland := landFrom_in_granule ((bs.map (fun b => (b, false))).length / 64 + 1) (a := a) (bs := bs.map (fun b => (b, false)))
    (by simpa using hne) (by simpa using hin) (by simp) s
  simpa [landBytes, landPoisonable, Function.comp_def] using hland

theorem memoryOnly_landBytes {a : Nat} {bs : List Byte} (hne : bs ≠ []) (hin : a % 64 + bs.length ≤ 64) (s : State) :
    MemoryOnly s (landBytes a bs s) := by
  rw [landBytes_in_granule hne hin]
  exact memoryOnly_landGranule ..

/-- The bytes of a write stand in its granule after the bytes below its address. -/
theorem nth_padded {a x : Nat} (bs : List Byte) (h : a ≤ x) :
    nth 0 (List.replicate (a % 64) 0 ++ bs) (x - 64 * (a / 64)) = nth 0 bs (x - a) := by
  have hplace : x - 64 * (a / 64) - a % 64 = x - a := by omega
  rw [nth, List.getElem?_append_right (by rw [List.length_replicate]; omega), List.length_replicate, hplace, nth]

/-- The bytes after a write of less than a granule: those written, unless the granule is poisoned, and every other as before. -/
theorem rawByte_landBytes {a : Nat} {bs : List Byte} (hne : bs ≠ []) (hin : a % 64 + bs.length ≤ 64) (hpart : bs.length < 64) (s : State)
    (x : Nat) : rawByte (landBytes a bs s) x =
      if SMap.get false s.poison (a / 64) = false ∧ a ≤ x ∧ x < a + bs.length then nth 0 bs (x - a) else rawByte s x := by
  have hmask : 64 * (a / 64) ≤ x ∧ x < 64 * (a / 64) + 64 ∧ (maskFrom (a % 64) bs.length).getLsbD (x - 64 * (a / 64)) = true ↔
      a ≤ x ∧ x < a + bs.length := by
    constructor
    · rintro ⟨hlow, hhigh, hbit⟩
      rw [getLsbD_maskFrom (by omega), decide_eq_true_eq] at hbit
      omega
    · rintro ⟨hlow, hhigh⟩
      refine ⟨by omega, by omega, ?_⟩
      rw [getLsbD_maskFrom (by omega), decide_eq_true_eq]
      omega
  rw [landBytes_in_granule hne hin, rawByte_landGranule (maskFrom_ne_allOnes hpart)]
  by_cases hx : SMap.get false s.poison (a / 64) = false ∧ a ≤ x ∧ x < a + bs.length
  · rw [if_pos hx, if_pos ⟨hx.1, hmask.mpr hx.2⟩]
    exact nth_padded bs hx.2.1
  · rw [if_neg hx, if_neg fun h => hx ⟨h.1, hmask.mp h.2⟩]

/-! ### Stores -/

theorem nth_leBytes {n k : Nat} (hk : k < n) (v : Nat) : nth 0 (leBytes n v) k = BitVec.ofNat 8 (v / 2 ^ (8 * k)) := by
  induction n generalizing k v with
  | zero => omega
  | succ n ih =>
    cases k with
    | zero => simp [leBytes, nth]
    | succ k =>
      have hstep : nth 0 (leBytes (n + 1) v) (k + 1) = nth 0 (leBytes n (v / 256)) k := rfl
      rw [hstep, ih (by omega), Nat.div_div_eq_div_mul, Nat.mul_succ, Nat.pow_add, Nat.mul_comm (2 ^ (8 * k))]

@[simp] theorem length_leBytes (n v : Nat) : (leBytes n v).length = n := by
  induction n generalizing v with
  | zero => rfl
  | succ n ih => rw [leBytes, List.length_cons, ih]

/-- The number that a lane's store writes: vB, and vB+1 above it in a store of 8 bytes. -/
def storedValue (g : Group) (w : EngFields) (i : Nat) : Nat :=
  (rv g i w.b.toNat).toNat + (if accessWidth w = 8 then (rv g i (w.b.toNat + 1)).toNat * 2 ^ 32 else 0)

/-- The bytes of a store are those of vB and, above them, of vB+1. -/
theorem nth_storedValue {g : Group} {w : EngFields} {i k : Nat} (hk : k < accessWidth w) :
    nth 0 (leBytes (accessWidth w) (storedValue g w i)) k =
      if k < 4 then (rv g i w.b.toNat).extractLsb' (8 * k) 8 else (rv g i (w.b.toNat + 1)).extractLsb' (8 * (k - 4)) 8 := by
  have hlow := (rv g i w.b.toNat).isLt
  rw [nth_leBytes hk, storedValue]
  apply BitVec.eq_of_toNat_eq
  by_cases hk4 : k < 4
  · rw [if_pos hk4, BitVec.toNat_ofNat, BitVec.extractLsb'_toNat, Nat.shiftRight_eq_div_pow]
    rcases (by omega : k = 0 ∨ k = 1 ∨ k = 2 ∨ k = 3) with rfl | rfl | rfl | rfl <;> split <;> omega
  · have hw : accessWidth w = 8 := by
      have := accessWidth_cases w
      omega
    rw [if_neg hk4, if_pos hw, BitVec.toNat_ofNat, BitVec.extractLsb'_toNat, Nat.shiftRight_eq_div_pow]
    rw [hw] at hk
    rcases (by omega : k = 4 ∨ k = 5 ∨ k = 6 ∨ k = 7) with rfl | rfl | rfl | rfl <;> omega

/-- What a lane stores is clean. -/
def CleanLane (g : Group) (w : EngFields) (i : Nat) : Prop :=
  rpo g i w.b.toNat = false ∧ (accessWidth w = 8 → rpo g i (w.b.toNat + 1) = false)

theorem storeLane_clean {m : Mem} {e i : Nat} {run : EngineRun} {g : Group} {w : EngFields} (hpo : CleanLane g w i)
    (hplace : ∀ win off, placeOf (accessAddr m e (accessAt m g w i)) ≠ .window win off) (s : State) :
    storeLane m e run g w s i = landBytes (accessAddr m e (accessAt m g w i)) (leBytes (accessWidth w) (storedValue g w i)) s := by
  have hclean : (rpo g i w.b.toNat || (decide (accessWidth w = 8) && rpo g i (w.b.toNat + 1))) = false := by
    obtain ⟨hlow, hhigh⟩ := hpo
    by_cases hw : accessWidth w = 8 <;> simp [hlow, hhigh, hw]
  have hbytes : (poisonBytes (accessWidth w) (storedValue g w i) false).any (fun b => b.2) = false := by simp [poisonBytes]
  show writeDevice run.node _ (poisonBytes (accessWidth w) (storedValue g w i) _) false s = _
  rw [hclean, writeDevice, hbytes, if_neg Bool.false_ne_true]
  split
  · next win off hwin => exact absurd hwin (hplace win off)
  · rfl

section Store

variable {m : Mem} {w : EngFields} {e : Nat} {run : EngineRun} {g : Group} {s : State}

theorem storeBody_fault {c : Nat} (h : (guarded_ g w).findSome? (accessFault m true e run g w s) = some c) :
    storeBody m w e run g s = .error c := by
  simp only [storeBody, h]

theorem storeBody_ok (h : (guarded_ g w).findSome? (accessFault m true e run g w s) = none) :
    storeBody m w e run g s = .ok { s := (guarded_ g w).foldl (storeLane m e run g w) s, g := g, goes := .on } := by
  simp only [storeBody, h]

/-- A lane whose store is clean, outside every window, and in one granule. -/
structure PlainStore (m : Mem) (e : Nat) (g : Group) (w : EngFields) (i : Nat) : Prop where
  clean : CleanLane g w i
  outside : ∀ win off, placeOf (accessAddr m e (accessAt m g w i)) ≠ .window win off
  granule : accessAddr m e (accessAt m g w i) % 64 + accessWidth w ≤ 64

theorem accessWidth_pos (w : EngFields) : 0 < accessWidth w := Nat.two_pow_pos _

theorem accessWidth_le (w : EngFields) : accessWidth w ≤ 8 := by
  have := accessWidth_cases w
  omega

theorem storedBytes_ne_nil (g : Group) (w : EngFields) (i : Nat) : leBytes (accessWidth w) (storedValue g w i) ≠ [] :=
  List.ne_nil_of_length_pos (by rw [length_leBytes]; exact accessWidth_pos w)

theorem memoryOnly_storeLane {i : Nat} (h : PlainStore m e g w i) (s : State) : MemoryOnly s (storeLane m e run g w s i) := by
  rw [storeLane_clean h.clean h.outside]
  exact memoryOnly_landBytes (storedBytes_ne_nil g w i) (by rw [length_leBytes]; exact h.granule) s

theorem rawByte_storeLane {i : Nat} (h : PlainStore m e g w i) (s : State) (x : Nat) :
    rawByte (storeLane m e run g w s i) x =
      if SMap.get false s.poison (accessAddr m e (accessAt m g w i) / 64) = false ∧ accessAddr m e (accessAt m g w i) ≤ x ∧
        x < accessAddr m e (accessAt m g w i) + accessWidth w
      then nth 0 (leBytes (accessWidth w) (storedValue g w i)) (x - accessAddr m e (accessAt m g w i)) else rawByte s x := by
  have hwidth := accessWidth_le w
  have hraw := rawByte_landBytes (storedBytes_ne_nil g w i) (by rw [length_leBytes]; exact h.granule) (by rw [length_leBytes]; omega) s x
  rw [length_leBytes] at hraw
  rw [storeLane_clean h.clean h.outside, hraw]

/-- Stores of several lanes change no byte but those they store. -/
theorem storeLanes_frame {l : List Nat} (h : ∀ i ∈ l, PlainStore m e g w i) (s : State) :
    MemoryOnly s (l.foldl (storeLane m e run g w) s) ∧ ∀ x,
      (∀ i ∈ l, x < accessAddr m e (accessAt m g w i) ∨ accessAddr m e (accessAt m g w i) + accessWidth w ≤ x) →
        rawByte (l.foldl (storeLane m e run g w) s) x = rawByte s x := by
  induction l generalizing s with
  | nil => exact ⟨rfl, fun _ _ => rfl⟩
  | cons i l ih =>
    obtain ⟨hi, hl⟩ := List.forall_mem_cons.mp h
    obtain ⟨honly, hbytes⟩ := ih hl (storeLane m e run g w s i)
    refine ⟨(memoryOnly_storeLane hi s).trans honly, fun x hx => ?_⟩
    obtain ⟨hxi, hxl⟩ := List.forall_mem_cons.mp hx
    exact (hbytes x hxl).trans ((rawByte_storeLane hi s x).trans (if_neg (by omega)))

/-- The bytes that one lane stores to a granule that is not poisoned. -/
theorem rawByte_storeLane_stored {i k : Nat} (h : PlainStore m e g w i)
    (hpo : SMap.get false s.poison (accessAddr m e (accessAt m g w i) / 64) = false) (hk : k < accessWidth w) :
    rawByte (storeLane m e run g w s i) (accessAddr m e (accessAt m g w i) + k) =
      if k < 4 then (rv g i w.b.toNat).extractLsb' (8 * k) 8 else (rv g i (w.b.toNat + 1)).extractLsb' (8 * (k - 4)) 8 := by
  rw [rawByte_storeLane h, if_pos ⟨hpo, by omega, by omega⟩, Nat.add_sub_cancel_left, nth_storedValue hk]

end Store

/-- The stores, each with its memory (R163, R164). -/
def storeTable : List (EngOp × (Issue → EngFields → Instr) × Mem) := [(.stl, .stl, .local_), (.sts, .sts, .shared), (.stg, .stg, .device)]

theorem exec_storeTable {op : EngOp} {c : Issue → EngFields → Instr} {m : Mem} (at_ : Issue) (w : EngFields) (s : State)
    (h : (op, c, m) ∈ storeTable) : exec (c at_ w) s = .next (issue op at_ w (storeBody m w) s) := by
  have hall : ∀ q ∈ storeTable, exec (q.2.1 at_ w) s = .next (issue q.1 at_ w (storeBody q.2.2 w) s) := by
    simp only [storeTable, List.forall_mem_cons]
    exact ⟨rfl, rfl, rfl, fun _ hq => absurd hq List.not_mem_nil⟩
  exact hall _ h

/-- Settles O44: a bad access faults before any effect (`loadBody_fault`, `storeBody_fault`); a lane's load writes its registers from the
bytes read (`loadLane_eq`, `regs_loadedGroup`); a store without a fault lies in one granule (`access_in_granule`), so that it lands as
one masked write (`rawByte_storeLane`). -/
theorem engineLoadsAndStoresRun : Obligations.EngineLoadsAndStoresRun := by
  refine ⟨?load, ?loadLane, ?store⟩
  case load =>
    intro s at_ w run g op c m hop hr
    rw [exec_loadTable at_ w s hop]
    exact ⟨fun f hf => congrArg _ (issue_fault hr (loadBody_fault hf)),
      fun hok => ⟨_, _, rfl, congrArg _ (issue_on hr (loadBody_ok hok))⟩⟩
  case loadLane =>
    intro s t e i w run g m bs hi hfetch hdevice hd
    refine ⟨loadedGroup w i (bytesVal bs) g, ?_, regs_loadedGroup hi hd (bytesVal bs) g⟩
    rw [loadLane_eq, laneBytes_eq hfetch hdevice]
    rfl
  case store =>
    intro s at_ w run g op c m addr hop hr haddr
    obtain rfl : addr = fun i => accessAddr m at_.engine (accessAt m g w i) := funext haddr
    rw [exec_storeTable at_ w s hop]
    refine ⟨fun f hf => congrArg _ (issue_fault hr (storeBody_fault hf)),
      fun hok => ⟨_, rfl, congrArg _ (issue_on hr (storeBody_ok hok)), fun hlanes => ?_⟩⟩
    have hplain : ∀ i ∈ guarded_ g w, PlainStore m at_.engine g w i := fun i hi =>
      have ⟨hlow, hhigh, hplace⟩ := hlanes i hi
      ⟨⟨hlow, hhigh⟩, hplace, access_in_granule (List.findSome?_eq_none_iff.mp hok i hi)⟩
    obtain ⟨honly, hbytes⟩ := storeLanes_frame (run := run) hplain s
    refine ⟨hbytes, honly, fun i k hl hpo hk => ?_⟩
    rw [hl]
    exact rawByte_storeLane_stored (hplain i (hl ▸ List.mem_singleton_self i)) hpo hk

end Sys2Proof.Machine
end

section
/-! COPY and KV_GATHER nodes, the held FINAL write and read-ahead (R190, R219, R239, R258, R297, R298, R301; O29). -/

namespace Sys2Proof.Machine

open Sys2Proof

/-! ### A read of memory leaves the instances as they were (R357, R359, R365, R367) -/

/-- What no step of a fold changes, the fold does not change. -/
theorem foldl_unchanged {α β γ : Type} {f : α → β → α} {view : α → γ} (h : ∀ s x, view (f s x) = view s) (l : List β) (s : α) :
    view (l.foldl f s) = view s :=
  List.foldlRecOn (motive := fun t => view t = view s) l f rfl (fun t ht x _ => (h t x).trans ht)

@[simp] theorem setStore_insts (h : Nat) (v : RecordStore) (s : State) : (setStore h v s).insts = s.insts := by
  unfold setStore; split <;> rfl

@[simp] theorem applyWrite_insts (h : Nat) (k : DeferKind) (t : Nat) (s : State) : (applyWrite h k t s).insts = s.insts := by
  cases k with
  | rollback v => unfold applyWrite; dsimp only; split <;> rfl
  | lifecycleWord v => rfl
  | _ => exact setStore_insts ..

@[simp] theorem deferWrite_insts (d : Deferred) (s : State) : (deferWrite d s).insts = s.insts := by
  unfold deferWrite
  dsimp only
  split
  · rfl
  · split
    · split
      · rfl
      · split <;> rfl
    · split <;> rfl

@[simp] theorem recordWrite_insts (h : Nat) (k : DeferKind) (s : State) : (recordWrite h k s).insts = s.insts := by
  unfold recordWrite; dsimp only; split <;> simp

@[simp] theorem recordBoth_insts (k : DeferKind) (s : State) : (recordBoth k s).insts = s.insts := by
  unfold recordBoth
  dsimp only
  split
  · split
    · rfl
    · exact recordWrite_insts ..
  · split
    · exact recordWrite_insts ..
    · exact (recordWrite_insts ..).trans (recordWrite_insts ..)

@[simp] theorem countCorr_insts (entry n : Nat) (u : UnitRef) (s : State) : (countCorr entry n u s).insts = s.insts := by
  unfold countCorr
  dsimp only
  split
  · rfl
  · split
    · exact postDevice_insts ..
    · rfl

@[simp] theorem retireDie_insts (st die : Nat) (s : State) : (retireDie st die s).insts = s.insts := by
  unfold retireDie
  dsimp only
  split
  · rfl
  · split
    case h_5 => split <;> simp
    all_goals simp

@[simp] theorem retireIfLive_insts (st die : Nat) (s : State) : (retireIfLive st die s).insts = s.insts := by
  unfold retireIfLive; split <;> simp

@[simp] theorem countSlot_insts (st : Nat) (b : Nat × Nat) (s : State) : (countSlot st b s).insts = s.insts := by
  unfold countSlot
  dsimp only
  generalize hkill : (if decide (5 ≤ b.2) = true then _ else _ : State) = t
  have ht : t.insts = s.insts := by
    rw [← hkill]
    split <;> exact countCorr_insts ..
  split
  · exact (retireIfLive_insts ..).trans ht
  · exact ht

@[simp] theorem countFix_insts (st : Nat) (fix : Errs) (erased : Option Nat) (s : State) : (countFix st fix erased s).insts = s.insts :=
  foldl_unchanged (fun _ _ => countSlot_insts ..) _ _

@[simp] theorem uncorrectable_insts (g : Nat) (s : State) : (uncorrectable g s).insts = s.insts := by
  unfold uncorrectable postUE
  refine (foldl_unchanged (view := State.insts) (fun _ _ => postPod_insts ..) _ _).trans ?_
  rw [postDevice_insts]
  rfl

theorem fetchDram_insts (st g : Nat) (s : State) : (fetchDram st g s).2.insts = s.insts := by
  unfold fetchDram; dsimp only; split <;> simp

theorem fetchWord_insts (w : Nat) (r : List (BitVec 64) × Bool × Bool × State) : (fetchWord w r).2.2.2.insts = r.2.2.2.insts := by
  unfold fetchWord; dsimp only; split <;> simp

theorem fetchSram_insts (g : Nat) (s : State) : (fetchSram g s).2.insts = s.insts := by
  have hwords := foldl_unchanged (view := fun r : List (BitVec 64) × Bool × Bool × State => r.2.2.2.insts)
    (fun r i => fetchWord_insts (8 * g + i) r) (List.range 8) ([], false, false, s)
  unfold fetchSram
  generalize (List.range 8).foldl _ _ = r at hwords ⊢
  split
  split
  · exact (uncorrectable_insts ..).trans hwords
  · exact hwords

@[simp] theorem fetchGranule_insts (g : Nat) (s : State) : (fetchGranule g s).2.insts = s.insts := by
  unfold fetchGranule
  split <;> split
  · rfl
  · exact fetchDram_insts ..
  · rfl
  · exact fetchSram_insts ..

theorem dmaRead_insts (ref : NodeRef) (g : Nat) (s : State) : (dmaRead ref g s).2.insts = s.insts := by
  unfold dmaRead
  split
  · rfl
  · split
    · rfl
    · exact fetchGranule_insts g s

theorem dmaReadAll_insts (ref : NodeRef) (gs : List Nat) (s : State) : (dmaReadAll ref gs s).2.insts = s.insts :=
  foldl_unchanged (view := fun r : Fetched × State => r.2.insts) (fun r g => dmaRead_insts ref g r.2) gs ([], s)

/-! ### One node, after a change of it -/

theorem findInst_modInst (p num : Nat) (f : Inst → Inst) (hf : ∀ i, (f i).pod = i.pod ∧ (f i).num = i.num) (s : State) :
    findInst (modInst p num f s) p num = (findInst s p num).map f := by
  have hkeep : (fun i : Inst => decide (i.pod = p) && decide (i.num = num)) ∘
      (fun i => if (decide (i.pod = p) && decide (i.num = num)) = true then f i else i) =
      fun i => decide (i.pod = p) && decide (i.num = num) := by
    funext i
    obtain ⟨hpod, hnum⟩ := hf i
    dsimp only [Function.comp_apply]
    split <;> simp [*]
  rw [findInst, modInst, List.find?_map, hkeep, ← findInst]
  cases h : findInst s p num with
  | none => rfl
  | some i => exact congrArg some (if_pos (List.find?_some (p := fun i : Inst => decide (i.pod = p) && decide (i.num = num)) h))

theorem getElem?_modNth {α : Type} (l : List α) (k : Nat) (f : α → α) : (modNth l k f)[k]? = (l[k]?).map f := by
  unfold modNth
  cases h : l[k]? with
  | none => simp [h]
  | some x =>
    obtain ⟨hk, -⟩ := List.getElem?_eq_some_iff.mp h
    simp [hk]

@[simp] theorem getNode_modNode (ref : NodeRef) (f : NodeRun → NodeRun) (s : State) :
    getNode (modNode ref f s) ref = (getNode s ref).map f := by
  unfold getNode modNode
  rw [findInst_modInst]
  · cases findInst s ref.pod ref.inst with
    | none => rfl
    | some i => exact getElem?_modNth ..
  · exact fun i => ⟨rfl, rfl⟩

theorem getNode_congr {s t : State} (h : t.insts = s.insts) (ref : NodeRef) : getNode t ref = getNode s ref := by
  unfold getNode findInst
  rw [h]

/-! ### What a unit's writes leave of the node's progress -/

/-- How far a COPY node has come: its state and the units it has copied. -/
def copyProgress (ref : NodeRef) (s : State) : Option (NState × Nat) := (getNode s ref).map (fun n => (n.st, n.units))

theorem copyProgress_congr {s t : State} (h : t.insts = s.insts) (ref : NodeRef) : copyProgress ref t = copyProgress ref s := by
  rw [copyProgress, getNode_congr h, copyProgress]

theorem copyProgress_modNode {f : NodeRun → NodeRun} (hf : ∀ n, ((f n).st, (f n).units) = (n.st, n.units)) (ref : NodeRef) (s : State) :
    copyProgress ref (modNode ref f s) = copyProgress ref s := by
  rw [copyProgress, getNode_modNode, Option.map_map, copyProgress]
  exact congrArg (Option.map · _) (funext hf)

theorem copyProgress_sendPeerOf (ref : NodeRef) (a : Nat) (bs : List Byte) (final poisoned : Bool) (s : State) :
    copyProgress ref (sendPeerOf ref a bs final poisoned s) = copyProgress ref s := by
  rw [sendPeerOf, copyProgress_modNode]
  · exact copyProgress_congr rfl ref
  · exact fun _ => rfl

theorem landCellsAt_insts (g : Nat) (l : List Cell) (s : State) : (landCellsAt g l s).insts = s.insts := by
  unfold landCellsAt
  dsimp only
  split
  · rfl
  · rw [memoryOnly_landGranule]

theorem copyProgress_sendCells (ref : NodeRef) (final : Bool) (l : List Cell) (s : State) :
    copyProgress ref (sendCells ref final l s) = copyProgress ref s := by
  cases l with
  | nil => rfl
  | cons c l =>
    have hnote : copyProgress ref (if (c :: l).any (fun x => x.2.2) then notePoison ref s else s) = copyProgress ref s := by
      split
      · exact copyProgress_modNode (f := fun n => { n with poison := true }) (fun _ => rfl) ref s
      · rfl
    refine Eq.trans ?_ hnote
    unfold sendCells
    dsimp only
    split
    · exact foldl_unchanged (fun _ _ => copyProgress_sendPeerOf ..) _ _
    · exact copyProgress_congr (landCellsAt_insts ..) ref

/-- One unit of a copy: the node has copied one more, and its work is done with the last (R258). -/
theorem getNode_copyUnit {ref : NodeRef} {s : State} {n : NodeRun} (hn : getNode s ref = some n) (final : Bool) (coords : List Coord)
    (src dst : Coord → List Nat) (cells : Fetched → Coord → List Cell) :
    ∃ m, getNode (copyUnit ref final coords src dst cells s) ref = some m ∧ m.units = n.units + 1 ∧ m.st = n.st ∧
      m.work = decide ((dedup (coords.flatMap dst)).length ≤ 64 * (n.units + 1)) := by
  unfold copyUnit sendUnit
  dsimp only
  rw [getNode_modNode]
  generalize ht : List.foldl _ _ _ = t
  have hprogress : copyProgress ref t = some (n.st, n.units) := by
    rw [← ht, foldl_unchanged (fun _ _ => copyProgress_sendCells ..), copyProgress_congr (dmaReadAll_insts ..), copyProgress, hn]
    rfl
  obtain ⟨m, hm, hmn⟩ := Option.map_eq_some_iff.mp hprogress
  obtain ⟨hst, hunits⟩ := Prod.mk.inj hmn
  rw [hm]
  exact ⟨_, rfl, by rw [← hunits], hst, by rw [← hunits]; rfl⟩

/-! ### COPY and KV_GATHER (R190, R219, R239) -/

theorem copyTensor_reached {s : State} {ref : NodeRef} {i : Inst} {g : Graph} {b : CopyBody} {st dt : TDesc}
    (hready : copyReady s ref false = some (i, g, b)) (hst : nth (tdParse 0) g.bufs b.src = st) (hdt : nth (tdParse 0) g.bufs b.dst = dt)
    (hsrc : st.space ≠ 1) (hdst : dt.space ≠ 1)
    (hread : granulesFault s ref.pod false (tensorGranules (copyOrigin i b b.peerSrc) st) = none)
    (hwrite : granulesFault s ref.pod true (tensorGranules (copyOrigin i b b.peerDst) dt) = none) :
    copyTensor ref s = copyUnit ref b.final (walkCoords dt) (coordGranules (copyOrigin i b b.peerSrc) st)
      (coordGranules (copyOrigin i b b.peerDst) dt) (copyCells (copyOrigin i b b.peerSrc) (copyOrigin i b b.peerDst) st dt) s := by
  simp [copyTensor, hready, hst, hdt, hsrc, hdst, hread, hwrite]

theorem kvGather_reached {s : State} {ref : NodeRef} {i : Inst} {g : Graph} {b : CopyBody} {dt : TDesc} {r : Region} {pt : List Pte}
    (hready : copyReady s ref true = some (i, g, b)) (hdt : nth (tdParse 0) g.bufs b.dst = dt) (hdst : dt.space ≠ 1)
    (hsource : gatherSource s ref i b dt = .ok (some (r, pt)))
    (hread : granulesFault s ref.pod false (dedup ((walkCoords dt).flatMap (gatherGranules r pt b))) = none)
    (hwrite : granulesFault s ref.pod true (tensorGranules (copyOrigin i b b.peerDst) dt) = none) :
    kvGather ref s = copyUnit ref b.final (walkCoords dt) (gatherGranules r pt b)
      (coordGranules (copyOrigin i b b.peerDst) dt) (gatherCells r pt b (copyOrigin i b b.peerDst) dt) s := by
  simp [kvGather, hready, hdt, hdst, hsource, hread, hwrite]

theorem kvGather_sink {s : State} {ref : NodeRef} {i : Inst} {g : Graph} {b : CopyBody} {dt : TDesc}
    (hready : copyReady s ref true = some (i, g, b)) (hdt : nth (tdParse 0) g.bufs b.dst = dt)
    (hsource : gatherSource s ref i b dt = .ok none) :
    kvGather ref s = modNode ref (fun n => { n with work := true })
      (undefineGranules ref.pod (tensorGranules (copyOrigin i b b.peerDst) dt) s) := by
  simp [kvGather, hready, hdt, hsource]

/-! ### The held FINAL write (R298) and read-ahead (R301) -/

theorem finalWrite_sends {s : State} {ref : NodeRef} {n : NodeRun} {l : List Cell} (hrun : isRunning s ref = true)
    (hlive : nodeCancelled s ref = false) (hn : getNode s ref = some n) (hhold : n.hold = some l) (hacked : n.unacked = [])
    (hreach : granulesFault s ref.pod true (dedup (l.map (fun c => c.1 / 64))) = none) :
    finalWrite ref s = sendCells ref true l (modNode ref (fun n => { n with hold := none }) s) := by
  simp [finalWrite, hrun, hlive, hn, hhold, hacked, hreach]

/-- The first granule that a node not yet held by a channel has fetched ahead. -/
theorem readAhead_first {s : State} {ref : NodeRef} {c g : Nat} {gs : List Nat} (hplan : aheadPlan s ref = some (c, gs))
    (hnone : (getPod s ref.pod).ahead.find? (fun a => a.node = ref) = none) (hroom : aheadHeld (getPod s ref.pod) c < 4096)
    (hnext : gs.find? (fun g => !acquired s ref.pod (64 * g) && (rangeFault s ref.pod (4 + (getPod s ref.pod).hub) (64 * g) 64 false).isNone)
      = some g) :
    readAhead ref s =
      (let r := fetchGranule g s
       let l := oldView r.2 ref (64 * g) (r.1.1.map (fun b => (b, r.1.2)))
       modPod ref.pod (fun v => { v with ahead := v.ahead.filter (fun q => q.node ≠ ref) ++
         [{ node := ref, chan := c, held := [(g, l.map (fun b => b.1), l.any (fun b => b.2))] }] }) r.2) := by
  have hfull : ¬ 4096 ≤ aheadHeld (getPod s ref.pod) c := by omega
  simp [readAhead, hplan, hnone, hnext, hfull]

/-- Settles O29: a node whose tensors are reached copies one unit (`copyTensor_reached`, `kvGather_reached`), which leaves its state and
counts the unit (`getNode_copyUnit`); a sink row copies nothing (`kvGather_sink`); the held write goes when no other waits
(`finalWrite_sends`); read-ahead fetches the walk's next granule (`readAhead_first`). -/
theorem copyCommandsRun : Obligations.CopyCommandsRun := by
  refine ⟨?copy, ?gather, ?sink, ?unit, ?final, ?ahead⟩
  case copy =>
    exact fun s ref i g b st dt hready hst hdt hsrc hdst hread hwrite =>
      congrArg Host.Outcome.next (copyTensor_reached hready hst hdt hsrc hdst hread hwrite)
  case gather =>
    exact fun s ref i g b dt r pt hready hdt hdst hsource hread hwrite =>
      congrArg Host.Outcome.next (kvGather_reached hready hdt hdst hsource hread hwrite)
  case sink =>
    exact fun s ref i g b dt hready hdt hsource => congrArg Host.Outcome.next (kvGather_sink hready hdt hsource)
  case unit =>
    exact fun ref final coords src dst cells s n hn => getNode_copyUnit hn final coords src dst cells
  case final =>
    exact fun s ref n l hrun hlive hn hhold hacked hreach =>
      congrArg Host.Outcome.next (finalWrite_sends hrun hlive hn hhold hacked hreach)
  case ahead =>
    exact fun s ref c g gs hplan hnone hroom hnext => congrArg Host.Outcome.next (readAhead_first hplan hnone hroom hnext)

end Sys2Proof.Machine
end

section
/-! STREAM_PARK, STREAM_UNPARK and the restore of a parked stream's images (R197-R199, R448; O34). -/

namespace Sys2Proof.Machine

open Sys2Proof

/-! ### STREAM_PARK (R197) -/

/-- The stream is on its way to PARKED: its RESIDENT entries name their images, their frames are chaff, and FIRST is posted. -/
def startPark (i : Nat) (tok : CmdTok) (plan : List (Pte × Nat)) (s : State) : State :=
  postFirst tok 0 (modStream i (fun e => { e with work := .parking }) (parkEntries i plan s))

/-- The pod's park limit of window `w` moves to `stop`, where the images that begin at `a` end. -/
def moveParkTop (p w a stop : Nat) (s : State) : State :=
  modPod p (fun v => { v with parkTop := SMap.set 0 v.parkTop w (stop - a / 2 ^ 40 * 2 ^ 40) }) s

/-- The park asked for at window address `a` is permitted: stream `i` of pod `p` is RESIDENT and idle, no accepted step names it, and its
images, planned from `a` to `stop`, lie past the limit of window `w` (R197). -/
structure MayPark (s : State) (sub : Submission) (p i a w k stop : Nat) (r : Region) (plan : List (Pte × Nat)) : Prop where
  pod : podOf sub = p
  stream : ent sub.entry 79 64 = i
  addr : ent sub.entry 143 96 = a
  known : streamKnown s p i (ent sub.entry 95 80) = true
  checks : checkCmd spPark false sub (a % 4096 = 0) true s = none
  notOpen : lifecycle s ≠ 2
  resident : (getStream s i).state = .resident
  idle : (getStream s i).work = .idle
  unnamed : stepNames s p i = false
  pool : poolOf s p (getStream s i).pool = some (k, r)
  planned : parkPlan r a (getStream s i).pt = (plan, stop)
  window : windowOfAddr a = w
  inWindow : w ≠ 64
  pastTop : ¬ a % 2 ^ 40 < SMap.get 0 (getPod s p).parkTop w

section Park

variable {s : State} {sub : Submission} {p i a w k stop : Nat} {r : Region} {plan : List (Pte × Nat)}
  (h : MayPark s sub p i a w k stop r plan) (tok : CmdTok)

include h

/-- A stream with nothing RESIDENT has no image to write. -/
theorem streamPark_nothing (hnone : plan = []) (hstop : stop = a) :
    streamPark sub tok s = parkDone i tok (startPark i tok [] s) := by
  subst hnone hstop
  simp [-Nat.reducePow, streamPark, h.pod, h.stream, h.addr, h.known, guarded_pass _ h.checks, h.notOpen, h.resident, h.idle, h.unnamed, h.pool,
    h.planned, h.window, h.inWindow, h.pastTop, windowStatus, parkWrites, splitLast, startPark]

/-- Every write of the images but the last granule is sent; that one is held until they are acknowledged (R297). -/
theorem streamPark_images {s2 : State} {ws first : List WinWrite} {last : WinWrite} (hsome : a < stop)
    (hin : (stop - 1) / 2 ^ 40 = a / 2 ^ 40) (hstatus : windowStatus s p a (stop - a) = none)
    (hws : parkWrites p i (getStream s i).gen r plan s = (ws, s2)) (hsplit : splitLast ws = (first, some last)) (hfirst : first ≠ []) :
    streamPark sub tok s = sendWrites first
      (let s4 := startPark i tok plan (moveParkTop p w a stop s2)
       { s4 with cmds := s4.cmds ++ [{ tok := tok, work := .park i w (first.length, lastByte first) (some last) }] }) := by
  have hone : max 1 first.length = first.length := Nat.max_eq_right (List.length_pos_iff.mpr hfirst)
  simp [-Nat.reducePow, streamPark, h.pod, h.stream, h.addr, h.known, guarded_pass _ h.checks, h.notOpen, h.resident, h.idle, h.unnamed, h.pool,
    h.planned, h.window, h.inWindow, h.pastTop, hin, hstatus, hws, hsplit, hfirst, hone, Nat.ne_of_gt hsome, startPark, moveParkTop]

end Park

theorem exec_streamPark {s : State} {sub : Submission} (h : Takes spPark (fun _ => true) sub s) :
    exec (.streamPark sub) s = .next (streamPark sub (tokIn s sub) (taken sub s)) :=
  congrArg Host.Outcome.next (runCmd_takes _ h)

/-! ### STREAM_UNPARK and the restore (R199) -/

theorem streamUnpark_waits {s : State} {sub : Submission} {i : Nat} (tok : CmdTok) (hi : ent sub.entry 79 64 = i)
    (hknown : streamKnown s (podOf sub) i (ent sub.entry 95 80) = true) (hcheck : checkCmd spUnpark false sub true true s = none)
    (hopen : lifecycle s ≠ 2) (hstate : (getStream s i).state = .parked) (hidle : (getStream s i).work = .idle) :
    streamUnpark sub tok s = postFirst tok 0 (modStream i (fun e => { e with work := .unparking })
      { s with cmds := s.cmds ++ [{ tok := tok, work := .unpark i none }] }) := by
  simp [streamUnpark, hi, hknown, guarded_pass _ hcheck, hopen, hstate, hidle]

theorem exec_streamUnpark {s : State} {sub : Submission} (h : Takes spUnpark (fun _ => true) sub s) :
    exec (.streamUnpark sub) s = .next (streamUnpark sub (tokIn s sub) (taken sub s)) :=
  congrArg Host.Outcome.next (runCmd_takes _ h)

section Restore

variable {s t : State} {i k : Nat} {c : PendingCmd} {fs : List Nat} {r : Region} {pt : List Pte} {st : Option Status}
  {imgs : List (Option (List Byte × List (BitVec 128)))} (hc : s.cmds.find? (unparkOf i) = some c) (hwork : c.work = .unpark i (some fs))
  (hpool : poolOf s (getStream s i).pod (getStream s i).pool = some (k, r))
  (hall : restoreAll i r (getStream s i).pt fs imgs { s with cmds := s.cmds.erase c } = (pt, st, t))

include hc hwork hpool hall

theorem unparkRestore_resident (hst : st = none) : unparkRestore i imgs s =
    postFinal c.tok stOK 0 0 (modStream i (fun e => { e with pt := pt, work := .idle, state := .resident }) t) := by
  subst hst
  simp [unparkRestore, hc, hwork, hpool, hall]

theorem unparkRestore_closes {x : Status} (hst : st = some x) : unparkRestore i imgs s =
    closeStream i x (postFinal c.tok x 0 0 (modStream i (fun e => { e with pt := pt, work := .idle }) t)) := by
  subst hst
  simp [unparkRestore, hc, hwork, hpool, hall]

end Restore

/-- Settles O34: a park has nothing to write (`streamPark_nothing`) or writes its images (`streamPark_images`); an unpark waits for a
boundary's frames (`streamUnpark_waits`), and its restore ends RESIDENT or closes the stream (`unparkRestore_resident`,
`unparkRestore_closes`). -/
theorem streamParkAndUnparkRun : Obligations.StreamParkAndUnparkRun := by
  refine ⟨?park, ?unpark, ?restore⟩
  case park =>
    intro s s2 sub p i a w k stop r plan ws htakes hp hi ha hknown hcheck hopen hstate hidle hnames hpool hplan hw hwindow htop
    have hmay : MayPark (taken sub s) sub p i a w k stop r plan :=
      ⟨hp, hi, ha, hknown, hcheck, hopen, hstate, hidle, hnames, hpool, hplan, hw, hwindow, Nat.not_lt.mpr htop⟩
    rw [exec_streamPark htakes]
    exact ⟨fun hnone hstop => congrArg _ (streamPark_nothing hmay _ hnone hstop),
      fun hsome hin hstatus hws _ _ hsplit hfirst => congrArg _ (streamPark_images hmay _ hsome hin hstatus hws hsplit hfirst)⟩
  case unpark =>
    intro s sub i htakes hi hknown hcheck hopen hstate hidle
    rw [exec_streamUnpark htakes]
    exact congrArg _ (streamUnpark_waits (s := taken sub s) _ hi hknown hcheck hopen hstate hidle)
  case restore =>
    intro s t i k c fs r pt st imgs hc hwork hpool hall
    exact ⟨fun hst => congrArg _ (unparkRestore_resident hc hwork hpool hall hst),
      fun x hst => congrArg _ (unparkRestore_closes hc hwork hpool hall hst)⟩

end Sys2Proof.Machine
end

section
/-! STREAM_CANCEL and ADAPTER_LOAD (R206, R207, R222-R224; O32), and PREFIX_LOOKUP, PREFIX_INSERT and PREFIX_REMOVE (R227-R229; O33). -/

namespace Sys2Proof.Machine

open Sys2Proof

/-! ### STREAM_CANCEL (R206, R207) -/

theorem streamCancel_live {s : State} {sub : Submission} {i : Nat} (tok : CmdTok) (hi : ent sub.entry 79 64 = i)
    (hknown : streamKnown s (podOf sub) i (ent sub.entry 95 80) = true) (hcheck : checkCmd spStrCancel false sub true true s = none)
    (hlive : (getStream s i).state ≠ .closing) :
    streamCancel sub tok s = only sub tok stOK 0 0 (stopStream i stCANCELLED stOK s) := by
  dsimp only [streamCancel]
  rw [hi, hknown, guarded_pass _ hcheck, if_neg hlive]

/-! ### ADAPTER_LOAD (R222-R224) -/

theorem adapterLoad_stages {s : State} {sub : Submission} {p slot layers src : Nat} {bs : List (Byte × Bool)} (tok : CmdTok)
    (hp : podOf sub = p) (hslot : ent sub.entry 79 64 = slot) (hlayers : ent sub.entry 86 80 = layers) (hsrc : ent sub.entry 143 96 = src)
    (hcheck : checkCmd spAdapter false sub (1 ≤ layers && layers ≤ 120 && (getPod s p).slotFirst ≤ slot &&
      slot < (getPod s p).slotFirst + (getPod s p).slots) true s = none)
    (hreach : podReaches s p src 4096 false = true) (hread : fetchBytes src 4096 s = (bs, s)) (hclean : bs.any (fun b => b.2) = false)
    (hrest : ((bs.map (fun b => b.1)).drop (34 * layers)).any (fun b => b ≠ 0) = false) :
    adapterLoad sub tok s = only sub tok stOK 0 0
      (modPod p (fun v => { v with staged := v.staged.filter (fun q => q.1 ≠ slot) ++ [(slot, bs.map (fun b => b.1))] }) s) := by
  dsimp only [adapterLoad]
  rw [hp, hslot, hlayers, hsrc, guarded_pass _ hcheck]
  simp only [hreach, hread, hclean, hrest, Bool.not_true, Bool.false_eq_true, if_false]

/-- Settles O32: the command is taken (`runCmd_takes`) and stops a live stream (`streamCancel_live`), or stages its image
(`adapterLoad_stages`). -/
theorem streamCancelAndAdapterRun : Obligations.StreamCancelAndAdapterRun := by
  refine ⟨?cancel, ?adapter⟩
  case cancel =>
    intro s sub i htakes hi hknown hcheck hlive
    exact congrArg Host.Outcome.next ((runCmd_takes _ htakes).trans (streamCancel_live (s := taken sub s) _ hi hknown hcheck hlive))
  case adapter =>
    intro s sub p slot layers src bs htakes hp hslot hlayers hsrc hcheck hreach hread hclean hrest
    exact congrArg Host.Outcome.next ((runCmd_takes _ htakes).trans
      (adapterLoad_stages _ hp hslot hlayers hsrc hcheck hreach hread hclean hrest))

/-! ### PREFIX_LOOKUP (R228) -/

theorem prefixLookup_found {s : State} {sub : Submission} {p k a n : Nat} {bs : List (Byte × Bool)} (tok : CmdTok) (hp : podOf sub = p)
    (hk : ent sub.entry 82 64 = k) (ha : ent sub.entry 143 96 = a)
    (hcheck : checkCmd spLookup false sub (1 ≤ k && k ≤ 262144) true s = none) (hreach : podReaches s p a (256 * k) false = true)
    (hread : fetchBytes a (256 * k) s = (bs, s)) (hclean : bs.any (fun b => b.2) = false)
    (hn : (lookup (getPod s p) 0 (blocksOf k (bs.map (fun b => b.1)))).1 = n) :
    prefixLookup sub tok s = only sub tok stOK (n + at_ 32 (getPfx (getPod s p) n).depth) 0 s := by
  dsimp only [prefixLookup]
  rw [hp, hk, ha, guarded_pass _ hcheck]
  simp only [hreach, hread, hclean, hn, Bool.not_true, Bool.false_eq_true, if_false]

/-! ### PREFIX_INSERT and PREFIX_REMOVE (R229) -/

theorem prefixInsert_creates {s : State} {sub : Submission} {p i k a : Nat} {bs : List (Byte × Bool)} {q : Nat × List (List Nat)}
    {r : Nat × Nat × Bool × State} (tok : CmdTok) (hp : podOf sub = p) (hi : ent sub.entry 79 64 = i) (hk : ent sub.entry 114 96 = k)
    (ha : ent sub.entry 191 144 = a) (hknown : streamKnown s p i (ent sub.entry 95 80) = true)
    (hcheck : checkCmd spInsert false sub (1 ≤ k && k ≤ 262144 && ent sub.entry 223 192 = 0) true s = none)
    (hreach : podReaches s p a (256 * k) false = true) (hwp : 64 * k ≤ (getStream s i).wp) (hpages : insertable (getStream s i).pt k = true)
    (hread : fetchBytes a (256 * k) s = (bs, s)) (hclean : bs.any (fun b => b.2) = false)
    (hq : lookup (getPod s p) 0 (blocksOf k (bs.map (fun b => b.1))) = q) (hr : insertBlocks p i q.2 q.1 0 s = r) (hall : r.2.2.1 = true) :
    prefixInsert sub tok s = only sub tok stOK r.1 r.2.1 r.2.2.2 := by
  dsimp only [prefixInsert]
  rw [hp, hi, hk, ha, hknown, guarded_pass _ hcheck]
  simp [hreach, Nat.not_lt.mpr hwp, hpages, hread, hclean, hq, hr, hall]

theorem prefixRemove_childless {s : State} {sub : Submission} {p n : Nat} (tok : CmdTok) (hp : podOf sub = p) (hn : ent sub.entry 223 192 = n)
    (hroot : n ≠ 0) (hknown : streamKnown s p (ent sub.entry 79 64) (ent sub.entry 95 80) = true) (hnode : pfxKnown (getPod s p) n = true)
    (hcheck : checkCmd spInsert false sub (ent sub.entry 114 96 = 0 && ent sub.entry 191 144 = 0) true s = none)
    (hchild : (getPfx (getPod s p) n).child = 0) :
    prefixRemove sub tok s = only sub tok stOK 0 0 (removeNode p n s) := by
  dsimp only [prefixRemove]
  rw [hp, hn, hknown, hnode, decide_eq_true hroot, Bool.and_true, Bool.and_true, guarded_pass _ hcheck, if_neg (not_not_intro hchild)]

/-- Settles O33: the command is taken (`runCmd_takes`); a lookup answers the node it reaches (`prefixLookup_found`), an insert the nodes it
creates (`prefixInsert_creates`), and a childless node goes (`prefixRemove_childless`). -/
theorem prefixCommandsRun : Obligations.PrefixCommandsRun := by
  refine ⟨?lookup, ?insert, ?remove⟩
  case lookup =>
    intro s sub p k a n bs htakes hp hk ha hcheck hreach hread hclean hn
    exact congrArg Host.Outcome.next ((runCmd_takes _ htakes).trans (prefixLookup_found _ hp hk ha hcheck hreach hread hclean hn))
  case insert =>
    intro s sub p i k a bs q r htakes hp hi hk ha hknown hcheck hreach hwp hpages hread hclean hq hr hall
    exact congrArg Host.Outcome.next ((runCmd_takes _ htakes).trans
      (prefixInsert_creates _ hp hi hk ha hknown hcheck hreach hwp hpages hread hclean hq hr hall))
  case remove =>
    intro s sub p n htakes hp hn hroot hknown hnode hcheck hchild
    exact congrArg Host.Outcome.next ((runCmd_takes _ htakes).trans
      (prefixRemove_childless (s := taken sub s) _ hp hn hroot hknown hnode hcheck hchild))

end Sys2Proof.Machine
end

section
/-! STREAM_SHIP (R232, R233) and the acknowledgements of window writes (R297-R300; O35). -/

namespace Sys2Proof.Machine

open Sys2Proof

/-! ### STREAM_SHIP (R232, R233) -/

/-- The ship asked for is permitted: stream `i` of pod `p` is RESIDENT, not BUSY and idle, with `len` positions written (R232). -/
structure MayShip (s : State) (sub : Submission) (p i len k : Nat) (r : Region) : Prop where
  pod : podOf sub = p
  stream : ent sub.entry 79 64 = i
  length : ent sub.entry 168 144 = len
  known : streamKnown s p i (ent sub.entry 95 80) = true
  checks : checkCmd spShip false sub (1 ≤ len && len ≤ 16777216) true s = none
  notOpen : lifecycle s ≠ 2
  resident : (getStream s i).state = .resident
  free : (getStream s i).busy = false
  idle : (getStream s i).work = .idle
  written : ¬ (getStream s i).wp < len
  pool : poolOf s p (getStream s i).pool = some (k, r)

/-- The stream is shipping: the command waits for the acknowledgements of its writes, and FIRST is posted. -/
def startShip (i : Nat) (c : PendingCmd) (s : State) : State :=
  postFirst c.tok 0 (modStream i (fun e => { e with work := .shipping }) { s with freeIdx := s.freeIdx + 1, cmds := s.cmds ++ [c] })

/-- A permitted ship whose receiving table reads well and whose window is open sends its unit-layers, the landing write held. -/
theorem streamShip_sends {s s2 s3 : State} {sub : Submission} {p i len k base flag : Nat} {r r' : Region} {pt' : List Pte}
    {plan : List (Nat × Nat)} {ws : List WinWrite} (tok : CmdTok) (h : MayShip s sub p i len k r) (hbase : ent sub.entry 367 320 = base)
    (htable : shipTable 8193 p (ent sub.entry 143 96) len 0 s = (.ok pt', s2))
    (hreceiver : { r with off := 4096 * ent sub.entry 247 224,
                          holder := (List.range 16).map (fun k => bits (ent sub.entry 319 256) (4 * k + 3) (4 * k)) } = r')
    (hplan : shipPlan r r' (getStream s i).pt pt' base len = plan)
    (hflag : base + addrCsr + 0x300000 + 64 * shipPod s2 = flag) (hreach : shipReach s2 p (regU r) (plan.map (fun q => q.2)) = none)
    (hland : windowStatus s2 p flag 64 = none) (hws : shipWrites r plan s2 = (ws, s3)) :
    streamShip sub tok s = sendWrites ws (startShip i
      { tok := tok, work := .ship i (windowOfAddr base) (ws.length, lastByte ws)
          (some (flag, landWord (ent sub.entry 184 169) len (ent sub.entry 223 192), false)) } s3) := by
  simp [-Nat.reducePow, streamShip, h.pod, h.stream, h.length, h.known, guarded_pass _ h.checks, h.pool, h.notOpen, h.resident, h.free, h.idle,
    h.written, htable, hbase, hreceiver, hplan, hflag, hreach, hland, hws, startShip]

/-! ### Acknowledgements of a node's writes (R299, R300) -/

section AckNode

variable {s : State} {w : Nat} {ref : NodeRef} {n : NodeRun} {x : Nat × Nat} {rest : List (Nat × Nat)} (hn : getNode s ref = some n)
  (hwrites : n.unacked.filter (fun y => y.1 = w) = x :: rest)

include hn hwrites

theorem ackNode_uio (huio : windowUio s w = true) :
    ackNode w ref s = modNode ref (fun n => { n with unacked := n.unacked.erase x }) s := by
  simp [ackNode, hn, hwrites, huio]

theorem ackNode_flush (huio : windowUio s w = false) (hsent : sentAll s ref = true) :
    ackNode w ref s =
      modNode ref (fun n => { n with unacked := n.unacked.filter (fun y => y.1 ≠ w) }) (flushAt (rest.getLast?.getD x).2 s) := by
  simp [ackNode, hn, hwrites, huio, hsent]

/-- No flush read goes before the node's last write. -/
theorem ackNode_early (huio : windowUio s w = false) (hsent : sentAll s ref = false) : ackNode w ref s = s := by
  simp [ackNode, hn, hwrites, huio, hsent]

theorem failAck_outstanding : failAck w ref s = faultNode ref csPARTNER_GONE (failWrite (· = w) ref s) := by
  have hx : x ∈ n.unacked.filter (fun y => y.1 = w) := hwrites ▸ List.mem_cons_self
  have hany : n.unacked.any (fun y => y.1 = w) = true := List.any_eq_true.mpr ⟨x, List.mem_filter.mp hx⟩
  simp only [failAck, hn, hany, if_true]

end AckNode

/-! ### Acknowledgements of a stream's writes (R297-R300) -/

/-- Pending command `c` goes on as `d`. -/
def replaceCmd (c d : PendingCmd) (s : State) : State := { s with cmds := s.cmds.map (fun x => if x = c then d else x) }

/-- An acknowledgement of window `w` leaves none of the `n.1` awaited writes, the last of them to address `n.2`, and state `t`: it is the
Unordered I/O completion of the only one, or the flush read of them all (R299). -/
def NoneLeft (s : State) (w : Nat) (n : Nat × Nat) (t : State) : Prop :=
  (windowUio s w = true ∧ n.1 = 1 ∧ t = s) ∨ (windowUio s w = false ∧ t = flushAt n.2 s)

section AckStream

variable {s t : State} {w i : Nat} {n : Nat × Nat} {c : PendingCmd} {last : Option WinWrite} (hc : s.cmds.find? (sendsInto w i) = some c)
  (hsender : senderOf c = some (i, w, n, last))

include hc hsender

theorem ackStream_counts (huio : windowUio s w = true) (hmore : 1 < n.1) :
    ackStream w i s = replaceCmd c (reSender c (n.1 - 1, n.2) last) s := by
  have hleft : n.1 - 1 ≠ 0 := Nat.sub_ne_zero_of_lt hmore
  simp [ackStream, hc, hsender, huio, hleft, replaceCmd]

/-- The held FINAL write goes when nothing else waits (R298). -/
theorem ackStream_sendsHeld {f : WinWrite} (hnone : NoneLeft s w n t) (hlast : last = some f) :
    ackStream w i s = sendLast f (replaceCmd c (reSender c (1, lastByte [f]) none) t) := by
  subst hlast
  obtain ⟨huio, hone, rfl⟩ | ⟨huio, rfl⟩ := hnone
  · simp [ackStream, hc, hsender, huio, hone, replaceCmd]
  · simp [ackStream, hc, hsender, huio, replaceCmd]

/-- The acknowledgement of the FINAL write completes the command. -/
theorem ackStream_completes (hnone : NoneLeft s w n t) (hlast : last = none) : ackStream w i s = senderDone i c t := by
  subst hlast
  obtain ⟨huio, hone, rfl⟩ | ⟨huio, rfl⟩ := hnone
  · simp [ackStream, hc, hsender, huio, hone]
  · simp [ackStream, hc, hsender, huio]

omit hsender in
theorem failSender_waiting : failSender w i s = stopStreamWork i stPARTNER_GONE s := by
  have hany : s.cmds.any (sendsInto w i) = true :=
    List.any_eq_true.mpr ⟨c, List.mem_of_find?_eq_some hc, List.find?_some hc⟩
  exact if_pos hany

end AckStream

/-- Settles O35: a permitted ship sends its unit-layers (`streamShip_sends`); a node's writes are acknowledged one by one
(`ackNode_uio`) or all at once after the last (`ackNode_flush`, `ackNode_early`), or fail (`failAck_outstanding`); a stream's are counted
(`ackStream_counts`) until the held write goes (`ackStream_sendsHeld`) and its own acknowledgement ends the command
(`ackStream_completes`), or fail (`failSender_waiting`). -/
theorem streamShipAndAcknowledgementRun : Obligations.StreamShipAndAcknowledgementRun := by
  refine ⟨?ship, ?node, ?stream⟩
  case ship =>
    intro s s2 s3 sub p i len base k r r' pt' plan flag ws work c htakes hp hi hlen hbase hknown hcheck hopen hstate hbusy hidle hwp hpool
      htable hreceiver hplan hflag hreach hland hws hwork hc
    have hmay : MayShip (taken sub s) sub p i len k r :=
      ⟨hp, hi, hlen, hknown, hcheck, hopen, hstate, hbusy, hidle, Nat.not_lt.mpr hwp, hpool⟩
    subst hwork hc
    exact congrArg Host.Outcome.next ((runCmd_takes _ htakes).trans
      (streamShip_sends _ hmay hbase htable hreceiver hplan hflag hreach hland hws))
  case node =>
    intro s w ref n x rest hn hwrites
    exact ⟨fun huio => congrArg _ (ackNode_uio hn hwrites huio),
      fun huio hsent => congrArg _ (ackNode_flush hn hwrites huio hsent),
      fun huio hsent => congrArg _ (ackNode_early hn hwrites huio hsent),
      congrArg _ (failAck_outstanding hn hwrites)⟩
  case stream =>
    intro s w i n c last hc hsender
    exact ⟨fun huio hmore => congrArg _ (ackStream_counts hc hsender huio hmore),
      fun huio hone f hlast => congrArg _ (ackStream_sendsHeld hc hsender (.inl ⟨huio, hone, rfl⟩) hlast),
      fun huio hone hlast => congrArg _ (ackStream_completes hc hsender (.inl ⟨huio, hone, rfl⟩) hlast),
      fun huio hlast => congrArg _ (ackStream_completes hc hsender (.inr ⟨huio, rfl⟩) hlast),
      fun huio f t hlast ht => congrArg _ (ackStream_sendsHeld hc hsender (.inr ⟨huio, ht.symm⟩) hlast),
      congrArg _ (failSender_waiting hc)⟩

end Sys2Proof.Machine
end

section
/-! BATCH_STEP (R210-R212, R221, R247, R251, R252; O36). -/

namespace Sys2Proof.Machine

open Sys2Proof

/-! ### The command's list (R210-R212) -/

/-- The command's fields keep R210 for pod `p` and name a graph `g` that is not a peer graph, and the pod reaches the list, the row table
and the results. -/
structure StepAsked (s : State) (sub : Submission) (p n : Nat) (g : Graph) : Prop where
  pod : podOf sub = p
  rows : ent sub.entry 156 144 = n
  checks : checkCmd spStep false sub (stepFields s p sub.entry) true s = none
  graph : getGraph s p (ent sub.entry 95 64) = some g
  notPeer : g.peer = false
  list : podReaches s p (ent sub.entry 143 96) (8 * n) false = true
  table : podReaches s p (ent sub.entry 303 256) (16 * n) true = true
  results : podReaches s p (ent sub.entry 367 320) (2 * n) true = true

/-- A list that reads well, for a boundary still ahead, is put to the decision. -/
theorem batchStep_decides {s s1 : State} {sub : Submission} {p n : Nat} {g : Graph} {bs : List (Byte × Bool)} {ws : List Nat} (tok : CmdTok)
    (h : StepAsked s sub p n g) (hread : fetchBytes (ent sub.entry 143 96) (8 * n) s = (bs, s1)) (hclean : bs.any (fun b => b.2) = false)
    (hwords : (List.range n).map (fun k => leNat (((bs.drop (8 * k)).take 8).map (fun b => b.1))) = ws) (hlist : listOk ws = true)
    (hahead : ∀ b, (getPod s1 p).boundary = some b → b < ent sub.entry 191 160) :
    batchStep sub tok s = decideStep sub tok p g (stepInfo s1 p sub.entry (ws.map rowParse)) s1 := by
  dsimp only [batchStep]
  rw [h.pod, h.rows, h.graph, Option.isSome_some, guarded_pass _ h.checks, h.graph]
  simp only [h.notPeer, h.list, h.table, h.results, hread, hclean, hwords, hlist, Bool.not_true, Bool.or_false, Bool.false_or,
    Bool.false_eq_true, if_false]
  cases hb : (getPod s1 p).boundary with
  | none => rfl
  | some b => exact if_neg (by simpa using hahead b hb)

/-! ### The decision (R247, R251, R252) -/

/-- Step `st` of pod `p` is within the pod's limits, its release falls from `first` to `last`, and its tentative plan of graph `g`, which
starts at the later of `last` and its predecessors' planned ends, is `plan` (R251, R252). -/
structure StepPlanned (s : State) (p : Nat) (g : Graph) (st : StepInfo) (first last : Nat) (plan : Option (List Slot)) : Prop where
  steps : ¬ 64 ≤ podSteps s p
  quota : ¬ (getPod s p).quota ≤ jobCount s p
  first_eq : (boundaryAhead s p st.boundary).2 + (boundaryAhead s p st.boundary).1 * (podPeriod s p - podSlew s p) + st.relOff = first
  last_eq : (boundaryAhead s p st.boundary).2 + (boundaryAhead s p st.boundary).1 * (podPeriod s p + podSlew s p) + st.relOff = last
  plan_eq : tentative s p g ((st.preds.map (plannedEnd s p)).foldl max (max last (now s)))
    (some { e := st.walkE, rows := st.rows.length, tb := (boundaryAhead s p st.boundary).2, period := podPeriod s p, slew := podSlew s p }) = plan

/-- The step as admitted with its promised completion, before it has a number (R247). -/
def stepInst (s : State) (tok : CmdTok) (p : Nat) (g : Graph) (st : StepInfo) (first last : Nat) (slots : List Slot) : Inst :=
  { pod := p, num := 0, graph := g.id, tok := tok, promised := true, release := last, deadline := first + st.deadline,
    nodes := slots.map (fun sl => freshNode sl.cores sl.start sl.fin), step := some st, peers := [], cancelled := false, late := none,
    floors := planFloors s p slots, sources := podSources s p }

section Decide

variable {s : State} {p : Nat} {g : Graph} {st : StepInfo} {first last : Nat} {slots : List Slot} (sub : Submission) (tok : CmdTok)

theorem decideStep_noPlan (h : StepPlanned s p g st first last none) :
    decideStep sub tok p g st s = only sub tok stREFUSED_DEADLINE (earliest none) 0 s := by
  simp [decideStep, h.steps, h.quota, h.last_eq, h.plan_eq]

theorem decideStep_endsLate (h : StepPlanned s p g st first last (some slots)) (hlate : first + st.deadline < completionOf slots) :
    decideStep sub tok p g st s = only sub tok stREFUSED_DEADLINE (earliest (some slots)) 0 s := by
  simp [decideStep, h.steps, h.quota, h.first_eq, h.last_eq, h.plan_eq, Nat.not_le.mpr hlate]

theorem decideStep_admits (h : StepPlanned s p g st first last (some slots)) (hends : completionOf slots ≤ first + st.deadline) :
    decideStep sub tok p g st s = admitInst (stepInst s tok p g st first last slots) s := by
  simp [decideStep, h.steps, h.quota, h.first_eq, h.last_eq, h.plan_eq, hends, stepInst]

end Decide

/-- Settles O36: a good list is put to the decision (`batchStep_decides`), which refuses a step with no plan (`decideStep_noPlan`) or one that
ends past the deadline (`decideStep_endsLate`), and admits any other (`decideStep_admits`). -/
theorem batchStepRuns : Obligations.BatchStepRuns := by
  intro s s1 sub e p n k tb g bs ws st wk he htakes hp hn hcheck hgraph hpeer hlist htable hresults hread hclean hwords hok hahead hst hsteps hquota
    hboundary hwk first last t0 hfirst hlast ht0
  subst he
  have hasked : StepAsked (taken sub s) sub p n g := ⟨hp, hn, hcheck, hgraph, hpeer, hlist, htable, hresults⟩
  have hdecides : exec (.batchStep sub) s = .next (decideStep sub (tokIn s sub) p g st s1) :=
    hst ▸ congrArg Host.Outcome.next ((runCmd_takes _ htakes).trans (batchStep_decides _ hasked hread hclean hwords hok hahead))
  have hplanned : ∀ {plan}, tentative s1 p g t0 (some wk) = plan → StepPlanned s1 p g st first last plan := fun hplan =>
    { steps := Nat.not_le.mpr hsteps
      quota := Nat.not_le.mpr hquota
      first_eq := by rw [hboundary]; exact hfirst
      last_eq := by rw [hboundary]; exact hlast
      plan_eq := by rw [hboundary, ht0, hwk]; exact hplan }
  rw [hdecides]
  refine ⟨fun hplan => ?noPlan, fun slots hplan => ⟨fun hlate => ?tooLate, fun hends => ?inTime⟩⟩
  case noPlan => exact congrArg _ (decideStep_noPlan _ _ (hplanned hplan))
  case tooLate => exact congrArg _ (decideStep_endsLate _ _ (hplanned hplan) hlate)
  case inTime =>
    exact ⟨_, congrArg _ (decideStep_admits _ _ (hplanned hplan) hends), rfl, rfl, rfl, rfl, rfl, rfl, rfl, rfl, rfl, rfl⟩

end Sys2Proof.Machine
end

section
/-! The boundary of a pod (R208, R215, R216, R221), and the release and end of a step (R208, R221, R244; O37). -/

namespace Sys2Proof.Machine

open Sys2Proof

/-! ### A boundary (R215, R216) -/

theorem podBoundary_due {s : State} {p t : Nat} (hpod : (getPod s p).state ≠ .free) (hhub : hubFenced s (getPod s p).hub = false)
    (hdue : dueTime s p = some t) : podBoundary p s = runBoundary p t s := by
  simp [podBoundary, hpod, hhub, hdue]

/-- The stages of a boundary in R216's order, each from the state that the one before leaves: leaves, chaff and adapters, growth, pending
allocations and joins, release. -/
theorem runBoundary_stages {s s1 s2 s3 s4 : State} {p t b : Nat} {steps : List Inst} {acc : Acc3}
    (hcount : countBoundary p t (pwuBoundary p s) = s1) (hb : (getPod s1 p).boundary = some b)
    (hsteps : (stepsFor s1 p b).filter (fun i => !i.cancelled && !allEnded i) = steps) (hleave : stage2 p (stage1 p steps s1) = s2)
    (hgrow : steps.foldl (fun acc i => growStep p b i acc) ({ named := [], done := [] }, s2) = (acc, s3))
    (hjoin : acc.done.foldl (fun s d => joinRows p (acc.done.map (fun d => d.1)) d.1 d.2 s) (pendingAllocs p s3) = s4) :
    runBoundary p t s = applySync p t ((acc.done.map (fun d => d.1)).foldl (fun s n => releaseStep p n t s) s4) := by
  dsimp only [runBoundary]
  rw [hcount, hb, Option.getD_some, hsteps, hleave, hgrow, hjoin]

/-! ### The release and the end of a step (R208, R221, R244) -/

theorem stepRelease_due {s : State} {p num : Nat} {i : Inst} {st : StepInfo} (hi : findInst s p num = some i) (hst : i.step = some st)
    (hstaged : st.staged = true) (hwaits : st.released = false) (hdue : st.relAt ≤ now s) :
    stepRelease p num s = modStep p num (fun st => { st with released := true }) s := by
  simp [stepRelease, hi, hst, hstaged, hwaits, hdue]

theorem stepEnd_ended {s : State} {p num : Nat} {i : Inst} (hi : findInst s p num = some i) (hstep : i.step.isSome = true)
    (hended : allEnded i = true) : stepEnd p num s = endStep p num (statusOf i (now s)) s := by
  simp [stepEnd, hi, hstep, hended]

theorem endMark_normal {st : Status} (h : st = stOK ∨ st = stLATE) (p num : Nat) (r : StepRow) (s : State) :
    endMark p num st r s = r.wp + r.n := by
  dsimp only [endMark]
  exact if_pos (by simpa using h)

theorem endRow_wp (p num : Nat) (st : Status) (r : StepRow) (s : State) :
    (getStream (endRow p num st r s) r.stream).wp = endMark p num st r s := by
  simp [endRow]

theorem endRow_steps (p num : Nat) (st : Status) (r : StepRow) (s : State) :
    (getStream (endRow p num st r s) r.stream).steps = satAdd 0xFFFFFFFF (getStream s r.stream).steps 1 := by
  simp [endRow]

theorem getStream_endRow_other {r : StepRow} {j : Nat} (p num : Nat) (st : Status) (s : State) (h : j ≠ r.stream) :
    getStream (endRow p num st r s) j = getStream s j :=
  getStream_setStream_other s _ h

/-- Settles O37: a due boundary (`podBoundary_due`) runs its stages in order (`runBoundary_stages`); a staged step is released at its time
(`stepRelease_due`); a step whose nodes have ended ends (`stepEnd_ended`), which settles each row's stream (`endRow_wp`, `endRow_steps`) and no
other (`getStream_endRow_other`). -/
theorem boundaryAndStepEndRun : Obligations.BoundaryAndStepEndRun := by
  refine ⟨?boundary, ?count, ?release, ?stepEnd, ?row⟩
  case boundary =>
    intro s s1 s2 s3 s4 p t b steps acc hpod hhub hdue hcount hb hsteps hleave hgrow hjoin
    exact congrArg Host.Outcome.next
      ((podBoundary_due hpod hhub hdue).trans (runBoundary_stages hcount hb hsteps hleave hgrow hjoin))
  case count => exact fun s p t => rfl
  case release =>
    intro s p num i st hi hst hstaged hwaits hdue
    exact congrArg Host.Outcome.next (stepRelease_due hi hst hstaged hwaits hdue)
  case stepEnd =>
    intro s p num i hi hstep hended
    exact congrArg Host.Outcome.next (stepEnd_ended hi hstep hended)
  case row =>
    intro s p num st r hst
    exact ⟨(endRow_wp ..).trans (endMark_normal hst ..), endRow_steps .., fun j hj => getStream_endRow_other _ _ _ _ hj⟩

end Sys2Proof.Machine
end

section
/-! What answering a mailbox command moves, and what the readers of pods look at. -/

namespace Sys2Proof.Machine

open Sys2Proof

/-- A completion moves nothing but what answering a command moves. -/
theorem postComp_answering (tok : CmdTok) (k : CKind) (r : Nat) (st : Status) (v0 v1 : Nat) (s : State) :
    postComp tok k r st v0 v1 s = answering (postComp tok k r st v0 v1 s) s := by
  rw [answering, postComp_acked]
  exact postComp_frame ..

/-- FIRST of a command taken from `s`, after a change that leaves its mailbox. -/
theorem posts_postFirst {s t : State} {sub : Submission} (v0 : Nat) (h : getMbx t sub.mbx = getMbx s sub.mbx) :
    Posts sub .first stPENDING v0 0 s (postFirst (tokIn s sub) v0 t) :=
  posts_postComp .first 1 stPENDING v0 0 h

theorem getPod_congr {s t : State} (h : t.pods = s.pods) (p : Nat) : getPod t p = getPod s p := by
  rw [getPod, h, getPod]

theorem podInsts_congr {s t : State} (h : t.insts = s.insts) (p : Nat) : podInsts t p = podInsts s p := by
  rw [podInsts, h, podInsts]

end Sys2Proof.Machine
end

section
/-! A step at the front of the queue, and the part after a reset (R394, R468; O1 and O2). -/

namespace Sys2Proof.Machine

open Sys2Proof

theorem step_cons {s : State} {c : Instr} {r : List Instr} (h : s.pending = c :: r) : step s = exec c { s with pending := r } := by
  simp only [step, h]

theorem step_nil {s : State} (h : s.pending = []) : step s = .next (idleCycle s) := by
  simp only [step, h]

theorem idleCycle_powered {s : State} (h : s.pins.vaux3 = true) : idleCycle s =
    { s with clock := { s.clock with timeA := (s.clock.timeA + 10) % 2 ^ 64, timeB := (s.clock.timeB + 10) % 2 ^ 64 } } :=
  if_pos h

/-- Settles O1: a step takes the front command (`step_cons`) or is an idle cycle (`step_nil`, `idleCycle_powered`). -/
theorem stepRunsFront : Obligations.StepRunsFront :=
  ⟨fun _ _ => step_cons rfl, fun _ _ _ => step_cons, fun _ hidle hpower => (step_nil hidle).trans (congrArg _ (idleCycle_powered hpower))⟩

/-- Memory with nothing written has its form. -/
theorem memoryForm_empty {s : State} (h : s.mem = []) : MemoryForm s := by
  rw [MemoryForm, h]
  rfl

/-- Settles O2: every table of a reset part is empty, so that each entry reads as its default, and memory holds nothing
(`memoryForm_empty`). -/
theorem resetLeaves : Obligations.ResetLeaves :=
  ⟨fun _ => rfl, fun _ => rfl, fun _ => ⟨rfl, rfl, rfl, rfl, rfl, rfl, rfl, rfl⟩, fun _ => ⟨rfl, rfl⟩, fun _ => rfl, fun _ => rfl,
    rfl, rfl, rfl, rfl, rfl, rfl, rfl, rfl, rfl, rfl, rfl, rfl, memoryForm_empty rfl⟩

end Sys2Proof.Machine
end

section
/-! Mailboxes: enable and disable, doorbells, CQ_HEAD, and the acknowledgement of entries (R261, R312, R313, R323 row 1; O9). -/

namespace Sys2Proof.Machine

open Sys2Proof

/-! ### A vector to announce, and pages that a function comes to use -/

@[simp] theorem getMbx_pendVec (fn v : Nat) (s : State) (m : Mbx) : getMbx (pendVec fn v s) m = getMbx s m := rfl

@[simp] theorem getMbx_atsUse (fn : Nat) (pages : List Nat) (s : State) (m : Mbx) : getMbx (atsUse fn pages s) m = getMbx s m := rfl

@[simp] theorem getFunc_setMbx (m : Mbx) (b : Mailbox) (s : State) (fn : Nat) : getFunc (setMbx m b s) fn = getFunc s fn := rfl

/-- After a change of the mailboxes alone, a vector to announce changes the functions too. -/
theorem pendVec_frame {s t : State} (h : t = { s with mboxes := t.mboxes }) (fn v : Nat) :
    pendVec fn v t = { s with mboxes := (pendVec fn v t).mboxes, funcs := (pendVec fn v t).funcs } :=
  congrArg (fun u : State => { u with funcs := (pendVec fn v t).funcs }) h

theorem getFunc_pendVec (fn v : Nat) (s : State) :
    getFunc (pendVec fn v s) fn = { getFunc s fn with msixPend := (getFunc s fn).msixPend.set v true } :=
  getFunc_setFunc ..

/-- A mailbox `b` that has entered ERROR with a code (R312). -/
def inError (b : Mailbox) (code : Nat) : Mailbox := { b with state := 2, err := code, epoch := b.epoch + 1, bells := [] }

theorem mbxError_eq {s : State} {m : Mbx} {b : Mailbox} (hb : getMbx s m = b) (code : Nat) :
    mbxError m code s = pendVec m.fn 2 (setMbx m (inError b code) s) := by
  subst hb; rfl

/-! ### ENABLE (R312) -/

/-- A mailbox `b` just enabled, its rings empty. -/
def enabled (b : Mailbox) : Mailbox :=
  { b with enable := true, err := 0, sqHead := 0, sqTail := 0, cqHead := 0, cqTail := 0, phase := true, reserved := 0, bells := [] }

section Alive

variable {s : State} {m : Mbx} {b : Mailbox} (halive : mbxAlive s m = true) (hb : getMbx s m = b)

include halive hb

theorem mbxEnable_runs (hstopped : b.state ≠ 1) (hok : mbxParamsOk b = true) :
    mbxEnable m s = atsUse m.fn (busPages b.sqBase.toNat (64 * 2 ^ b.sqLog) ++ busPages b.cqBase.toNat (32 * 2 ^ b.cqLog))
      (setMbx m { enabled b with state := 1 } s) := by
  simp [mbxEnable, halive, hb, hstopped, hok, enabled]

theorem mbxEnable_fails (hstopped : b.state ≠ 1) (hbad : mbxParamsOk b = false) :
    mbxEnable m s = pendVec m.fn 2 (setMbx m (inError (enabled b) 4) (setMbx m (enabled b) s)) := by
  rw [← mbxError_eq (getMbx_setMbx s m (enabled b))]
  simp [mbxEnable, halive, hb, hstopped, hbad, enabled]

/-! ### ENABLE = 0, doorbells and CQ_HEAD (R261, R312, R313) -/

theorem sqDoorbell_rings (hrun : b.state = 1) (hready : ready s (fnHub m.fn) = true) {tail : Nat} (hin : tail < 2 ^ b.sqLog) :
    sqDoorbell m tail s = ringBell m tail s := by
  simp [sqDoorbell, halive, hb, hrun, hready, Nat.not_le.mpr hin]

theorem sqDoorbell_outside (hrun : b.state = 1) (hready : ready s (fnHub m.fn) = true) {tail : Nat} (hout : 2 ^ b.sqLog ≤ tail) :
    sqDoorbell m tail s = pendVec m.fn 2 (setMbx m (inError b 1) s) := by
  rw [← mbxError_eq hb]
  simp [sqDoorbell, halive, hb, hrun, hready, hout]

theorem cqHeadWrite_moves {head : Nat} (hin : head < 2 ^ b.cqLog) : cqHeadWrite m head s = setMbx m { b with cqHead := head } s := by
  simp [cqHeadWrite, halive, hb, Nat.not_le.mpr hin]

theorem cqHeadWrite_outside (hrun : b.state = 1) {head : Nat} (hout : 2 ^ b.cqLog ≤ head) :
    cqHeadWrite m head s = pendVec m.fn 2 (setMbx m (inError b 2) s) := by
  rw [← mbxError_eq hb]
  simp [cqHeadWrite, halive, hb, hrun, hout]

/-- A ring access that fails on the bus (R312). -/
theorem submissionAck_busFails (hrun : b.state = 1) (e : BitVec 512) :
    submissionAck m e false s = pendVec m.fn 2 (setMbx m (inError b 3) s) := by
  rw [← mbxError_eq hb]
  simp [submissionAck, halive, hb, hrun]

end Alive

theorem sqDoorbell_stopped {s : State} {m : Mbx} (tail : Nat) (h : (getMbx s m).state ≠ 1) : sqDoorbell m tail s = s := by
  simp [sqDoorbell, h]

theorem ringBell_same {s : State} {m : Mbx} {tail : Nat} (h : (getMbx s m).sqTail = tail) : ringBell m tail s = s := if_pos h

theorem ringBell_moves {s : State} {m : Mbx} {b : Mailbox} {h : Hub} {tail : Nat} (hb : getMbx s m = b) (hh : getHub s (fnHub m.fn) = h)
    (hmoves : b.sqTail ≠ tail) : ringBell m tail s =
      setHub (fnHub m.fn) { h with bells := h.bells + 1 } (setMbx m { b with sqTail := tail, bells := b.bells ++ [(tail, h.bells + 1)] } s) := by
  subst hb hh
  exact if_neg hmoves

/-! ### Acknowledgement (R313, R323 row 1) -/

/-- The submission that an acknowledgement of entry `e` makes, with the pod served and the place of the doorbell that covers it. -/
def ackSub (s : State) (m : Mbx) (e : BitVec 512) : Submission :=
  { mbx := m, entry := e, pod := boundPod s m.fn, bell := ((getMbx s m).bells.head?.map (fun x => x.2)).getD 0 }

section Ack

variable {s : State} {m : Mbx} {e : BitVec 512} {b : Mailbox} (hwaits : entryWaits s m = true) (hb : getMbx s m = b)

include hwaits hb

theorem submissionAck_takes (hfree : slotsOf e ≤ freeSlots b) (hop : opcodes.contains (entOpcode e) = true) :
    submissionAck m e true s =
      setMbx m { b with sqHead := ringNext b.sqLog b.sqHead, bells := bellsLeft b (ringNext b.sqLog b.sqHead),
                        outstanding := b.outstanding + 1, reserved := b.reserved + slotsOf e }
        { atsUse m.fn (resultPages e) s with acked := s.acked ++ [(ackSub s m e, b.epoch)] } := by
  subst hb
  dsimp only [submissionAck]
  rw [if_neg (by decide), if_neg (by simp [hwaits]), if_neg (Nat.not_lt.mpr hfree), if_pos hop]
  rfl

theorem submissionAck_waits (hfull : freeSlots b < slotsOf e) : submissionAck m e true s = s := by
  simp [submissionAck, hwaits, hb, hfull]

end Ack

/-- Settles O9: an enable by its parameters (`mbxEnable_…`), a doorbell by the mailbox's state and the index (`sqDoorbell_…`,
`ringBell_…`), CQ_HEAD by the index (`cqHeadWrite_…`), and an acknowledgement by the slots left and the bus (`submissionAck_…`). -/
theorem mailboxCommandsRun : Obligations.MailboxCommandsRun := by
  refine ⟨?enable, ⟨?disable, ?doorbell, ?stopped, ?cqHead⟩, ?ack, ?bus⟩
  case enable =>
    intro s m b halive hb hstopped
    refine ⟨fun hok => ?_, fun hbad => ?_⟩
    · refine ⟨_, congrArg Host.Outcome.next (mbxEnable_runs halive hb hstopped hok), ?_, rfl, fun n hn => ?_⟩
      · rw [getMbx_atsUse, getMbx_setMbx]; rfl
      · rw [getMbx_atsUse, getMbx_setMbx_other _ _ hn]
    · refine ⟨_, congrArg Host.Outcome.next (mbxEnable_fails halive hb hstopped hbad), ?_, ?_, ?_⟩
      · rw [getMbx_pendVec, getMbx_setMbx]; rfl
      · rw [getFunc_pendVec, getFunc_setMbx, getFunc_setMbx]
      · exact pendVec_frame rfl ..
  case disable =>
    rintro s m b halive rfl
    exact congrArg Host.Outcome.next (if_pos halive)
  case doorbell =>
    intro s m b v halive hb hrun hready
    refine ⟨fun hsame hin => congrArg Host.Outcome.next ?_, fun hmoves hin h hh => congrArg Host.Outcome.next ?_,
      fun hout => congrArg Host.Outcome.next (sqDoorbell_outside halive hb hrun hready hout)⟩
    · exact (sqDoorbell_rings halive hb hrun hready hin).trans (ringBell_same (by rw [hb, hsame]))
    · exact (sqDoorbell_rings halive hb hrun hready hin).trans (ringBell_moves hb hh (Ne.symm hmoves))
  case stopped => exact fun s m v hstopped => congrArg Host.Outcome.next (sqDoorbell_stopped _ hstopped)
  case cqHead =>
    intro s m b v halive hb hrun
    exact ⟨fun hin => congrArg Host.Outcome.next (cqHeadWrite_moves halive hb hin),
      fun hout => congrArg Host.Outcome.next (cqHeadWrite_outside halive hb hrun hout)⟩
  case ack =>
    intro s m e b hwaits hb
    refine ⟨fun hfree hop => ?_, fun hfull => congrArg Host.Outcome.next (submissionAck_waits hwaits hb hfull)⟩
    refine ⟨_, congrArg Host.Outcome.next (submissionAck_takes hwaits hb hfree hop), getMbx_setMbx .., ?_⟩
    subst hb
    rfl
  case bus =>
    exact fun s m e b halive hb hrun => congrArg Host.Outcome.next (submissionAck_busFails halive hb hrun e)

end Sys2Proof.Machine
end

section
/-! POD_CREATE and its AMEND flag (R222, R226, R262, R321; O11). -/

namespace Sys2Proof.Machine

open Sys2Proof

/-! ### POD_CREATE (R262) -/

/-- The pod that entry `e` makes in the place of the FREE pod `old` (R262). -/
def createdPod (s : State) (e : BitVec 512) (old : Pod) : Pod :=
  { state := .created, walk := bit e.toNat 240, share := ent e 239 235, quota := ent e 234 224,
    cores := coreMask (ent e 95 64) (ent e 159 96), slices := onesOf 64 (ent e 223 160), graphSlices := onesOf 64 (ent e 319 256),
    kvcSlices := onesOf 64 (ent e 383 320), slotFirst := ent e 399 384, key := some (Config.drbg s.sec.drbgDraws),
    boundaryAt := now s, jhead := old.jhead, journal := old.journal }

theorem podCreate_creates {s : State} {sub : Submission} {e : BitVec 512} {old : Pod} (tok : CmdTok) (he : sub.entry = e)
    (hcheck : checkCmd spCreate true sub (createFields e) true s = none) (hold : getPod s (entPod e) = old) (hfree : old.state = .free)
    (hshare : shareSum s + ent e 239 235 ≤ 16) (hcores : (coreMask (ent e 95 64) (ent e 159 96)).any (coreTaken s) = false)
    (hslices : (onesOf 64 (ent e 223 160)).any (sliceTaken s) = false) :
    podCreate sub tok s = only sub tok stOK 0 0 (setPod (entPod e) (createdPod s e old) (drawKey s).2) := by
  dsimp only [podCreate]
  rw [he, guarded_pass _ hcheck, hold, if_neg (not_not_intro hfree), if_neg (Nat.not_lt.mpr hshare), hcores, hslices]
  rfl

/-! ### AMEND (R321) -/

/-- An empty range of adapter slots meets no other pod's (R222). -/
theorem slotsMeet_empty (s : State) (p first : Nat) : slotsMeet s p first 0 = false := by
  refine List.any_eq_false.mpr (fun q _ => ?_)
  have hempty : ¬ max first (getPod s q).slotFirst < min (first + 0) ((getPod s q).slotFirst + (getPod s q).slots) := by omega
  rw [decide_eq_false hempty, Bool.and_false]
  exact Bool.false_ne_true

theorem podAmend_amends {s : State} {sub : Submission} {e : BitVec 512} (tok : CmdTok) (he : sub.entry = e)
    (hcheck : checkCmd spCreate false sub (amendFields e) true s = none) (hjobs : jobCount s (entPod e) = 0)
    (hslots : ent e 416 400 = 0) (hfit : nodesFit (getPod s (entPod e)) (ent e 507 488) = true) :
    podAmend sub tok s = only sub tok stOK 0 0 (modPod (entPod e) (fun v =>
      { v with walkPend := if bit e.toNat 240 = v.walk then none else some (bit e.toNat 240), slotFirst := ent e 399 384, slots := 0,
               aregion := ent e 455 448, aoff := ent e 487 464, nodes := ent e 507 488 }) (cutNodes (entPod e) (ent e 507 488) s)) := by
  dsimp only [podAmend]
  rw [he, hslots, decide_eq_true (rfl : 0 = 0), Bool.true_or, guarded_pass _ hcheck]
  simp [hjobs, slotsMeet_empty, hfit]

/-- An index whose paths all lie below `n` loses no node (log entry 68). -/
theorem cutNodes_below {s : State} {p n : Nat} (h : ∀ q, q ∈ (getPod s p).pfx →
    ∀ x, x ∈ pfxPath ((getPod s p).pfx.length + 1) (getPod s p) q.1 [q.1] → x < n) : cutNodes p n s = s := by
  have hnone : ((getPod s p).pfx.filter (fun q =>
      (pfxPath ((getPod s p).pfx.length + 1) (getPod s p) q.1 [q.1]).any (fun x => decide (n ≤ x)))) = [] := by
    refine List.filter_eq_nil_iff.mpr (fun q hq => ?_)
    simpa using h q hq
  dsimp only [cutNodes]
  rw [List.partition_eq_filter_filter, hnone]
  rfl

/-- Settles O11: a created pod is `createdPod` (`podCreate_creates`), an amended one has the entry's fields (`podAmend_amends`), and an
index that fits loses nothing (`cutNodes_below`). -/
theorem podCreateRuns : Obligations.PodCreateRuns := by
  refine ⟨?create, ?amend, fun s p n => cutNodes_below⟩
  case create =>
    intro s sub e old htakes he hcheck hold hfree hshare hcores hslices
    exact congrArg Host.Outcome.next ((runCmd_takes _ htakes).trans
      (podCreate_creates (s := taken sub s) _ he hcheck hold hfree hshare hcores hslices))
  case amend =>
    rintro s sub e v htakes he hcheck rfl hjobs hslots hfit
    exact congrArg Host.Outcome.next ((runCmd_takes _ htakes).trans
      (podAmend_amends (s := taken sub s) _ he hcheck hjobs hslots hfit))

end Sys2Proof.Machine
end

section
/-! Quota, moving cores, binding, the pending walk mode, POD_DESTROY and POD_FREED (R189, R263-R265, R342, R343; O12). -/

namespace Sys2Proof.Machine

open Sys2Proof

/-! ### Quota and the pending walk mode (R189, R264) -/

theorem podSetQuota_sets {s : State} {sub : Submission} (tok : CmdTok)
    (hcheck : checkCmd spQuota false sub (1 ≤ ent sub.entry 74 64 && ent sub.entry 74 64 ≤ 1024) true s = none) :
    podSetQuota sub tok s = only sub tok stOK 0 0 (modPod (entPod sub.entry) (fun v => { v with quota := ent sub.entry 74 64 }) s) := by
  rw [podSetQuota, guarded_pass _ hcheck]

theorem walkModeApply_idle {s : State} {p : Nat} {w : Bool} (hpend : (getPod s p).walkPend = some w) (hjobs : jobCount s p = 0) :
    walkModeApply p s = setPod p { getPod s p with walk := w, walkPend := none } s := by
  simp [walkModeApply, hpend, hjobs]

/-! ### Moving cores (R265) -/

/-- Unmarked cores of the pod are marked, with no destination, and the command waits. -/
theorem podMoveCores_marks {s : State} {sub : Submission} {v : Pod} {l : List Nat} (tok : CmdTok)
    (hcheck : checkCmd spMove false sub true true s = none) (hnowhere : bit sub.entry.toNat 164 = false)
    (hv : getPod s (entPod sub.entry) = v) (hl : coreMask (ent sub.entry 95 64) (ent sub.entry 159 96) = l) (hsome : l ≠ [])
    (hmine : l.any (fun c => !v.cores.contains c || v.marked.any (fun m => m.1 = c)) = false) :
    podMoveCores sub tok s = postFirst tok 0
      { setPod (entPod sub.entry) { v with marked := v.marked ++ l.map (fun c => (c, none)) } s with
        cmds := s.cmds ++ [{ tok := tok, work := .moveCores (entPod sub.entry) l }] } := by
  have hgo : ¬ l.isEmpty = true := by simpa using hsome
  dsimp only [podMoveCores]
  rw [hnowhere, if_neg Bool.false_ne_true]
  refine (guarded_pass _ hcheck).trans ?_
  rw [hv, hl, if_neg (Bool.eq_false_iff.mp hmine), if_neg hgo]
  rfl

theorem forgetCore_pods (c : Nat) (s : State) : (forgetCore c s).pods = s.pods := by
  unfold forgetCore; split <;> rfl

theorem coreMoved_pods (p c : Nat) (s : State) : (coreMoved p c s).pods = s.pods := by
  unfold coreMoved
  exact foldl_unchanged (view := State.pods) (fun _ _ => postComp_pods ..) _ _

/-- A core that leaves for no pod changes its own pod alone. -/
theorem moveCore_nowhere_pods (p c : Nat) (s : State) : (moveCore p c none s).pods = (setPod p { getPod s p with
    cores := (getPod s p).cores.filter (fun x => x ≠ c), marked := (getPod s p).marked.filter (fun m => m.1 ≠ c) } s).pods :=
  (coreMoved_pods ..).trans (forgetCore_pods ..)

theorem exec_coreMove_free {s : State} {p c : Nat} {dest : Option Nat} (hmarked : (List.range 16).findSome? (fun q =>
      ((getPod s q).marked.find? (fun m => m.1 = c)).map (fun m => (q, m.2))) = some (p, dest)) (hfree : coreHeld s p c = false) :
    exec (.coreMove c) s = .next (moveCore p c dest s) := by
  change execCoreMove c s = _
  rw [execCoreMove, hmarked]
  exact congrArg _ (if_neg (by simp [hfree]))

/-! ### Binding (R342, R343) -/

theorem podBind_binds {s : State} {sub : Submission} {v : Pod} (tok : CmdTok) (hcheck : checkCmd spBind false sub true true s = none)
    (hv : getPod s (entPod sub.entry) = v) (hstate : v.state = .created) (hfree : boundPod s (4 + ent sub.entry 67 64) = none)
    (hjobs : jobCount s (entPod sub.entry) = 0) :
    podBind sub tok s = only sub tok stOK 0 0 (setPod (entPod sub.entry)
      { v with state := .bound, vf := some (ent sub.entry 67 64), hub := fnHub (4 + ent sub.entry 67 64) } s) := by
  rw [podBind, guarded_pass _ hcheck]
  simp [hv, hstate, hfree, hjobs]

theorem podUnbind_unbinds {s : State} {sub : Submission} {v : Pod} (tok : CmdTok) (hcheck : checkCmd spBind false sub true true s = none)
    (hv : getPod s (entPod sub.entry) = v) (hstate : v.state = .bound) (hvf : v.vf = some (ent sub.entry 67 64)) :
    podUnbind sub tok s = only sub tok stOK 0 0
      (stopFn (4 + ent sub.entry 67 64) (setPod (entPod sub.entry) { v with state := .created, vf := none } s)) := by
  rw [podUnbind, guarded_pass _ hcheck]
  simp [hv, hstate, hvf]

/-! ### POD_DESTROY and POD_FREED (R263) -/

/-- A pod without instances becomes DESTROYING, and its fence goes with it (log entry 46). -/
theorem podDestroy_starts {s : State} {sub : Submission} {v : Pod} (tok : CmdTok) (hcheck : checkCmd spDestroy false sub true true s = none)
    (hv : getPod s (entPod sub.entry) = v) (hstate : v.state ≠ .destroying) (hnone : podInsts s (entPod sub.entry) = []) :
    podDestroy sub tok s = postFirst tok 0 (setPod (entPod sub.entry) { v with state := .destroying, destroyTok := some tok }
      { s with fences := s.fences.filter (fun f => f.1 ≠ .pod (entPod sub.entry)) }) := by
  have hstill : ∀ w fs, podInsts (postFirst tok 0 (setPod (entPod sub.entry) w { s with fences := fs })) (entPod sub.entry) = [] :=
    fun w fs => (podInsts_congr (postComp_insts ..) _).trans hnone
  dsimp only [podDestroy]
  rw [guarded_pass _ hcheck, hv, if_neg hstate, hstill]
  rfl

/-- A freed pod keeps its journal alone. -/
theorem getPod_podFreed {s : State} {p : Nat} (hstate : (getPod s p).state = .destroying) (hjobs : jobCount s p = 0) :
    getPod (podFreed p s) p = { jhead := (getPod s p).jhead, journal := (getPod s p).journal } := by
  dsimp only [podFreed]
  rw [if_neg (by simp [hstate, hjobs])]
  exact getPod_setPod ..

/-- Settles O12: each command by what its own rule changes (`podSetQuota_sets`, `podMoveCores_marks`, `podBind_binds`,
`podUnbind_unbinds`, `podDestroy_starts`), the part's own changes by theirs (`walkModeApply_idle`, `getPod_podFreed`,
`moveCore_nowhere_pods`). -/
theorem podChangesRun : Obligations.PodChangesRun := by
  refine ⟨⟨?quota, ?move, ?bind, ?unbind, ?walk⟩, ?destroy, ?freed, ?coreMove⟩
  case quota =>
    intro s sub htakes hcheck
    exact congrArg Host.Outcome.next ((runCmd_takes _ htakes).trans (podSetQuota_sets (s := taken sub s) _ hcheck))
  case move =>
    intro s sub v l htakes hcheck hnowhere hv hl hsome hmine
    exact congrArg Host.Outcome.next ((runCmd_takes _ htakes).trans
      (podMoveCores_marks (s := taken sub s) _ hcheck hnowhere hv hl hsome hmine))
  case bind =>
    intro s sub v htakes hcheck hv hstate hfree hjobs
    exact congrArg Host.Outcome.next ((runCmd_takes _ htakes).trans
      (podBind_binds (s := taken sub s) _ hcheck hv hstate hfree hjobs))
  case unbind =>
    intro s sub v htakes hcheck hv hstate hvf
    exact congrArg Host.Outcome.next ((runCmd_takes _ htakes).trans (podUnbind_unbinds (s := taken sub s) _ hcheck hv hstate hvf))
  case walk => exact fun s p w hpend hjobs => congrArg Host.Outcome.next (walkModeApply_idle hpend hjobs)
  case destroy =>
    intro s sub v htakes hcheck hv hstate hnone
    exact congrArg Host.Outcome.next ((runCmd_takes _ htakes).trans
      (podDestroy_starts (s := taken sub s) _ hcheck hv hstate hnone))
  case freed => exact fun s p hstate hjobs => ⟨podFreed p s, rfl, getPod_podFreed hstate hjobs⟩
  case coreMove =>
    intro s p c hmarked hfree
    have hpod := getPod_congr (moveCore_nowhere_pods p c s)
    refine ⟨_, exec_coreMove_free hmarked hfree, ?_, ?_, fun q hq => (hpod q).trans (getPod_setPod_other s _ hq)⟩ <;>
      rw [hpod, getPod_setPod]

end Sys2Proof.Machine
end

section
/-! GRAPH_LOAD and its UNLOAD flag (R234, R316; O13). -/

namespace Sys2Proof.Machine

open Sys2Proof

/-! ### Loading -/

/-- The state in which graph `g` of pod `p` waits at `a` of the graph store for its load to end. -/
def graphStored (tok : CmdTok) (p a : Nat) (g : Graph) (s : State) : State :=
  { s with nextGraph := (s.nextGraph + 1) % 2 ^ 32, graphs := s.graphs ++ [{ g with id := s.nextGraph, storeAt := a }],
           cmds := s.cmds ++ [{ tok := tok, work := .graphLoad p s.nextGraph }] }

theorem graphTake_stores {s : State} {p a n at' : Nat} {bs : List (Byte × Bool)} {g : Graph} (sub : Submission) (tok : CmdTok)
    (hreach : podReaches s p a n false = true) (hread : fetchBytes a n s = (bs, s)) (hclean : bs.any (fun b => b.2) = false)
    (hparse : graphParse s p (bs.map (fun b => b.1)) = some g) (hfit : storeFit s p n = some at')
    (hroom : (podGraphs s p).length < 256) :
    graphTake sub tok p a n s = postFirst tok 0 (graphStored tok p at' g s) := by
  simp only [graphTake, hreach, hread, hclean, hparse, hfit, Nat.not_le.mpr hroom, Bool.not_true, Bool.and_false, Bool.false_eq_true,
    if_false]
  rfl

theorem graphLoad_takes {s : State} {sub : Submission} {p a n : Nat} (tok : CmdTok)
    (hcheck : checkCmd spLoad false sub (ent sub.entry 191 160 = 0) true s = none) (hp : cmdPod sub = some p)
    (ha : ent sub.entry 111 64 = a) (hn : ent sub.entry 143 112 = n) : graphLoad sub tok s = graphTake sub tok p a n s := by
  rw [graphLoad, guarded_pass _ hcheck, hp, ha, hn, Option.getD_some]

/-! ### Unloading -/

/-- The state in which graph `id` of pod `p` is no longer loaded and waits for its unload to end. -/
def graphDropped (tok : CmdTok) (p id : Nat) (s : State) : State :=
  { s with graphs := s.graphs.map (fun g => if g.pod = p && g.id = id then { g with loaded := false } else g),
           cmds := s.cmds ++ [{ tok := tok, work := .graphUnload p id }] }

theorem graphUnload_idle {s : State} {sub : Submission} {p : Nat} (tok : CmdTok) (hp : cmdPod sub = some p)
    (hcheck : checkCmd spLoad false sub (ent sub.entry 111 64 = 0 && ent sub.entry 143 112 = 0) true s = none)
    (hknown : (getGraph s p (ent sub.entry 191 160)).isSome = true) (hidle : graphBusy s p (ent sub.entry 191 160) = false) :
    graphUnload sub tok s = postFirst tok 0 (graphDropped tok p (ent sub.entry 191 160) s) := by
  dsimp only [graphUnload]
  rw [hp, Option.getD_some, hknown, guarded_pass _ hcheck, if_neg (Bool.eq_false_iff.mp hidle)]
  rfl

/-! ### The end of a load -/

theorem graphLoadComplete_loaded {s : State} {p id : Nat} {c : PendingCmd} {g : Graph}
    (hc : s.cmds.find? (fun c => c.work = .graphLoad p id) = some c) (hg : s.graphs.find? (fun g => g.pod = p && g.id = id) = some g) :
    graphLoadComplete p id s = postFinal c.tok stOK (id + at_ 32 (b2n g.step)) 0 { s with
      cmds := s.cmds.erase c,
      graphs := s.graphs.map (fun g => if g.pod = p && g.id = id then { g with loaded := true } else g) } := by
  simp only [graphLoadComplete, takeCmd, hc, hg]

/-- Settles O13: a good image is stored (`graphTake_stores`), an idle graph is dropped (`graphUnload_idle`), and each is only that and FIRST
(`posts_postFirst`, `postComp_answering`); a load's end makes the graph loadable (`graphLoadComplete_loaded`). -/
theorem graphLoadRuns : Obligations.GraphLoadRuns := by
  refine ⟨?load, ?unload, fun s p id c g hc hg => congrArg Host.Outcome.next (graphLoadComplete_loaded hc hg)⟩
  case load =>
    intro s sub p a n bs g at' htakes hcheck hp ha hn hreach hread hclean hparse hfit hroom
    refine ⟨_, congrArg Host.Outcome.next ((runCmd_takes _ htakes).trans ((graphLoad_takes (s := taken sub s) _ hcheck hp ha hn).trans
      (graphTake_stores sub _ hreach hread hclean hparse hfit hroom))), posts_postFirst 0 rfl, ?_⟩
    exact postComp_answering ..
  case unload =>
    intro s sub p htakes hp hcheck hknown hidle
    refine ⟨_, congrArg Host.Outcome.next ((runCmd_takes _ htakes).trans (graphUnload_idle (s := taken sub s) _ hp hcheck hknown hidle)),
      posts_postFirst 0 rfl, ?_⟩
    exact postComp_answering ..

end Sys2Proof.Machine
end

section
/-! GRAPH_RUN (R243, R244, R250, R256, R264; O14). -/

namespace Sys2Proof.Machine

open Sys2Proof

/-- The command runs graph `g` of pod `p`, which is neither a step graph nor a peer graph, without a table of peers. -/
structure RunAsked (s : State) (sub : Submission) (p rel dl : Nat) (g : Graph) : Prop where
  pod : cmdPod sub = some p
  graph : getGraph s p (ent sub.entry 95 64) = some g
  notStep : g.step = false
  notPeer : g.peer = false
  noTable : ent sub.entry 303 256 = 0
  release : ent sub.entry 159 96 = rel
  deadline : ent sub.entry 223 160 = dl
  checks : checkCmd spRun false sub (bit sub.entry.toNat 224 || rel ≤ dl) true s = none

/-- Without a table every peer address is 0. -/
theorem graphRun_decides {s : State} {sub : Submission} {p rel dl : Nat} {g : Graph} (tok : CmdTok) (h : RunAsked s sub p rel dl g) :
    graphRun sub tok s = decideRun sub tok p g rel dl (!bit sub.entry.toNat 224) (List.replicate 16 0) s := by
  dsimp only [graphRun]
  rw [h.pod, Option.getD_some, h.graph, Option.isSome_some, h.noTable, h.release, h.deadline, decide_eq_true (Nat.zero_mod 64), Bool.and_true,
    Bool.not_not, guarded_pass _ h.checks, h.graph]
  simp only [h.notStep, h.notPeer, Bool.and_false, Bool.false_or, peerTable, if_true]
  rfl

/-- What a run of graph `g` is admitted as, before it has a number (R244). -/
def runInst (s : State) (tok : CmdTok) (p rel dl : Nat) (g : Graph) (promised : Bool) (nodes : List NodeRun) (floors : List (Nat × Nat)) : Inst :=
  { pod := p, num := 0, graph := g.id, tok := tok, promised := promised, release := max rel (now s), deadline := dl,
    nodes := nodes, step := none, peers := List.replicate 16 0, cancelled := false, late := none, floors := floors, sources := podSources s p }

section Decide

variable {s : State} {p rel dl : Nat} {g : Graph} {slots : List Slot} (sub : Submission) (tok : CmdTok)

theorem decideRun_overQuota (promised : Bool) (peers : List Nat) (hquota : (getPod s p).quota ≤ jobCount s p) :
    decideRun sub tok p g rel dl promised peers s = only sub tok stREFUSED_QUOTA 0 0 s :=
  if_pos hquota

theorem decideRun_bestEffort (hquota : jobCount s p < (getPod s p).quota) :
    decideRun sub tok p g rel dl false (List.replicate 16 0) s =
      admitInst (runInst s tok p rel dl g false (g.nodes.map (fun _ => freshNode [] 0 0)) []) s :=
  (if_neg (Nat.not_le.mpr hquota)).trans (if_pos rfl)

theorem decideRun_inTime (hquota : jobCount s p < (getPod s p).quota) (hplan : tentative s p g (max rel (now s)) none = some slots)
    (hends : completionOf slots ≤ dl) : decideRun sub tok p g rel dl true (List.replicate 16 0) s =
      admitInst (runInst s tok p rel dl g true (slots.map (fun sl => freshNode sl.cores sl.start sl.fin)) (planFloors s p slots)) s := by
  simp [decideRun, Nat.not_le.mpr hquota, hplan, hends, runInst]

theorem decideRun_late (peers : List Nat) (hquota : jobCount s p < (getPod s p).quota)
    (hplan : tentative s p g (max rel (now s)) none = some slots) (hlate : dl < completionOf slots) :
    decideRun sub tok p g rel dl true peers s = only sub tok stREFUSED_DEADLINE (earliest (some slots)) 0 s := by
  simp [decideRun, Nat.not_le.mpr hquota, hplan, Nat.not_le.mpr hlate]

end Decide

/-- Settles O14: the command is put to the decision (`graphRun_decides`), which refuses a run past the quota (`decideRun_overQuota`) or the
deadline (`decideRun_late`) and admits any other (`decideRun_bestEffort`, `decideRun_inTime`). -/
theorem graphRunRuns : Obligations.GraphRunRuns := by
  intro s sub p g rel dl htakes hp hgraph hstep hpeer htable hrel hdl hcheck
  have hasked : RunAsked (taken sub s) sub p rel dl g := ⟨hp, hgraph, hstep, hpeer, htable, hrel, hdl, hcheck⟩
  have hdecides : exec (.graphRun sub) s = .next
      (decideRun sub (tokIn s sub) p g rel dl (!bit sub.entry.toNat 224) (List.replicate 16 0) (taken sub s)) :=
    congrArg Host.Outcome.next ((runCmd_takes _ htakes).trans (graphRun_decides _ hasked))
  rw [hdecides]
  refine ⟨fun hquota => ?overQuota, fun hquota hbest => ?bestEffort, fun slots hquota hprom hplan => ?promised⟩
  case overQuota => exact congrArg _ (decideRun_overQuota _ _ _ _ hquota)
  case bestEffort =>
    rw [hbest]
    exact congrArg _ (decideRun_bestEffort _ _ hquota)
  case promised =>
    rw [hprom]
    exact ⟨fun hends => congrArg _ (decideRun_inTime _ _ hquota hplan hends),
      fun hlate => congrArg _ (decideRun_late _ _ _ hquota hplan hlate)⟩

end Sys2Proof.Machine
end

section
/-! GRAPH_CANCEL, JOURNAL_READ and the 4,096-byte records (R258, R320, R327, R330, R363, R380, R429; O15). -/

namespace Sys2Proof.Machine

open Sys2Proof

/-! ### GRAPH_CANCEL and JOURNAL_READ (R258, R320, R380) -/

theorem graphCancel_live {s : State} {sub : Submission} {p : Nat} (tok : CmdTok) (hp : cmdPod sub = some p)
    (hcheck : checkCmd spCancel false sub true true s = none) (hlive : (findInst s p (ent sub.entry 95 64)).isSome = true) :
    graphCancel sub tok s = only sub tok stOK 0 0 (cancelInst p (ent sub.entry 95 64) s) := by
  dsimp only [graphCancel]
  rw [hp, Option.getD_some, hlive, guarded_pass _ hcheck]

theorem journalRead_answers {s : State} {sub : Submission} {p n : Nat} (tok : CmdTok) (hp : cmdPod sub = some p)
    (hn : ent sub.entry 172 160 = n) (hlow : 1 ≤ n) (hhigh : n ≤ 4096) (hdest : ent sub.entry 127 64 % 64 = 0)
    (hheld : (getPod s p).jhead ≤ ent sub.entry 159 128 + 65536) (hcheck : checkCmd spJournal false sub true true s = none) :
    journalRead sub tok s = only sub tok stOK n (getPod s p).jhead
      (emitResult sub (ent sub.entry 127 64) (journalRange s p (ent sub.entry 159 128) n) s) := by
  dsimp only [journalRead]
  rw [hp, Option.getD_some, hn, hdest, decide_eq_true hlow, decide_eq_true hhigh, decide_eq_true hheld]
  exact guarded_pass _ hcheck

/-! ### Records (R320) -/

theorem length_recordOf (fields : List (Nat × Nat)) : (recordOf fields).length = 4096 := length_leBytes ..

theorem report_writes {op : Nat} {src : From} {sub : Submission} {s : State} (body : State → List Byte) (tok : CmdTok)
    (hdest : ent sub.entry 127 64 % 64 = 0) (hcheck : checkCmd (spReport op src) false sub true true s = none) :
    report op src body sub tok s = only sub tok stOK 4096 0 (emitResult sub (ent sub.entry 127 64) (body s) s) := by
  dsimp only [report]
  rw [hdest]
  exact guarded_pass _ hcheck

theorem runCmd_report {op : Nat} {src : From} {sub : Submission} {s : State} (body : State → List Byte)
    (hdest : ent sub.entry 127 64 % 64 = 0) (htakes : Takes (spReport op src) (fun _ => true) sub s)
    (hcheck : checkCmd (spReport op src) false sub true true s = none) :
    runCmd (spReport op src) (fun _ => true) sub s (report op src body sub) = answers sub stOK 4096 0 s (fun s =>
      emit (.result sub.mbx (ent sub.entry 127 64) (body s) (mbxPasid (getMbx s sub.mbx))) s) :=
  (runCmd_takes _ htakes).trans (report_writes (s := taken sub s) body _ hdest hcheck)

/-- One free value is taken (log entry 5). -/
def takeFree (s : State) : State := { s with freeIdx := s.freeIdx + 1 }

theorem takeFree_answering {s t : State} (h : t = answering t s) : takeFree t = { answering t s with freeIdx := s.freeIdx + 1 } := by
  have hfree : t.freeIdx = s.freeIdx := (congrArg State.freeIdx h :)
  rw [takeFree, hfree]
  exact congrArg (fun u : State => { u with freeIdx := s.freeIdx + 1 }) h

/-- What MARGIN_PLAN_READ leaves: a record's answer, and one free value taken. -/
def planRead (sub : Submission) (s : State) : State :=
  takeFree (only sub (tokIn s sub) stOK 4096 0 (emitResult sub (ent sub.entry 127 64) (planRecord (taken sub s)) (taken sub s)))

theorem exec_marginPlanRead {sub : Submission} {s : State} (hdest : ent sub.entry 127 64 % 64 = 0)
    (htakes : Takes (spReport 0x61 .mgmt) (fun _ => true) sub s) (hcheck : checkCmd (spReport 0x61 .mgmt) false sub true true s = none) :
    exec (.marginPlanRead sub) s = .next (planRead sub s) :=
  congrArg Host.Outcome.next ((runCmd_takes _ htakes).trans
    (congrArg takeFree (report_writes (s := taken sub s) planRecord _ hdest hcheck)))

theorem posts_planRead (sub : Submission) (s : State) : Posts sub .only stOK 4096 0 s (planRead sub s) :=
  posts_postComp .only _ stOK 4096 0 rfl

theorem result_planRead (sub : Submission) (s : State) :
    Out.result sub.mbx (ent sub.entry 127 64) (planRecord (taken sub s)) (mbxPasid (getMbx s sub.mbx)) ∈ (planRead sub s).out :=
  out_postComp _ _ _ _ _ _ _ _ List.mem_cons_self

theorem planRead_frame (sub : Submission) (s : State) :
    planRead sub s = { answering (planRead sub s) s with freeIdx := s.freeIdx + 1 } :=
  takeFree_answering (postComp_answering ..)

/-- Settles O15: a live run is cancelled (`graphCancel_live`), the journal's range is written (`journalRead_answers`), and each record is
written by the one rule of R320 (`runCmd_report`; `planRead` for the margin plan). -/
theorem recordsAndCancelRun : Obligations.RecordsAndCancelRun := by
  refine ⟨⟨?cancel, ?journal⟩, ?records⟩
  case cancel =>
    intro s sub p htakes hp hcheck hlive
    exact congrArg Host.Outcome.next ((runCmd_takes _ htakes).trans (graphCancel_live (s := taken sub s) _ hp hcheck hlive))
  case journal =>
    intro s sub p n htakes hp hn hlow hhigh hdest hheld hcheck
    exact congrArg Host.Outcome.next ((runCmd_takes _ htakes).trans
      (journalRead_answers (s := taken sub s) _ hp hn hlow hhigh hdest hheld hcheck))
  case records =>
    intro s sub hdest
    refine ⟨?identify, ?summary, ?health, ?plan, length_recordOf _, length_recordOf _, length_recordOf _, length_recordOf _⟩
    case identify => exact fun htakes hcheck => congrArg Host.Outcome.next (runCmd_report identityRecord hdest htakes hcheck)
    case summary => exact fun htakes hcheck => congrArg Host.Outcome.next (runCmd_report (summaryRecord sub.mbx.fn) hdest htakes hcheck)
    case health => exact fun htakes hcheck => congrArg Host.Outcome.next (runCmd_report healthRecord hdest htakes hcheck)
    case plan =>
      exact fun htakes hcheck => ⟨_, exec_marginPlanRead hdest htakes hcheck, posts_planRead sub s, result_planRead sub s, planRead_frame sub s⟩

end Sys2Proof.Machine
end

section
/-! The start and the end of nodes (R242, R249, R253, R256, R258, R294, R378; O28). -/

namespace Sys2Proof.Machine

open Sys2Proof

/-! ### Starting (R242, R253, R256) -/

/-- The gang of a planned node with the cores that the plan gives each member. -/
def plannedGang (g : Graph) (i : Inst) (ref : NodeRef) : List (Nat × List Nat) :=
  (gangOf g.nodes ref.node).map (fun m => (m, match i.nodes[m]? with
    | some n => n.cores
    | none => []))

theorem startPlanned_starts {s : State} {ref : NodeRef} {i : Inst} {g : Graph} (hready : plannedReady s ref = true)
    (hi : findInst s ref.pod ref.inst = some i) (hg : graphOf s i = some g)
    (hcores : (plannedGang g i ref).any (fun m => m.2.any (fun c => if 96 ≤ c then false else coreFenced s c)) = false) :
    startPlanned ref s = startGang ref.pod ref.inst (plannedGang g i ref) s := by
  simp only [startPlanned, hready, hi, hg]
  exact if_neg (Bool.eq_false_iff.mp hcores)

theorem startBestEffort_starts {s : State} {ref : NodeRef} {n : Nat} {l : List (Nat × Slot)}
    (hnext : nextBestEffort s ref.pod = some (ref.inst, n, l)) (hin : l.any (fun m => m.1 = ref.node) = true) :
    startBestEffort ref s = startGang ref.pod ref.inst (l.map (fun m => (m.1, m.2.cores))) s := by
  simp only [startBestEffort, hnext, hin, and_self, if_true]

/-! ### Ending (R249, R258, R294) -/

/-- A running node is one that no fault has stopped. -/
theorem stoppedBy_running {s : State} {ref : NodeRef} (h : isRunning s ref = true) : stoppedBy s ref = none := by
  unfold isRunning at h
  unfold stoppedBy
  cases hn : getNode s ref with
  | none => rfl
  | some n =>
    obtain ⟨hst, hstop⟩ : n.st = .running ∧ n.stop.isNone = true := by simpa [hn] using h
    simpa [hst] using hstop

theorem completeNode_done {s : State} {ref : NodeRef} (hrun : isRunning s ref = true) (hdone : workDone s ref = true)
    (hlanded : writesLanded s ref = true) : completeNode ref s =
      checkEnd ref.pod ref.inst (finishNode ref (if wrotePoison s ref then .poisoned else .done) csNONE s) := by
  simp only [completeNode, stoppedBy_running hrun, hrun, hdone, hlanded, Bool.and_true, if_true]

theorem completeNode_stopped {s : State} {ref : NodeRef} {c : Nat} (hstop : stoppedBy s ref = some c) :
    completeNode ref s = if issuedLanded s ref then checkEnd ref.pod ref.inst (finishNode ref .faulted c s) else s := by
  simp only [completeNode, hstop]

/-- A node without tile runs has no bank to drain. -/
theorem drainNode_noTiles {s : State} {ref : NodeRef} (h : s.tileRuns.all (fun r => r.ref.node ≠ ref) = true) : drainNode ref s = s := by
  have hnone : s.tileRuns.filter (fun r => r.ref.node = ref) = [] :=
    List.filter_eq_nil_iff.mpr (fun r hr => by simpa using List.all_eq_true.mp h r hr)
  simp only [drainNode, hnone, List.foldl_nil]

theorem stopNode_cancelled {s : State} {ref : NodeRef} (hrun : isRunning s ref = true) (hcancel : nodeCancelled s ref = true)
    (hnone : s.tileRuns.all (fun r => r.ref.node ≠ ref) = true) (hlanded : issuedLanded s ref = true) :
    stopNode ref s = checkEnd ref.pod ref.inst (finishNode ref .part csCANCELLED s) := by
  simp only [stopNode, drainNode_noTiles hnone, hrun, hcancel, hlanded, Bool.and_true, if_true]

/-! ### The start of one node that loads nothing (R253, R378) -/

/-- What a start makes of a node: it is RUNNING on its cores, and its record takes the pod's next journal position. -/
def runningFrom (s : State) (ref : NodeRef) (cores : List Nat) (n : NodeRun) : NodeRun :=
  { n with st := .running, cores := cores, jpos := some (takePos ref.pod s).1, startedAt := now s }

/-- The RUNNING record of a node that starts now (R377, R379). -/
def startRecord (s : State) (ref : NodeRef) (g : Graph) : JRec :=
  { inst := ref.inst, node := ref.node, st := .running, pmask := 0, cause := 0,
    hwm := (List.range 4).map (fun k => if isSproutOut g (nodeRec g ref.node) k then 0xFFFFFFFF else 0), time := now s }

/-- The state with that record at the pod's next journal position. -/
def recordStart (ref : NodeRef) (g : Graph) (s : State) : State :=
  writeRec ref.pod (takePos ref.pod s).1 (startRecord s ref g) (takePos ref.pod s).2

theorem recordStart_frame (ref : NodeRef) (g : Graph) (s : State) : recordStart ref g s = { s with pods := (recordStart ref g s).pods } := rfl

theorem recordStart_insts (ref : NodeRef) (g : Graph) (s : State) : (recordStart ref g s).insts = s.insts :=
  (congrArg State.insts (recordStart_frame ref g s) :)

/-- COPY, SYNC and HOST_EVENT nodes load nothing. -/
theorem startNode_plain {s : State} {ref : NodeRef} {i : Inst} {g : Graph} (cores : List Nat) (hi : findInst s ref.pod ref.inst = some i)
    (hg : graphOf s i = some g) (hloaded : g.loaded = true)
    (hkind : (nodeRec g ref.node).kind = 3 ∨ (nodeRec g ref.node).kind = 5 ∨ (nodeRec g ref.node).kind = 6) :
    startNode ref cores s = (none, modNode ref (runningFrom s ref cores) (recordStart ref g s)) := by
  simp only [startNode, hi, hg, hloaded]
  obtain h | h | h := hkind <;> rw [h] <;> rfl

theorem startGang_single {s t : State} {p num n : Nat} {cores : List Nat} (h : startNode ⟨p, num, n⟩ cores s = (none, t)) :
    startGang p num [(n, cores)] s = t := by
  simp only [startGang, List.foldl_cons, List.foldl_nil, h, List.append_nil]

/-- A change of one node is one of the instances. -/
theorem modNode_frame {s u : State} (h : u = { s with pods := u.pods }) (ref : NodeRef) (f : NodeRun → NodeRun) :
    modNode ref f u = { s with pods := (modNode ref f u).pods, insts := (modNode ref f u).insts } :=
  congrArg (fun t : State => { t with insts := (modNode ref f u).insts }) h

theorem getNode_of_findInst {s : State} {ref : NodeRef} {i : Inst} {n : NodeRun} (hi : findInst s ref.pod ref.inst = some i)
    (hn : i.nodes[ref.node]? = some n) : getNode s ref = some n := by
  rw [getNode, hi]
  exact hn

/-- A planned node alone in its gang has the one place that the plan gives it. -/
theorem plannedGang_single {g : Graph} {i : Inst} {ref : NodeRef} {n : NodeRun} (hgang : gangOf g.nodes ref.node = [ref.node])
    (hn : i.nodes[ref.node]? = some n) : plannedGang g i ref = [(ref.node, n.cores)] := by
  simp only [plannedGang, hgang, List.map_cons, List.map_nil, hn]

/-- Settles O28: a gang starts (`startPlanned_starts`, `startBestEffort_starts`); a node ends by its work (`completeNode_done`), its fault
(`completeNode_stopped`) or the cancelling of its run (`stopNode_cancelled`); the start of one that loads nothing makes it RUNNING
(`startNode_plain`) and leaves all but the pods and the runs of graphs (`modNode_frame`). -/
theorem nodesRun : Obligations.NodesRun := by
  refine ⟨⟨?planned, ?bestEffort, ?ends, ?faulted, ?cancelled⟩, ?plain⟩
  case planned =>
    rintro s ref i g ms hready hi hg rfl hcores
    exact congrArg Host.Outcome.next (startPlanned_starts hready hi hg hcores)
  case bestEffort => exact fun s ref n l hnext hin => congrArg Host.Outcome.next (startBestEffort_starts hnext hin)
  case ends =>
    intro s ref hrun hdone hlanded
    refine ⟨fun hclean => congrArg Host.Outcome.next ?_, fun hpoison => congrArg Host.Outcome.next ?_⟩
    · rw [completeNode_done hrun hdone hlanded, hclean, if_neg Bool.false_ne_true]
    · rw [completeNode_done hrun hdone hlanded, hpoison, if_pos rfl]
  case faulted =>
    intro s ref c hstop
    refine ⟨fun hlanded => congrArg Host.Outcome.next ?_, fun hflying => congrArg Host.Outcome.next ?_⟩
    · rw [completeNode_stopped hstop, hlanded, if_pos rfl]
    · rw [completeNode_stopped hstop, hflying, if_neg Bool.false_ne_true]
  case cancelled =>
    exact fun s ref hrun hcancel hnone hlanded => congrArg Host.Outcome.next (stopNode_cancelled hrun hcancel hnone hlanded)
  case plain =>
    intro s ref i g n hready hi hg hloaded hn hgang hkind hcores
    have hsingle := plannedGang_single hgang hn
    have hplanned := startPlanned_starts hready hi hg (by simpa [hsingle] using hcores)
    rw [hsingle, startGang_single (startNode_plain n.cores hi hg hloaded hkind)] at hplanned
    refine ⟨_, congrArg Host.Outcome.next hplanned, ?_, modNode_frame (recordStart_frame ref g s) ref _⟩
    rw [getNode_modNode, getNode_congr (recordStart_insts ref g s), getNode_of_findInst hi hn]
    rfl

end Sys2Proof.Machine
end

section
/-! SYNC and HOST_EVENT nodes (R238, R240, R302, R303, R307; O30). -/

namespace Sys2Proof.Machine

open Sys2Proof

theorem exec_syncJoin {s : State} {ref : NodeRef} {b : SyncBody} (h : syncReady s ref 0 = some b) :
    exec (.syncJoin ref) s = .next (endAtOnce ref s) :=
  congrArg Host.Outcome.next (if_pos (Option.isSome_of_eq_some h))

/-! ### ACQUIRE and RELEASE (R302, R303) -/

theorem syncAcquire_opens {s : State} {ref : NodeRef} {b : SyncBody} {v : Pod} (h : syncReady s ref 1 = some b) (hv : getPod s ref.pod = v)
    (hroom : v.acquires.length < 16) : syncAcquire ref s = endAtOnce ref (setPod ref.pod
      { discardAhead b.addr b.len v with acquires := v.acquires ++ [{ inst := ref.inst, addr := b.addr, len := b.len }] } s) := by
  subst hv
  simp only [syncAcquire, h]
  exact if_neg (Nat.not_le.mpr hroom)

theorem syncAcquire_full {s : State} {ref : NodeRef} {b : SyncBody} (h : syncReady s ref 1 = some b)
    (hfull : 16 ≤ (getPod s ref.pod).acquires.length) : syncAcquire ref s = faultNode ref csACQUIRE_FULL s := by
  simp only [syncAcquire, h]
  exact if_pos hfull

theorem syncRelease_closes {s : State} {ref : NodeRef} {b : SyncBody} (h : syncReady s ref 2 = some b) :
    syncRelease ref s = endAtOnce ref
      (modPod ref.pod (fun v => { v with acquires := v.acquires.erase { inst := ref.inst, addr := b.addr, len := b.len } }) s) := by
  simp only [syncRelease, h]

/-! ### WAIT_LAND (R240, R307) -/

theorem exec_syncWaitLand {s : State} {ref : NodeRef} {b : SyncBody} (h : syncReady s ref 3 = some b) :
    exec (.syncWaitLand ref) s = .next (modNode ref (fun n => { n with waiting := true }) s) :=
  congrArg Host.Outcome.next (if_pos (Option.isSome_of_eq_some h))

theorem waitLandEnd_ready {s : State} {ref : NodeRef} {b : SyncBody} (h : syncReady s ref 3 = some b) :
    waitLandEnd ref s = if landReached s ref b then endAtOnce ref s else s := by
  simp only [waitLandEnd, h]

/-! ### HOST_EVENT (R238) -/

theorem hostEvent_posts {s : State} {ref : NodeRef} {i : Inst} {g : Graph} {r : NodeRec} (h : runningKind s ref 6 = some (i, g, r)) :
    hostEvent ref s = endAtOnce ref (postPod ref.pod 0x0E r.value (i.num + at_ 32 ref.node) s) := by
  simp only [hostEvent, h]

/-- Settles O30: each mode by its own rule (`exec_syncJoin`, `syncAcquire_…`, `syncRelease_closes`, `exec_syncWaitLand`,
`waitLandEnd_ready`), and HOST_EVENT by its event (`hostEvent_posts`). -/
theorem syncNodesRun : Obligations.SyncNodesRun := by
  refine ⟨fun s ref b => exec_syncJoin, ?acquire, ?release, ?waitLand, ?hostEvent⟩
  case acquire =>
    rintro s ref b v h rfl
    exact ⟨fun hroom => congrArg Host.Outcome.next (syncAcquire_opens h rfl hroom),
      fun hfull => congrArg Host.Outcome.next (syncAcquire_full h hfull)⟩
  case release => exact fun s ref b h => congrArg Host.Outcome.next (syncRelease_closes h)
  case waitLand =>
    intro s ref b h
    refine ⟨exec_syncWaitLand h, fun hreached => congrArg Host.Outcome.next ?_, fun hwaits => congrArg Host.Outcome.next ?_⟩
    · rw [waitLandEnd_ready h, hreached, if_pos rfl]
    · rw [waitLandEnd_ready h, hwaits, if_neg Bool.false_ne_true]
  case hostEvent => exact fun s ref i g r h => congrArg Host.Outcome.next (hostEvent_posts h)

end Sys2Proof.Machine
end

section
/-! REGION_MAP, mirrors and REGION_UNMAP (R266, R268, R269, R271, R278, R281; O16). -/

namespace Sys2Proof.Machine

open Sys2Proof

/-! ### Free IDs (R266) -/

theorem nth_mem {α : Type} (d : α) {l : List α} {i : Nat} (h : i < l.length) : nth d l i ∈ l := by
  rw [nth, List.getElem?_eq_getElem h]
  exact List.getElem_mem h

theorem mem_freeIds {s : State} {id : Nat} (h : id ∈ freeIds s) : getRegion s id = none ∧ getMirror s id = none := by
  obtain ⟨_, hfree⟩ := List.mem_filter.mp h
  simpa using hfree

/-- The ID taken is a free one, and taking it uses one free value (log entry 5). -/
theorem takeId_some {s s' : State} {id : Nat} (h : takeId s = some (id, s')) :
    getRegion s id = none ∧ getMirror s id = none ∧ s' = { s with freeIdx := s.freeIdx + 1 } := by
  unfold takeId at h
  split at h
  case h_1 => cases h
  case h_2 a r hids =>
    cases h
    have hmem : nth a (a :: r) (Config.freeId s.freeIdx % (r.length + 1)) ∈ freeIds s := by
      rw [hids]
      exact nth_mem a (Nat.mod_lt _ (Nat.succ_pos r.length))
    obtain ⟨hregion, hmirror⟩ := mem_freeIds hmem
    exact ⟨hregion, hmirror, rfl⟩

/-! ### REGION_MAP (R268, R269) -/

section Map

variable {s s' : State} {sub : Submission} {id : Nat} (tok : CmdTok)
  (hcheck : checkCmd spMap false sub (mapFields s sub.entry) ((getPod s (ent sub.entry 71 68)).state ≠ .free) s = none)
  (hfree : mapRefused s (mapRegion s sub.entry) = none) (hid : takeId s = some (id, s'))
include hcheck hfree hid

theorem regionMap_answers (hfill : bit sub.entry.toNat 80 = false) : regionMap sub tok s =
    only sub tok stOK id (mapValue (mapRegion s sub.entry)) (setRegion id (some (mapRegion s sub.entry)) s') := by
  dsimp only [regionMap]
  rw [guarded_pass _ hcheck]
  simp only [hfree, hid, hfill, Bool.false_eq_true, if_false]

theorem regionMap_fills (hfill : bit sub.entry.toNat 80 = true) : regionMap sub tok s = postFirst tok 0
    { setRegion id (some { mapRegion s sub.entry with ready := false }) s' with
      cmds := s'.cmds ++ [{ tok := tok, work := .fill (regionRanges s' { mapRegion s sub.entry with ready := false }) 0 none (some id) }] } := by
  dsimp only [regionMap]
  rw [guarded_pass _ hcheck]
  simp only [hfree, hid, hfill, if_true]

end Map

/-! ### Mirrors (R278) -/

theorem mirrorDeclare_declares {s s' : State} {sub : Submission} {m : Mirror} {id : Nat} (tok : CmdTok)
    (hcheck : checkCmd spMap false sub (mirrorFields sub.entry) ((getPod s (ent sub.entry 71 68)).state ≠ .free) s = none)
    (hm : m = { pod := ent sub.entry 71 68, src := ent sub.entry 255 208, len := ent sub.entry 283 256, slice := ent sub.entry 293 288,
                removed := false })
    (hstate : (getPod s m.pod).state = .created ∨ (getPod s m.pod).state = .bound) (hsource : mirrorSource s m.pod m.src m.len = true)
    (hslice : (getPod s m.pod).slices.contains m.slice = true) (hnone : sliceMirror s m.slice = none) (hjobs : jobCount s m.pod = 0)
    (hid : takeId s = some (id, s')) : mirrorDeclare sub tok s = only sub tok stOK id 0 (setMirror id (some m) s') := by
  have hgood : ¬ ((getPod s m.pod).state = .destroying || (getPod s m.pod).state = .fenced) = true := by
    rcases hstate with h | h <;> simp [h]
  have hfits : ¬ (!mirrorSource s m.pod m.src m.len || !(getPod s m.pod).slices.contains m.slice || (sliceMirror s m.slice).isSome) = true := by
    rw [hsource, hslice, hnone]
    decide
  subst hm
  dsimp only [mirrorDeclare]
  rw [guarded_pass _ hcheck]
  refine (if_neg hgood).trans ((if_neg hfits).trans ((if_neg (not_not_intro hjobs)).trans ?_))
  simp only [hid]

/-! ### REGION_UNMAP (R271) -/

theorem regionUnmap_starts {s : State} {sub : Submission} {r : Region} (tok : CmdTok)
    (hcheck : checkCmd spUnmap false sub true true s = none) (hr : getRegion s (ent sub.entry 71 64) = some r) (hready : r.ready = true)
    (hfree : unmapRefused s (ent sub.entry 71 64) r = false) : regionUnmap sub tok s = postFirst tok 0
      { setRegion (ent sub.entry 71 64) (some { r with ready := false }) s with
        cmds := s.cmds ++ [{ tok := tok, work := .fill (regionRanges s r) 0 (some (ent sub.entry 71 64)) none }] } := by
  have hmapped : unmappable s (ent sub.entry 71 64) = true := by simp only [unmappable, hr, hready]
  dsimp only [regionUnmap]
  rw [hmapped, guarded_pass _ hcheck, hr]
  exact if_neg (Bool.eq_false_iff.mp hfree)

/-- Settles O16: an ID taken is a free one (`takeId_some`); a map answers or waits for its fill (`regionMap_…`), a good mirror is declared
(`mirrorDeclare_declares`), and an unmap waits for its zeroing (`regionUnmap_starts`). -/
theorem regionMapRuns : Obligations.RegionMapRuns := by
  refine ⟨?map, ?mirror, ?unmap⟩
  case map =>
    rintro s sub _ _ id s' rfl htakes hcheck rfl hfree hid
    obtain ⟨hregion, hmirror, rfl⟩ := takeId_some hid
    refine ⟨hregion, hmirror, rfl, fun hfill => congrArg Host.Outcome.next ?_, fun hfill => congrArg Host.Outcome.next ?_⟩
    · exact (runCmd_takes _ htakes).trans (regionMap_answers (s := taken sub s) _ hcheck hfree hid hfill)
    · exact (runCmd_takes _ htakes).trans (regionMap_fills (s := taken sub s) _ hcheck hfree hid hfill)
  case mirror =>
    rintro s sub _ m id s' rfl htakes hcheck hm hstate hsource hslice hnone hjobs hid
    exact congrArg Host.Outcome.next ((runCmd_takes _ htakes).trans
      (mirrorDeclare_declares (s := taken sub s) _ hcheck hm hstate hsource hslice hnone hjobs hid))
  case unmap =>
    rintro s sub r _ htakes hcheck rfl hr hready hfree
    exact congrArg Host.Outcome.next ((runCmd_takes _ htakes).trans (regionUnmap_starts (s := taken sub s) _ hcheck hr hready hfree))

end Sys2Proof.Machine
end

section
/-! MEM_FILL and the end of a fill (R268, R269, R271, R287; O17). -/

namespace Sys2Proof.Machine

open Sys2Proof

/-! ### MEM_FILL (R287) -/

theorem memFill_waits {s : State} {sub : Submission} {a n : Nat} (tok : CmdTok) (ha : ent sub.entry 111 64 = a) (hn : ent sub.entry 159 112 = n)
    (hcheck : checkCmd spFill false sub (a % 64 = 0 && n % 64 = 0 && 64 ≤ n && n ≤ 2 ^ 40) true s = none)
    (hreach : fillReach s (cmdPod sub) a n = true) : memFill sub tok s = postFirst tok 0 { s with cmds := s.cmds ++
      [{ tok := tok, work := .fill (fillParts a n) (BitVec.ofNat 64 (ent sub.entry 223 160)) none (wholeRegion s a n) }] } := by
  dsimp only [memFill]
  rw [ha, hn, guarded_pass _ hcheck, hreach]
  rfl

/-! ### The bytes that a fill writes (R287) -/

/-- What a write of a whole granule leaves. -/
theorem rawByte_landGranule_whole (g : Nat) (data : List Byte) (s : State) (x : Nat) :
    rawByte (landGranule g (BitVec.allOnes 64) data s) x = if 64 * g ≤ x ∧ x < 64 * g + 64 then nth 0 data (x - 64 * g) else rawByte s x := by
  have hmem : (landGranule g (BitVec.allOnes 64) data s).mem = putBytes s.zeroed g (BitVec.allOnes 64) data s.mem := by
    unfold landGranule landCount
    dsimp only
    rw [if_pos rfl]
  have hzero : (landGranule g (BitVec.allOnes 64) data s).zeroed = s.zeroed := by rw [memoryOnly_landGranule]
  have hall : (64 * g ≤ x ∧ x < 64 * g + 64 ∧ (BitVec.allOnes 64).getLsbD (x - 64 * g) = true) ↔ 64 * g ≤ x ∧ x < 64 * g + 64 := by
    rw [BitVec.getLsbD_allOnes, decide_eq_true_eq]
    omega
  rw [rawByte_eq, rawByte_eq, hmem, hzero, cellByte_putBytes]
  simp only [hall]

/-- The granule that repeats a pattern. -/
def patternGranule (pattern : BitVec 64) : List Byte := (List.range 64).map (fun k => pattern.extractLsb' (8 * (k % 8)) 8)

theorem nth_patternGranule (pattern : BitVec 64) {k : Nat} (h : k < 64) :
    nth 0 (patternGranule pattern) k = pattern.extractLsb' (8 * (k % 8)) 8 := by
  simp [nth, patternGranule, h]

theorem fillRange_none (pattern : BitVec 64) (g : Nat) (s : State) : fillRange pattern (64 * g, 64 * 0) s = s := by
  simp [fillRange]

/-- A fill of one granule more writes the pattern into it last. -/
theorem fillRange_succ (pattern : BitVec 64) (g n : Nat) (s : State) : fillRange pattern (64 * g, 64 * (n + 1)) s =
    landGranule (g + n) (BitVec.allOnes 64) (patternGranule pattern) (fillRange pattern (64 * g, 64 * n) s) := by
  simp [fillRange, patternGranule, List.range_succ]

theorem rawByte_fillRange_granules (pattern : BitVec 64) (g n : Nat) (s : State) (x : Nat) :
    rawByte (fillRange pattern (64 * g, 64 * n) s) x =
      if 64 * g ≤ x ∧ x < 64 * g + 64 * n then pattern.extractLsb' (8 * (x % 8)) 8 else rawByte s x := by
  induction n with
  | zero => rw [fillRange_none, if_neg (by omega)]
  | succ n ih =>
    rw [fillRange_succ, rawByte_landGranule_whole, ih]
    by_cases hlast : 64 * (g + n) ≤ x ∧ x < 64 * (g + n) + 64
    · have hbyte : (x - 64 * (g + n)) % 8 = x % 8 := by omega
      rw [if_pos hlast, if_pos (by omega), nth_patternGranule pattern (by omega), hbyte]
    · have hsame : (64 * g ≤ x ∧ x < 64 * g + 64 * n) ↔ 64 * g ≤ x ∧ x < 64 * g + 64 * (n + 1) := by omega
      simp only [if_neg hlast, hsame]

theorem rawByte_fillRange {a n : Nat} (ha : a % 64 = 0) (hn : n % 64 = 0) (pattern : BitVec 64) (s : State) (x : Nat) :
    rawByte (fillRange pattern (a, n) s) x = if a ≤ x ∧ x < a + n then pattern.extractLsb' (8 * (x % 8)) 8 else rawByte s x := by
  obtain ⟨g, rfl⟩ := Nat.dvd_of_mod_eq_zero ha
  obtain ⟨m, rfl⟩ := Nat.dvd_of_mod_eq_zero hn
  exact rawByte_fillRange_granules pattern g m s x

/-! ### The end of a fill -/

/-- The part once fill `i` is over: the pattern stands in those of its ranges whose unit is in service. -/
def fillDone (i : Nat) (pattern : BitVec 64) (l : List (Nat × Nat)) (s : State) : State :=
  (liveRanges s l).foldl (fun s q => fillRange pattern q s) { s with cmds := s.cmds.eraseIdx i }

theorem fillRange_regions (pattern : BitVec 64) (q : Nat × Nat) (s : State) : (fillRange pattern q s).regions = s.regions :=
  foldl_unchanged (view := State.regions) (fun s i => by rw [memoryOnly_landGranule]) _ s

theorem getRegion_fillDone (i : Nat) (pattern : BitVec 64) (l : List (Nat × Nat)) (s : State) (id : Nat) :
    getRegion (fillDone i pattern l s) id = getRegion s id := by
  have hregions : (fillDone i pattern l s).regions = s.regions :=
    foldl_unchanged (view := State.regions) (fun s q => fillRange_regions pattern q s) _ _
  rw [getRegion, hregions, getRegion]

/-- No unit of a list of ranges is fenced: every range is live. -/
theorem liveRanges_all {s : State} {l : List (Nat × Nat)} (h : ∀ q, q ∈ l → placeFenced s (placeOf q.1) = false) : liveRanges s l = l :=
  List.filter_eq_self.mpr (fun q hq => by rw [h q hq]; rfl)

theorem liveRanges_fewer {s : State} {l : List (Nat × Nat)} (h : ∃ q, q ∈ l ∧ placeFenced s (placeOf q.1) = true) :
    (liveRanges s l).length ≠ l.length := by
  obtain ⟨q, hq, hfenced⟩ := h
  refine Nat.ne_of_lt (List.length_filter_lt_length_iff_exists.mpr ⟨q, hq, ?_⟩)
  simp [hfenced]

section Complete

variable {s : State} {i : Nat} {l : List (Nat × Nat)} {pattern : BitVec 64} {tok : CmdTok}

theorem fillComplete_unmaps {id : Nat} (hc : s.cmds[i]? = some { tok := tok, work := .fill l pattern (some id) none }) :
    fillComplete i s = postFinal tok stOK 0 0 (setRegion id none (fillDone i pattern l s)) := by
  simp only [fillComplete, hc, fillDone]

theorem fillComplete_fills (hc : s.cmds[i]? = some { tok := tok, work := .fill l pattern none none })
    (hlive : (liveRanges s l).length = l.length) : fillComplete i s = postFinal tok stOK 0 0 (fillDone i pattern l s) := by
  simp only [fillComplete, hc, if_neg (not_not_intro hlive), Option.filter_none, Option.bind_none, fillDone]

/-- A fill that a fence has cut short is over, and a map that asked for it maps nothing (R269; log entry 44). -/
theorem fillComplete_fenced {map : Option Nat} (hc : s.cmds[i]? = some { tok := tok, work := .fill l pattern none map })
    (hfewer : (liveRanges s l).length ≠ l.length) : fillComplete i s = postFinal tok stFENCED 0 0
      (if tok.opcode = 0x20 then setRegion (map.getD 0) none (fillDone i pattern l s) else fillDone i pattern l s) := by
  simp only [fillComplete, hc, if_pos hfewer, fillDone]

theorem fillComplete_maps {id : Nat} {r : Region} (hc : s.cmds[i]? = some { tok := tok, work := .fill l pattern none (some id) })
    (hop : tok.opcode = 0x20) (hr : getRegion s id = some r) (hlive : (liveRanges s l).length = l.length) : fillComplete i s =
      postFinal tok stOK id (mapValue r) (setRegion id (some { r with ready := true, filled := true }) (fillDone i pattern l s)) := by
  have hregion := (getRegion_fillDone i pattern l s id).trans hr
  unfold fillDone at hregion ⊢
  simp only [fillComplete, hc, if_neg (not_not_intro hlive), hop, decide_true, Bool.true_or, Option.filter_some, if_true,
    Option.bind_some, hregion, Option.getD_some]

end Complete

/-- Settles O17: a fill waits (`memFill_waits`); its end writes what is in service (`fillDone`, `liveRanges_all`) and then is an unmap's, a
fill's, a map's or that of a fill cut short (`fillComplete_…`); the bytes are the pattern's (`rawByte_fillRange`). -/
theorem fillCommandsRun : Obligations.FillCommandsRun := by
  refine ⟨?request, ?fill, ?map, fun s i id l pat tok hc => congrArg Host.Outcome.next (fillComplete_unmaps hc),
    fun s a n x pat ha hn => rawByte_fillRange ha hn pat s x⟩
  case request =>
    intro s sub a n htakes ha hn hcheck hreach
    exact congrArg Host.Outcome.next ((runCmd_takes _ htakes).trans (memFill_waits (s := taken sub s) _ ha hn hcheck hreach))
  case fill =>
    intro s i l pat tok hc
    refine ⟨fun hlive => congrArg Host.Outcome.next ?_, fun hfenced hop => congrArg Host.Outcome.next ?_⟩
    · have hall := liveRanges_all hlive
      rw [fillComplete_fills hc (congrArg _ hall), fillDone, hall]
    · rw [fillComplete_fenced hc (liveRanges_fewer hfenced), if_neg hop, fillDone]
  case map =>
    intro s i id l r tok hc hop hr
    refine ⟨fun hlive => congrArg Host.Outcome.next ?_, fun hfenced => congrArg Host.Outcome.next ?_⟩
    · have hall := liveRanges_all hlive
      rw [fillComplete_maps hc hop hr (congrArg _ hall), fillDone, hall]
    · rw [fillComplete_fenced hc (liveRanges_fewer hfenced), if_pos hop, Option.getD_some, fillDone]

end Sys2Proof.Machine
end

section
/-! WINDOW_MAP (R283, R323; O60). -/

namespace Sys2Proof.Machine

open Sys2Proof

/-! ### Rows 6 and 7 of R323 -/

section Checks

variable {sp : Spec} {sub : Submission} {s : State}

theorem checkCmd_badFields (freePod known : Bool) (hfrom : checkFrom sp sub s = none) :
    checkCmd sp freePod sub false known s = some stBAD_ARG := by
  simp [checkCmd, hfrom]

theorem checkCmd_unknown (freePod : Bool) (hfrom : checkFrom sp sub s = none) (hpod : podOk sp sub.mbx.fn sub.entry = true)
    (hreserved : reservedOk sp sub.entry = true) : checkCmd sp freePod sub true false s = some stUNKNOWN_ID := by
  simp [checkCmd, hfrom, hpod, hreserved]

end Checks

/-! ### The command (R283) -/

/-- The field rules of R283. -/
def windowFields (e : BitVec 512) : Bool :=
  ent e 75 74 < 3 && ent e 159 96 % 4096 = 0 && 1 ≤ ent e 188 160 && ent e 188 160 ≤ 2 ^ 28

/-- The partner is added and the pod exists. -/
def windowKnown (s : State) (e : BitVec 512) : Bool := partnerKnown s (ent e 95 80) && (getPod s (ent e 73 70)).state ≠ .free

/-- The window that the entry asks for. -/
def askedWindow (e : BitVec 512) : PeerWindow :=
  { pod := ent e 73 70, access := ent e 75 74, partner := ent e 95 80, busBase := ent e 159 96, len := 4096 * ent e 188 160 }

section Window

variable {s : State} {sub : Submission} (tok : CmdTok)

theorem windowMap_stops {st : Status} (hcheck : checkCmd spWindow false sub (windowFields sub.entry) (windowKnown s sub.entry) s = some st) :
    windowMap sub tok s = only sub tok st 0 0 s := by
  dsimp only [windowMap]
  exact guarded_stop _ hcheck

/-- What a command does that passes the checks, for a pod that is neither DESTROYING nor FENCED. -/
theorem windowMap_passes (hcheck : checkCmd spWindow false sub true true s = none) (hfields : windowFields sub.entry = true)
    (hpartner : partnerKnown s (ent sub.entry 95 80) = true)
    (hpod : (getPod s (ent sub.entry 73 70)).state = .created ∨ (getPod s (ent sub.entry 73 70)).state = .bound) :
    windowMap sub tok s =
      if (getWindow s (ent sub.entry 69 64)).access ≠ 0 ∧ jobCount s (getWindow s (ent sub.entry 69 64)).pod ≠ 0 then
        only sub tok stNOT_PERMITTED 0 0 s
      else if ent sub.entry 75 74 = 0 then only sub tok stOK 0 0 (setWindow (ent sub.entry 69 64) {} s)
      else only sub tok stOK 0 0 (setWindow (ent sub.entry 69 64) (askedWindow sub.entry) s) := by
  have hknown : windowKnown s sub.entry = true := by
    rcases hpod with h | h <;> simp [windowKnown, hpartner, h]
  have hgood : ¬ ((getPod s (ent sub.entry 73 70)).state = .destroying || (getPod s (ent sub.entry 73 70)).state = .fenced) = true := by
    rcases hpod with h | h <;> simp [h]
  have hchecks : checkCmd spWindow false sub (windowFields sub.entry) (windowKnown s sub.entry) s = none := by
    rw [hfields, hknown, hcheck]
  dsimp only [windowMap]
  refine (guarded_pass _ hchecks).trans ((if_neg hgood).trans ?_)
  simp only [Bool.and_eq_true, decide_eq_true_eq, askedWindow]

end Window

/-- Settles O60: a command stops at the first row of R323 that fails (`windowMap_stops`, with `checkCmd_badFields` and `checkCmd_unknown`),
and one that passes them has its window's outcome (`windowMap_passes`). -/
theorem windowMapRuns : Obligations.WindowMapRuns := by
  rintro s sub _ _ _ fields htakes rfl rfl rfl hrules
  have hfields : fields = windowFields sub.entry := hrules
  subst hfields
  have hruns : exec (.windowMap sub) s = .next (windowMap sub (tokIn s sub) (taken sub s)) :=
    congrArg Host.Outcome.next (runCmd_takes _ htakes)
  rw [hruns]
  refine ⟨fun hfrom hpod hreserved => ⟨fun hbad => congrArg Host.Outcome.next ?badFields,
    fun hgood hunknown => congrArg Host.Outcome.next ?unknown⟩, fun hcheck hgood hpartner hpod => ?passes⟩
  case badFields =>
    refine windowMap_stops _ ?_
    rw [hbad]
    exact checkCmd_badFields _ _ hfrom
  case unknown =>
    have hknown : windowKnown s sub.entry = false := by
      rcases hunknown with h | h <;> simp [windowKnown, h]
    refine windowMap_stops _ ?_
    rw [hgood, checkCmd_taken]
    exact (congrArg (checkCmd spWindow false sub true · s) hknown).trans (checkCmd_unknown _ hfrom hpod hreserved)
  case passes =>
    rw [windowMap_passes (s := taken sub s) _ hcheck hgood hpartner hpod]
    refine ⟨fun hused hjobs => congrArg Host.Outcome.next (if_pos ⟨hused, hjobs⟩), fun hidle => ?_⟩
    have hfree : ¬ ((getWindow s (ent sub.entry 69 64)).access ≠ 0 ∧ jobCount s (getWindow s (ent sub.entry 69 64)).pod ≠ 0) :=
      fun ⟨hused, hjobs⟩ => hidle.elim hused hjobs
    exact ⟨fun hnone => congrArg Host.Outcome.next ((if_neg hfree).trans (if_pos hnone)),
      fun hsome => congrArg Host.Outcome.next ((if_neg hfree).trans (if_neg hsome))⟩

end Sys2Proof.Machine
end

section
/-! The form of memory (R289, R291, R292, R366, R451; O4). A part of the model that makes a state makes it by a record update, a choice, a
fold, or as a component of a result; each of these has its rule here. The sections after this one say of every operation of the model
that it keeps the form, file by file. -/

namespace Sys2Proof.Machine

open Sys2Proof

variable {α β γ δ : Type} {s t u : State}

/-- A record update that names neither `mem` nor `zeroed`. -/
theorem form_mk (hs : MemoryForm s)
    {pending' poison' dramErr' sramErr' fabric' mxFmt' stkFmt' tiles' tileRuns' engines' flights' portq' pods' graphs' nextGraph'
    insts' regions' mirrors' redirects' streams' closeSeq' sprout' pwu' kvDropped' land' aper' windows' partners' mboxes' funcs'
    ports' owner' offer' acked' cmds' eccCfg' eccWritten' leakAt' ecc' dies' fences' hubA' hubB' rails' clock' thermal' power' sec'
    fw' mgmt' jtag' pins' out' freeIdx'} :
    MemoryForm (State.mk
      pending' s.mem s.zeroed poison' dramErr' sramErr' fabric' mxFmt' stkFmt' tiles' tileRuns' engines' flights' portq' pods' graphs'
      nextGraph' insts' regions' mirrors' redirects' streams' closeSeq' sprout' pwu' kvDropped' land' aper' windows' partners' mboxes'
      funcs' ports' owner' offer' acked' cmds' eccCfg' eccWritten' leakAt' ecc' dies' fences' hubA' hubB' rails' clock' thermal'
      power' sec' fw' mgmt' jtag' pins' out' freeIdx') :=
  hs

theorem form_ite {c : Prop} [Decidable c] (hs : MemoryForm s) (ht : MemoryForm t) : MemoryForm (if c then s else t) := by
  split
  · exact hs
  · exact ht

theorem form_foldl {f : State → α → State} {l : List α} (hf : ∀ t a, MemoryForm t → MemoryForm (f t a)) (hs : MemoryForm s) :
    MemoryForm (l.foldl f s) :=
  List.foldlRecOn l f hs fun t ht a _ => hf t a ht

theorem form_foldl_snd {f : β × State → α → β × State} {l : List α} {b : β}
    (hf : ∀ r a, MemoryForm r.2 → MemoryForm (f r a).2) (hs : MemoryForm s) : MemoryForm (l.foldl f (b, s)).2 :=
  List.foldlRecOn (motive := fun r => MemoryForm r.2) l f hs fun r hr a _ => hf r a hr

theorem form_foldl_snd2 {f : β × γ × State → α → β × γ × State} {l : List α} {b : β} {c : γ}
    (hf : ∀ r a, MemoryForm r.2.2 → MemoryForm (f r a).2.2) (hs : MemoryForm s) : MemoryForm (l.foldl f (b, c, s)).2.2 :=
  List.foldlRecOn (motive := fun r => MemoryForm r.2.2) l f hs fun r hr a _ => hf r a hr

theorem form_foldl_snd3 {f : β × γ × δ × State → α → β × γ × δ × State} {l : List α} {b : β} {c : γ} {d : δ}
    (hf : ∀ r a, MemoryForm r.2.2.2 → MemoryForm (f r a).2.2.2) (hs : MemoryForm s) : MemoryForm (l.foldl f (b, c, d, s)).2.2.2 :=
  List.foldlRecOn (motive := fun r => MemoryForm r.2.2.2) l f hs fun r hr a _ => hf r a hr

/-! ### The state in a result -/

theorem form_of_eq_snd {p : β × State} {b : β} (hs : MemoryForm p.2) (he : p = (b, t)) : MemoryForm t := by
  rwa [he] at hs

theorem form_of_eq_snd2 {p : β × γ × State} {b : β} {c : γ} (hs : MemoryForm p.2.2) (he : p = (b, c, t)) : MemoryForm t := by
  rwa [he] at hs

theorem form_of_eq_snd3 {p : β × γ × δ × State} {b : β} {c : γ} {d : δ} (hs : MemoryForm p.2.2.2) (he : p = (b, c, d, t)) :
    MemoryForm t := by
  rwa [he] at hs

theorem none_form {f : α → State} : ∀ r ∈ (none : Option α), MemoryForm (f r) := nofun

theorem some_form {f : α → State} {a : α} (hs : MemoryForm (f a)) : ∀ r ∈ some a, MemoryForm (f r) := by
  rintro _ ⟨⟩
  exact hs

theorem error_form {ε : Type} {f : α → State} {e : ε} : ∀ r, Except.error e = .ok r → MemoryForm (f r) := nofun

theorem ok_form {ε : Type} {f : α → State} {a : α} (hs : MemoryForm (f a)) :
    ∀ r, (Except.ok a : Except ε α) = .ok r → MemoryForm (f r) := by
  rintro _ ⟨⟩
  exact hs

theorem next_form {φ ρ : Type} (hs : MemoryForm s) :
    ∀ r, (Host.Outcome.next s : Host.Outcome State φ ρ) = .next r → MemoryForm r := by
  rintro _ ⟨⟩
  exact hs

end Sys2Proof.Machine
end

section
/-! The form of memory under Machine/Units.lean: the writers of the tables, rails and outputs. -/

namespace Sys2Proof.Machine

open Sys2Proof

variable {s : State} {h i n p : Nat}

theorem form_setPod {v : Pod} (hs : MemoryForm s) : MemoryForm (setPod p v s) := form_mk hs

theorem form_modPod {f : Pod → Pod} (hs : MemoryForm s) : MemoryForm (modPod p f s) := form_setPod hs

theorem form_setStream {v : Stream} (hs : MemoryForm s) : MemoryForm (setStream i v s) := form_mk hs

theorem form_modStream {f : Stream → Stream} (hs : MemoryForm s) : MemoryForm (modStream i f s) := form_setStream hs

theorem form_setRegion {v : Option Region} (hs : MemoryForm s) : MemoryForm (setRegion i v s) := form_mk hs

theorem form_setMirror {v : Option Mirror} (hs : MemoryForm s) : MemoryForm (setMirror i v s) := form_mk hs

theorem form_setLink {v : Link} (hs : MemoryForm s) : MemoryForm (setLink n v s) := form_mk hs

theorem form_setFunc {v : Func} (hs : MemoryForm s) : MemoryForm (setFunc n v s) := form_mk hs

theorem form_setPort {v : Port} (hs : MemoryForm s) : MemoryForm (setPort n v s) := form_mk hs

theorem form_setPartner {v : Partner} (hs : MemoryForm s) : MemoryForm (setPartner n v s) := form_mk hs

theorem form_setWindow {v : PeerWindow} (hs : MemoryForm s) : MemoryForm (setWindow n v s) := form_mk hs

theorem form_setTile {v : TileStat} (hs : MemoryForm s) : MemoryForm (setTile n v s) := form_mk hs

theorem form_setDie {v : DieMap} (hs : MemoryForm s) : MemoryForm (setDie n v s) := form_mk hs

theorem form_setRail {v : RailState} (hs : MemoryForm s) : MemoryForm (setRail i v s) := form_mk hs

theorem form_setVolt (hs : MemoryForm s) : MemoryForm (setVolt i s) := form_mk hs

theorem form_planVolts (hs : MemoryForm s) : MemoryForm (planVolts s) := form_foldl (fun _ _ ht => form_setVolt ht) hs

theorem form_setHub {v : Hub} (hs : MemoryForm s) : MemoryForm (setHub h v s) := form_ite (form_mk hs) (form_mk hs)

theorem form_modHub {f : Hub → Hub} (hs : MemoryForm s) : MemoryForm (modHub h f s) := form_setHub hs

theorem form_emit {o : Out} (hs : MemoryForm s) : MemoryForm (emit o s) := form_mk hs

theorem form_setMbx {m : Mbx} {v : Mailbox} (hs : MemoryForm s) : MemoryForm (setMbx m v s) := form_mk hs

theorem form_noteAer {fn b : Nat} (hs : MemoryForm s) : MemoryForm (noteAer fn b s) := form_setFunc hs

end Sys2Proof.Machine
end

section
/-! The form of memory under Machine/Events.lean: events, completions and the taking of a command (R313, R315, R317). -/

namespace Sys2Proof.Machine

open Sys2Proof

variable {s : State} {tok : CmdTok} {code d0 d1 fn v0 v1 : Nat} {sp : Spec} {st : Status} {sub : Submission}

theorem form_pendVec {v : Nat} (hs : MemoryForm s) : MemoryForm (pendVec fn v s) := form_setFunc hs

theorem form_postTo {pod : Option Nat} (hs : MemoryForm s) : MemoryForm (postTo fn code pod d0 d1 s) := by
  simp only [postTo]
  split
  · exact form_pendVec (form_emit (form_setFunc hs))
  · exact form_ite (form_setFunc hs) (form_pendVec (form_setFunc hs))

theorem form_postDevice (hs : MemoryForm s) : MemoryForm (postDevice code d0 d1 s) := form_foldl (fun _ _ ht => form_postTo ht) hs

theorem form_postPod {p : Nat} (hs : MemoryForm s) : MemoryForm (postPod p code d0 d1 s) := by
  simp only [postPod]
  split
  · refine form_postTo ?_
    split
    · exact form_postTo hs
    · exact hs
  · split
    · exact form_postTo hs
    · exact hs

theorem form_postComp {kind : CKind} {release : Nat} (hs : MemoryForm s) : MemoryForm (postComp tok kind release st v0 v1 s) :=
  form_ite (form_pendVec (form_emit (form_setMbx hs))) (form_setMbx hs)

theorem form_postFirst (hs : MemoryForm s) : MemoryForm (postFirst tok v0 s) := form_postComp hs

theorem form_postFinal (hs : MemoryForm s) : MemoryForm (postFinal tok st v0 v1 s) := form_postComp hs

theorem form_runCmd {sel : BitVec 512 → Bool} {body : CmdTok → State → State} (hs : MemoryForm s)
    (hk : ∀ x t, MemoryForm t → MemoryForm (body x t)) : MemoryForm (runCmd sp sel sub s body) := by
  simp only [runCmd]
  split
  · exact hs
  · exact form_ite (hk _ _ (form_mk hs)) hs

theorem form_only (hs : MemoryForm s) : MemoryForm (only sub tok st v0 v1 s) := form_postComp hs

theorem form_guarded {freePod fieldsOk known : Bool} {home : State → State} (hs : MemoryForm s)
    (hk : ∀ t, MemoryForm t → MemoryForm (home t)) : MemoryForm (guarded sp freePod sub tok fieldsOk known s home) := by
  unfold guarded
  split
  · exact form_only hs
  · exact hk _ hs

end Sys2Proof.Machine
end

section
/-! The form of memory under Machine/Records.lean: the record stores and the deferred queue (R432-R435). -/

namespace Sys2Proof.Machine

open Sys2Proof

variable {s : State} {k : DeferKind} {h : Nat}

theorem form_setStore {v : RecordStore} (hs : MemoryForm s) : MemoryForm (setStore h v s) := form_ite (form_mk hs) (form_mk hs)

theorem form_applyWrite {at_ : Nat} (hs : MemoryForm s) : MemoryForm (applyWrite h k at_ s) := by
  simp only [applyWrite]
  split
  · exact form_setStore hs
  · exact form_setStore hs
  · exact form_setStore hs
  · exact form_setStore hs
  · exact form_ite (form_mk hs) (form_mk hs)
  · exact hs
  · exact form_setStore hs

theorem form_deferWrite {d : Deferred} (hs : MemoryForm s) : MemoryForm (deferWrite d s) := by
  simp only [deferWrite]
  split
  · exact form_mk hs
  · split
    · split
      · exact form_mk hs
      · split <;> exact form_mk hs
    · exact form_ite (form_mk hs) (form_mk hs)

theorem form_recordWrite (hs : MemoryForm s) : MemoryForm (recordWrite h k s) :=
  form_ite (form_applyWrite hs) (form_deferWrite hs)

theorem form_recordBoth (hs : MemoryForm s) : MemoryForm (recordBoth k s) :=
  form_ite (form_ite hs (form_recordWrite hs)) (form_recordWrite (form_ite hs (form_recordWrite hs)))

end Sys2Proof.Machine
end

section
/-! The form of memory under Machine/Ecc.lean: correction buckets, sparing and uncorrectable errors (R358-R369). Only poison moves bytes
here (`form_storePoison`). -/

namespace Sys2Proof.Machine

open Sys2Proof

variable {s : State} {die entry g st : Nat} {u : UnitRef}

theorem form_countCorr {n : Nat} (hs : MemoryForm s) : MemoryForm (countCorr entry n u s) :=
  form_ite hs (form_ite (form_postDevice (form_mk hs)) (form_mk hs))

theorem form_countUE (hs : MemoryForm s) : MemoryForm (countUE entry s) := form_mk hs

theorem form_retireDie (hs : MemoryForm s) : MemoryForm (retireDie st die s) := by
  simp only [retireDie]
  split
  · exact hs
  · split
    · exact form_recordBoth (form_postDevice (form_setDie hs))
    · exact form_recordBoth (form_postDevice (form_setDie hs))
    · exact form_recordBoth (form_postDevice (form_setDie hs))
    · exact form_setDie hs
    · exact form_ite (form_setDie hs) hs

theorem form_retireIfLive (hs : MemoryForm s) : MemoryForm (retireIfLive st die s) := form_ite (form_retireDie hs) hs

theorem form_rebuildDone (hs : MemoryForm s) : MemoryForm (rebuildDone st s) :=
  form_ite (form_recordBoth (form_setDie hs)) (form_retireDie (form_recordBoth (form_setDie hs)))

theorem form_countSlot {b : Nat × Nat} (hs : MemoryForm s) : MemoryForm (countSlot st b s) :=
  form_ite (form_retireIfLive (form_ite (form_mk (form_countCorr hs)) (form_countCorr hs))) (form_ite (form_mk
    (form_countCorr hs)) (form_countCorr hs))

theorem form_countFix {fix : Errs} {erased : Option Nat} (hs : MemoryForm s) : MemoryForm (countFix st fix erased s) :=
  form_foldl (fun _ _ ht => form_countSlot ht) hs

theorem form_postUE (hs : MemoryForm s) : MemoryForm (postUE g u s) :=
  form_foldl (fun _ _ ht => form_postPod ht) (form_postDevice hs)

theorem form_uncorrectable (hs : MemoryForm s) : MemoryForm (uncorrectable g s) :=
  form_postUE (form_countUE (form_storePoison _ hs))

end Sys2Proof.Machine
end

section
/-! The form of memory under Machine/Memory.lean: reads of granules, which poison what they find uncorrectable (R365), and writes that
land (R289-R292). -/

namespace Sys2Proof.Machine

open Sys2Proof

variable {s : State} {bs : List (Byte × Bool)} {l : List Cell} {a g len : Nat}

theorem form_fetchDram {st : Nat} (hs : MemoryForm s) : MemoryForm (fetchDram st g s).2 := by
  simp only [fetchDram]
  split
  · exact hs
  · exact hs
  · exact form_countFix hs
  · exact form_uncorrectable hs

theorem form_fetchWord {w : Nat} {r : List (BitVec 64) × Bool × Bool × State} (hs : MemoryForm r.2.2.2) :
    MemoryForm (fetchWord w r).2.2.2 := by
  simp only [fetchWord]
  split
  · exact hs
  · exact hs
  · exact form_countCorr hs
  · exact hs

theorem form_fetchSram (hs : MemoryForm s) : MemoryForm (fetchSram g s).2 := by
  unfold fetchSram
  split
  rename_i he
  have ht := form_of_eq_snd3 (form_foldl_snd3 (fun _ _ ht => form_fetchWord ht) hs) he
  split
  · exact form_uncorrectable ht
  · exact ht

theorem form_fetchGranule (hs : MemoryForm s) : MemoryForm (fetchGranule g s).2 := by
  unfold fetchGranule
  split
  · split
    · exact hs
    · exact form_fetchDram hs
  · split
    · exact hs
    · exact form_fetchSram hs

theorem form_fetchGranules {n : Nat} (hs : MemoryForm s) : MemoryForm (fetchGranules n g s).2 := by
  induction n generalizing g s with
  | zero => exact hs
  | succ n ih => exact ih (form_fetchGranule hs)

theorem form_fetchBytes (hs : MemoryForm s) : MemoryForm (fetchBytes a len s).2 := by
  simp only [fetchBytes]
  split
  · exact hs
  · exact form_fetchGranules hs

theorem form_landFrom {fuel : Nat} (hs : MemoryForm s) : MemoryForm (landFrom fuel a bs s) := by
  induction fuel generalizing a bs s with
  | zero => exact hs
  | succ f ih =>
    unfold landFrom
    split
    · exact hs
    · exact ih (form_ite (form_landPoison _ _ hs) (form_landGranule _ _ _ hs))

theorem form_landPoisonable (hs : MemoryForm s) : MemoryForm (landPoisonable a bs s) := form_landFrom hs

theorem form_landCellsAt (hs : MemoryForm s) : MemoryForm (landCellsAt g l s) :=
  form_ite (form_landPoison _ _ hs) (form_landGranule _ _ _ hs)

theorem form_landCells (hs : MemoryForm s) : MemoryForm (landCells l s) := form_foldl (fun _ _ ht => form_landCellsAt ht) hs

theorem form_landBytes {bs : List Byte} (hs : MemoryForm s) : MemoryForm (landBytes a bs s) := form_landPoisonable hs

theorem form_forget (hs : MemoryForm s) : MemoryForm (forget a len s) := form_mk (form_clearBytes _ _ hs)

theorem form_redirect {p : Nat} (hs : MemoryForm s) : MemoryForm (redirect p a s).2 := by
  unfold redirect
  split
  · exact form_ite hs (form_mk hs)
  · exact hs

end Sys2Proof.Machine
end

section
/-! The form of memory under Machine/Exact.lean: format event counters (R64). -/

namespace Sys2Proof.Machine

open Sys2Proof

variable {s : State} {badTrit n nanScale saturate truncate : Nat}

theorem form_countMx (hs : MemoryForm s) : MemoryForm (countMx n badTrit nanScale saturate truncate s) := form_mk hs

theorem form_countStk (hs : MemoryForm s) : MemoryForm (countStk n badTrit nanScale saturate truncate s) := form_mk hs

end Sys2Proof.Machine
end

section
/-! The form of memory under Machine/Tensor.lean: elements read and stored (R95-R98). -/

namespace Sys2Proof.Machine

open Sys2Proof

variable {s : State}

theorem form_touch {addrs : List Nat} (hs : MemoryForm s) : MemoryForm (touch addrs s) :=
  form_ite hs (form_foldl (fun _ _ ht => form_fetchGranule ht) hs)

theorem form_storeAll {origin : Nat} {t : TDesc} {items : List Item} (hs : MemoryForm s) : MemoryForm (storeAll origin t items s).1 :=
  form_landCells hs

end Sys2Proof.Machine
end

section
/-! The form of memory under Machine/KvPages.lean: page frames, page walks and the sprout port (R180-R194). -/

namespace Sys2Proof.Machine

open Sys2Proof

variable {s : State} {p pool st stream : Nat} {e : Pte}

theorem form_modPool {f : Region → Region} (hs : MemoryForm s) : MemoryForm (modPool p pool f s) := by
  unfold modPool
  split
  · exact form_setRegion hs
  · exact hs

theorem form_chaffSet (hs : MemoryForm s) : MemoryForm (chaffSet p pool e s) := by
  unfold chaffSet
  split
  · exact form_modPod hs
  · exact hs

theorem form_allocSet {first sizeExp : Nat} (hs : MemoryForm s) : ∀ q ∈ allocSet p pool first sizeExp s, MemoryForm q.2 := by
  unfold allocSet
  split
  · exact none_form
  · split
    · exact none_form
    · exact some_form (form_modPool hs)

theorem form_pwuEntry {idx : Nat} (hs : MemoryForm s) : MemoryForm (pwuEntry st stream idx e s).2 := by
  simp only [pwuEntry]
  split <;> exact form_mk hs

theorem form_pwuTable {pt : List Pte} (hs : MemoryForm s) : MemoryForm (pwuTable st stream pt s).2 :=
  form_foldl_snd (fun _ _ ht => form_pwuEntry ht) hs

theorem form_pwuInval {keep : LabEntry → Bool} (hs : MemoryForm s) : MemoryForm (pwuInval st keep s) := form_mk hs

theorem form_pwuBoundary (hs : MemoryForm s) : MemoryForm (pwuBoundary p s) :=
  form_foldl (fun _ _ ht => form_ite (form_pwuInval ht) ht) hs

theorem form_walkStack {rows : List StepRow} (hs : MemoryForm s) : MemoryForm (walkStack p st rows s).2 := by
  simp only [walkStack]
  refine form_foldl_snd (fun _ _ ht => ?_) hs
  split
  · exact ht
  · split
    · exact ht
    · split
      · exact form_pwuTable ht
      · exact ht

theorem form_countWindow {w : PortWrite} {n : Nat} (hs : MemoryForm s) : MemoryForm (countWindow w n s) := form_mk hs

end Sys2Proof.Machine
end

section
/-! The form of memory under Machine/Fabric.lean: links and arbitration (R27). -/

namespace Sys2Proof.Machine

open Sys2Proof

variable {s : State}

theorem form_setArb {link : Nat} {up : Bool} {a : Arb} (hs : MemoryForm s) : MemoryForm (setArb link up a s) := form_mk hs

theorem form_reroute (hs : MemoryForm s) : MemoryForm (reroute s) := form_mk hs

end Sys2Proof.Machine
end

section
/-! The form of memory under Machine/Plan.lean: plans extended or dropped (R425, R479). -/

namespace Sys2Proof.Machine

open Sys2Proof

variable {s : State}

theorem form_extendPlans (hs : MemoryForm s) : MemoryForm (extendPlans s) := form_mk hs

theorem form_recordLate {on : Inst → Bool} {cause detail : Nat} (hs : MemoryForm s) : MemoryForm (recordLate on cause detail s) :=
  form_mk hs

end Sys2Proof.Machine
end

section
/-! The form of memory under Machine/Tiles.lean: banks of a tile program and the vector unit's stores (R69-R78, R88-R91). -/

namespace Sys2Proof.Machine

open Sys2Proof

variable {s : State} {n p : Nat} {r : TileRun}

theorem form_putRun (hs : MemoryForm s) : MemoryForm (putRun r s) := form_mk hs

theorem form_fillRegister (hs : MemoryForm s) : MemoryForm (fillRegister r p s) := form_countMx (form_putRun (form_touch hs))

theorem form_fetchList {gen : Nat} (hs : MemoryForm s) : MemoryForm (fetchList r gen n s) :=
  form_ite hs (form_foldl (fun _ _ ht => form_ite (form_touch ht) ht) hs)

theorem form_moveLoads (hs : MemoryForm s) : MemoryForm (moveLoads r p n s) :=
  form_foldl (fun _ _ ht => form_countMx (form_touch ht)) hs

theorem form_storeGroup {items : List Item} (hs : MemoryForm s) : MemoryForm (storeGroup r items s) :=
  form_countMx (form_storeAll hs)

theorem form_accumulate (hs : MemoryForm s) : MemoryForm (accumulate r s) := form_countMx (form_putRun hs)

theorem form_rowsExit {bank : Bool} {b : Nat} (hs : MemoryForm s) : MemoryForm (rowsExit r bank b s) :=
  form_countMx (form_putRun hs)

end Sys2Proof.Machine
end

section
/-! The form of memory under Machine/Nodes.lean: the journal, and ends, faults and cancellation of nodes (R249, R258-R260, R376-R379). -/

namespace Sys2Proof.Machine

open Sys2Proof

variable {s : State} {final poisoned : Bool} {bs : List Byte} {a cause num p : Nat} {r ref : NodeRef}

theorem form_modInst {f : Inst → Inst} (hs : MemoryForm s) : MemoryForm (modInst p num f s) := form_mk hs

theorem form_modNode {f : NodeRun → NodeRun} (hs : MemoryForm s) : MemoryForm (modNode r f s) := form_modInst hs

theorem form_sendPeer (hs : MemoryForm s) : MemoryForm (sendPeer a bs final poisoned s) := form_emit hs

theorem form_sendPeerOf {node : NodeRef} (hs : MemoryForm s) : MemoryForm (sendPeerOf node a bs final poisoned s) :=
  form_modNode (form_sendPeer hs)

theorem form_flushAt (hs : MemoryForm s) : MemoryForm (flushAt a s) := form_emit hs

theorem form_notePoison (hs : MemoryForm s) : MemoryForm (notePoison r s) := form_modNode hs

theorem form_takePos (hs : MemoryForm s) : MemoryForm (takePos p s).2 := form_setPod hs

theorem form_writeRec {pos : Nat} {r : JRec} (hs : MemoryForm s) : MemoryForm (writeRec p pos r s) := form_modPod hs

theorem form_undefineGranules {gs : List Nat} (hs : MemoryForm s) : MemoryForm (undefineGranules p gs s) :=
  form_foldl (fun _ _ ht => form_clearBytes _ _ ht) hs

theorem form_undefineOutputs {g : Graph} {r : NodeRec} {marks : List Nat} (hs : MemoryForm s) :
    MemoryForm (undefineOutputs ref g r marks s) :=
  form_undefineGranules hs

theorem form_finishNode {st : NState} (hs : MemoryForm s) : MemoryForm (finishNode ref st cause s) := by
  unfold finishNode
  split
  · exact hs
  · split
    · extract_lets r marks pm t u
      have ht : MemoryForm t := by
        unfold t
        split
        · exact form_undefineOutputs hs
        · exact form_undefineOutputs hs
        · exact hs
      have hu : MemoryForm u := by
        unfold u
        split
        · exact form_writeRec ht
        · exact ht
      exact form_modNode (form_modPod (form_mk hu))
    · exact hs

theorem form_cancelNodes {ids : List Nat} (hs : MemoryForm s) : MemoryForm (cancelNodes p num ids cause s) := form_modInst hs

theorem form_closeRecords (hs : MemoryForm s) : MemoryForm (closeRecords p num s) := by
  simp only [closeRecords]
  split
  · exact hs
  · exact form_foldl (fun _ _ ht => form_ite (form_writeRec (form_takePos ht)) ht) hs

theorem form_postLate {i : Inst} {lateness : Nat} (hs : MemoryForm s) : MemoryForm (postLate i lateness s) := form_postPod hs

theorem form_dropHeld (hs : MemoryForm s) : MemoryForm (dropHeld s) := form_foldl (fun _ _ ht => form_setVolt ht) (form_mk hs)

theorem form_dropInst (hs : MemoryForm s) : MemoryForm (dropInst p num s) := form_dropHeld (form_mk (form_modPod hs))

theorem form_endWith {st : Status} (hs : MemoryForm s) : MemoryForm (endWith p num st s) := by
  simp only [endWith]
  split
  · exact hs
  · exact form_postFinal (form_dropInst (form_ite (form_postLate (form_closeRecords hs)) (form_closeRecords hs)))

theorem form_checkEnd (hs : MemoryForm s) : MemoryForm (checkEnd p num s) := by
  unfold checkEnd
  split
  · exact hs
  · exact form_ite (form_endWith hs) hs

theorem form_stopFaulted (hs : MemoryForm s) : MemoryForm (stopFaulted ref cause s) :=
  form_ite (form_finishNode hs) (form_modNode hs)

theorem form_faultNode (hs : MemoryForm s) : MemoryForm (faultNode ref cause s) := by
  simp only [faultNode]
  split
  · exact hs
  · split
    · exact hs
    · split
      · exact hs
      · exact form_checkEnd (form_cancelNodes (form_foldl (fun _ _ ht => form_stopFaulted ht) hs))

theorem form_completeNode (hs : MemoryForm s) : MemoryForm (completeNode ref s) := by
  unfold completeNode
  split <;> exact form_ite (form_checkEnd (form_finishNode hs)) hs

theorem form_cancelInst (hs : MemoryForm s) : MemoryForm (cancelInst p num s) := by
  simp only [cancelInst]
  split
  · exact hs
  · exact form_checkEnd (form_foldl (fun _ _ ht => form_finishNode ht) (form_cancelNodes (form_modInst hs)))

theorem form_fenceInst (hs : MemoryForm s) : MemoryForm (fenceInst p num s) := by
  simp only [fenceInst]
  split
  · exact hs
  · exact form_cancelNodes (form_foldl (fun _ _ ht => form_ite (form_stopFaulted ht) ht) hs)

end Sys2Proof.Machine
end

section
/-! The form of memory under Machine/Admission.lean: graphs and their instances (R234, R243-R264, R320). -/

namespace Sys2Proof.Machine

open Sys2Proof

variable {s : State} {tok : CmdTok} {p : Nat} {sub : Submission}

theorem form_graphTake {addr len : Nat} (hs : MemoryForm s) : MemoryForm (graphTake sub tok p addr len s) := by
  simp only [graphTake]
  split
  · exact form_only hs
  · split
    · exact form_only (form_fetchBytes hs)
    · split
      · exact form_only (form_fetchBytes hs)
      · exact form_only (form_fetchBytes hs)
      · exact form_ite (form_only (form_fetchBytes hs)) (form_postFirst (form_mk (form_fetchBytes hs)))

theorem form_graphLoad (hs : MemoryForm s) : MemoryForm (graphLoad sub tok s) := form_guarded hs (fun _ ht => form_graphTake ht)

theorem form_graphUnload (hs : MemoryForm s) : MemoryForm (graphUnload sub tok s) :=
  form_guarded hs (fun _ ht => form_ite (form_only ht) (form_postFirst (form_mk ht)))

theorem form_takeCmd {w : Work} (hs : MemoryForm s) : ∀ q ∈ takeCmd w s, MemoryForm q.2 := by
  unfold takeCmd
  split
  · exact some_form (form_mk hs)
  · exact none_form

theorem form_graphLoadComplete {id : Nat} (hs : MemoryForm s) : MemoryForm (graphLoadComplete p id s) := by
  unfold graphLoadComplete
  split
  · rename_i he
    split
    · exact form_postFinal (form_mk (form_takeCmd hs _ he))
    · exact form_takeCmd hs _ he
  · split
    · rename_i he
      exact form_postFinal (form_mk (form_takeCmd hs _ he))
    · exact hs

theorem form_admitInst {i : Inst} (hs : MemoryForm s) : MemoryForm (admitInst i s) := form_postFirst (form_mk (form_setPod hs))

theorem form_peerTable {a : Nat} (hs : MemoryForm s) : MemoryForm (peerTable a s).2 := by
  unfold peerTable
  split
  · exact hs
  · exact form_fetchBytes hs

theorem form_decideRun {g : Graph} {release deadline : Nat} {promised : Bool} {peers : List Nat} (hs : MemoryForm s) :
    MemoryForm (decideRun sub tok p g release deadline promised peers s) := by
  simp only [decideRun]
  split
  · exact form_only hs
  · split
    · exact form_admitInst hs
    · split
      · exact form_only hs
      · exact form_ite (form_admitInst hs) (form_only hs)

theorem form_graphRun (hs : MemoryForm s) : MemoryForm (graphRun sub tok s) := by
  simp only [graphRun]
  refine form_guarded hs (fun _ ht => ?_)
  split
  · exact ht
  · exact form_ite (form_only ht) (form_ite (form_only (form_peerTable ht)) (form_decideRun (form_peerTable ht)))

theorem form_graphCancel (hs : MemoryForm s) : MemoryForm (graphCancel sub tok s) :=
  form_guarded hs (fun _ ht => form_only (form_cancelInst ht))

theorem form_emitResult {dest : Nat} {bs : List Byte} (hs : MemoryForm s) : MemoryForm (emitResult sub dest bs s) := form_emit hs

theorem form_journalRead (hs : MemoryForm s) : MemoryForm (journalRead sub tok s) :=
  form_guarded hs (fun _ ht => form_only (form_emitResult ht))

end Sys2Proof.Machine
end

section
/-! The form of memory under Machine/FabricCmds.lean: flits, retrains, the slot cap and a write that lands (R24-R34, R289). -/

namespace Sys2Proof.Machine

open Sys2Proof

variable {s : State} {up : Bool} {f : Flit} {link n : Nat}

theorem form_flitError (hs : MemoryForm s) : MemoryForm (flitError f s) := by
  simp only [flitError]
  split
  · exact form_faultNode (form_mk hs)
  · exact form_mk hs

theorem form_arriveFlit (hs : MemoryForm s) : MemoryForm (arriveFlit f s) := form_ite (form_flitError hs) (form_mk hs)

theorem form_flitInject {d : FlitDesc} (hs : MemoryForm s) : MemoryForm (flitInject d s) := by
  simp only [flitInject]
  split
  · exact hs
  · split
    · exact form_flitError (form_mk hs)
    · split
      · exact form_flitError (form_mk hs)
      · exact form_arriveFlit (form_mk hs)
      · exact form_mk hs

theorem form_ackFlit {id : Nat} (hs : MemoryForm s) : MemoryForm (ackFlit link up id s) := form_setArb hs

theorem form_passFlit (hs : MemoryForm s) : MemoryForm (passFlit f s) := by
  simp only [passFlit]
  split
  · exact hs
  · exact form_arriveFlit (form_mk hs)
  · exact form_mk hs

theorem form_failFlit (hs : MemoryForm s) : MemoryForm (failFlit link f s) := form_setLink (form_mk hs)

theorem form_applyCap (hs : MemoryForm s) : MemoryForm (applyCap n s) := form_setLink hs

theorem form_slotUsed {a : Arb} (hs : MemoryForm s) : MemoryForm (slotUsed link up a s) :=
  form_ite (form_applyCap (form_setArb hs)) (form_setArb hs)

theorem form_flitReceive {noise : BitVec 608} (hs : MemoryForm s) : MemoryForm (flitReceive link up noise s) := by
  simp only [flitReceive]
  split
  · exact hs
  · split
    · exact hs
    · exact form_ite (form_passFlit (form_ackFlit (form_slotUsed hs))) (form_failFlit (form_slotUsed hs))

theorem form_linkRetrain (hs : MemoryForm s) : MemoryForm (linkRetrain n s) := form_ite (form_setLink hs) hs

theorem form_clearFails (hs : MemoryForm s) : MemoryForm (clearFails n s) := form_mk hs

theorem form_routesChanged {cause detail : Nat} (hs : MemoryForm s) : MemoryForm (routesChanged cause detail s) :=
  form_foldl (fun _ _ ht => form_faultNode ht) (form_extendPlans (form_recordLate (form_reroute hs)))

theorem form_retrainDone {ok : Bool} (hs : MemoryForm s) : MemoryForm (retrainDone n ok s) := by
  simp only [retrainDone]
  split
  · exact hs
  · split
    · exact form_clearFails (form_setLink hs)
    · exact form_ite (form_routesChanged (form_setLink hs)) (form_setLink hs)

theorem form_lcCapWrite {req : Requester} {value : BitVec 32} (hs : MemoryForm s) : MemoryForm (lcCapWrite req n value s) :=
  form_ite (form_setLink hs) hs

theorem form_restartWindow (hs : MemoryForm s) : MemoryForm (restartWindow n up s) := form_ite (form_setArb hs) hs

theorem form_lcCapApply (hs : MemoryForm s) : MemoryForm (lcCapApply n s) :=
  form_ite (form_restartWindow (form_restartWindow (form_applyCap hs))) hs

theorem form_writeLand {g : Nat} {mask : BitVec 64} {data : BitVec 512} (hs : MemoryForm s) : MemoryForm (writeLand g mask data s) :=
  form_ite (form_landGranule _ _ _ hs) hs

end Sys2Proof.Machine
end

section
/-! The form of memory under Machine/Mailboxes.lean: mailbox and event-ring registers, and acknowledgement (R311-R318). -/

namespace Sys2Proof.Machine

open Sys2Proof

variable {s : State} {m : Mbx} {fn tail : Nat}

theorem form_mbxError {code : Nat} (hs : MemoryForm s) : MemoryForm (mbxError m code s) := form_pendVec (form_setMbx hs)

theorem form_atsUse {pages : List Nat} (hs : MemoryForm s) : MemoryForm (atsUse fn pages s) := form_setFunc hs

theorem form_mbxEnable (hs : MemoryForm s) : MemoryForm (mbxEnable m s) :=
  form_ite hs (form_ite (form_atsUse (form_setMbx hs)) (form_mbxError (form_setMbx hs)))

theorem form_stopMbx (hs : MemoryForm s) : MemoryForm (stopMbx m s) := form_setMbx hs

theorem form_stopFn (hs : MemoryForm s) : MemoryForm (stopFn fn s) := form_foldl (fun _ _ ht => form_ite (form_stopMbx ht) ht) hs

theorem form_ringBell (hs : MemoryForm s) : MemoryForm (ringBell m tail s) := form_ite hs (form_setHub (form_setMbx hs))

theorem form_sqDoorbell (hs : MemoryForm s) : MemoryForm (sqDoorbell m tail s) :=
  form_ite hs (form_ite (form_mbxError hs) (form_ringBell hs))

theorem form_cqHeadWrite {head : Nat} (hs : MemoryForm s) : MemoryForm (cqHeadWrite m head s) :=
  form_ite hs (form_ite (form_mbxError hs) (form_setMbx hs))

theorem form_submissionAck {entry : BitVec 512} {busOk : Bool} (hs : MemoryForm s) : MemoryForm (submissionAck m entry busOk s) := by
  simp only [submissionAck]
  split
  · exact form_ite (form_mbxError hs) hs
  · split
    · exact hs
    · split
      · exact hs
      · exact form_ite (form_mk (form_setMbx (form_atsUse hs))) (form_only (form_setMbx (form_atsUse hs)))

theorem form_eventRingEnable (hs : MemoryForm s) : MemoryForm (eventRingEnable fn s) :=
  form_ite hs (form_atsUse (form_setFunc hs))

theorem form_msixMessage {vec : Nat} (hs : MemoryForm s) : MemoryForm (msixMessage fn vec s) := by
  simp only [msixMessage]
  split
  · exact hs
  · split
    · exact form_emit (form_setFunc hs)
    · exact hs

theorem form_bar0Abort (hs : MemoryForm s) : MemoryForm (bar0Abort fn s) := form_ite (form_emit hs) (form_ite (form_emit hs) hs)

end Sys2Proof.Machine
end

section
/-! The form of memory under Machine/Streams.lean: closing, lost page sets, growth, copies of shared pages and the end of
a step (R195-R220). -/

namespace Sys2Proof.Machine

open Sys2Proof

variable {s : State} {b : Budget} {first i k n num p pool : Nat} {e : Pte} {cause st : Status} {r : StepRow}

theorem form_rcDown (hs : MemoryForm s) : MemoryForm (rcDown p pool e s) :=
  form_ite (form_chaffSet (form_setPod hs)) (form_setPod hs)

theorem form_rcUp {rc : Nat} (hs : MemoryForm s) : MemoryForm (rcUp p rc s) := form_modPod hs

theorem form_dropEntry (hs : MemoryForm s) : MemoryForm (dropEntry p pool e s) := by
  unfold dropEntry
  split
  · exact form_chaffSet hs
  · exact form_rcDown hs
  · exact hs

theorem form_chaffTable {addr : Nat} (hs : MemoryForm s) : MemoryForm (chaffTable p addr s) := by
  simp only [chaffTable]
  split
  · exact form_setPod hs
  · exact hs

theorem form_freeStream (hs : MemoryForm s) : MemoryForm (freeStream i s) :=
  form_setStream (form_chaffTable (form_foldl (fun _ _ ht => form_dropEntry ht) hs))

theorem form_dropEntries (hs : MemoryForm s) : MemoryForm (dropEntries i n s) :=
  form_modStream (form_foldl (fun _ _ ht => form_dropEntry ht) hs)

theorem form_dropUnpark {w : Work} (hs : MemoryForm s) : MemoryForm (dropUnpark i w s) := by
  simp only [dropUnpark]
  split
  · exact form_foldl (fun _ _ ht => form_chaffSet ht) hs
  · exact hs

theorem form_stopStreamWork (hs : MemoryForm s) : MemoryForm (stopStreamWork i st s) :=
  form_modStream (form_foldl (fun _ _ ht => form_postFinal (form_dropUnpark ht)) (form_mk hs))

theorem form_closeStream (hs : MemoryForm s) : MemoryForm (closeStream i cause s) := form_ite hs (form_mk (form_setStream hs))

theorem form_stopStream (hs : MemoryForm s) : MemoryForm (stopStream i st cause s) := form_closeStream (form_stopStreamWork hs)

theorem form_loseEntry (hs : MemoryForm s) : MemoryForm (loseEntry p pool e s).2 := form_dropEntry hs

theorem form_loseEntries {test : Pte → Bool} (hs : MemoryForm s) : MemoryForm (loseEntries i test s).2 := by
  simp only [loseEntries]
  split
  · refine form_modStream (form_foldl_snd (fun _ _ ht => ?_) hs)
    split
    · exact form_loseEntry ht
    · exact ht
  · exact hs

theorem form_loseStreams {who : Nat → Stream → Pte → Bool} (hs : MemoryForm s) : MemoryForm (loseStreams who st cause s).2 := by
  simp only [loseStreams]
  refine form_foldl_snd (fun _ _ ht => ?_) hs
  split
  · exact form_closeStream (form_loseEntries (form_stopStreamWork ht))
  · exact ht

theorem form_growSets {l : List (Nat × Nat)} (hs : MemoryForm s) : MemoryForm (growSets i l b s).2.2 := by
  induction l generalizing b s with
  | nil => exact hs
  | cons q r ih =>
    simp only [growSets]
    split
    · exact hs
    · split
      · exact hs
      · rename_i he
        exact ih (form_modStream (form_allocSet hs _ he))

theorem form_growTo {stop : Nat} (hs : MemoryForm s) : MemoryForm (growTo i stop b s).2.2 := form_growSets hs

theorem form_moveBytes {q : Nat × Nat × Nat} (hs : MemoryForm s) : MemoryForm (moveBytes q s) :=
  form_landPoisonable (form_fetchBytes hs)

theorem form_copyEntry {t : Pte} {wp : Nat} (hs : MemoryForm s) : MemoryForm (copyEntry i t wp b s).2.2 := by
  simp only [copyEntry]
  split
  · exact hs
  · split
    · rename_i he
      exact form_rcDown (form_modStream (form_foldl (fun _ _ ht => form_moveBytes ht) (form_allocSet hs _ he)))
    · exact hs

theorem form_copyShared (hs : MemoryForm s) : MemoryForm (copyShared i first n b s).2.2 := by
  unfold copyShared
  refine form_foldl_snd2 (fun _ _ ht => ?_) hs
  split
  · exact form_copyEntry ht
  · exact ht

theorem form_windowPages (hs : MemoryForm s) : MemoryForm (windowPages i first n b s).2.2 := by
  unfold windowPages
  split
  · exact hs
  · split
    · rename_i he
      exact form_copyShared (form_of_eq_snd2 (form_growTo hs) he)
    · exact form_growTo hs

theorem form_modStep {f : StepInfo → StepInfo} (hs : MemoryForm s) : MemoryForm (modStep p num f s) := form_modInst hs

theorem form_setBusy {stream : Nat} (hs : MemoryForm s) : MemoryForm (setBusy p stream s) := form_modStream hs

theorem form_landOwn {a : Nat} {bs : List Byte} (hs : MemoryForm s) : MemoryForm (landOwn a bs s) :=
  form_ite hs (form_landBytes hs)

theorem form_writeRow {st : StepInfo} (hs : MemoryForm s) : MemoryForm (writeRow st k r s) := form_landOwn (form_landOwn hs)

theorem form_sinkRow {st : StepInfo} (hs : MemoryForm s) : MemoryForm (sinkRow p num st k r s) :=
  form_setBusy (form_writeRow (form_mk (form_modStep hs)))

theorem form_sinkStep {i : Inst} (hs : MemoryForm s) : MemoryForm (sinkStep p i s) := by
  unfold sinkStep
  split
  · exact form_ite (form_foldl (fun _ _ ht => form_ite (form_sinkRow ht) ht) hs) hs
  · exact hs

theorem form_sinkChained (hs : MemoryForm s) : MemoryForm (sinkChained p s) :=
  form_foldl (fun _ _ ht => form_foldl (fun _ _ hu => form_sinkStep hu) ht) hs

theorem form_endRow (hs : MemoryForm s) : MemoryForm (endRow p num st r s) := form_setStream hs

theorem form_settleRows {rows : List StepRow} (hs : MemoryForm s) : MemoryForm (settleRows p num st rows s) :=
  form_foldl (fun _ _ ht => form_endRow ht) hs

theorem form_endStep (hs : MemoryForm s) : MemoryForm (endStep p num st s) := by
  simp only [endStep]
  split
  · exact hs
  · exact form_sinkChained (form_foldl (fun _ _ ht => form_setBusy ht) (form_endWith (form_settleRows hs)))

theorem form_endAny (hs : MemoryForm s) : MemoryForm (endAny p num s) := by
  unfold endAny
  split
  · exact hs
  · exact form_ite (form_ite (form_endStep hs) (form_endWith hs)) hs

end Sys2Proof.Machine
end

section
/-! The form of memory under Machine/StreamCmds.lean: opening and cancelling streams, adapters and the index of prefixes (R205-R207,
R222-R229, R233). -/

namespace Sys2Proof.Machine

open Sys2Proof

variable {s : State} {tok : CmdTok} {i n p : Nat} {sub : Submission}

theorem form_openStream {e : BitVec 512} (hs : MemoryForm s) : ∀ q ∈ openStream p e s, MemoryForm q.2 := by
  simp only [openStream]
  split
  · exact some_form (form_setStream (form_setPod hs))
  · exact none_form

theorem form_streamOpen (hs : MemoryForm s) : MemoryForm (streamOpen sub tok s) := by
  simp only [streamOpen]
  refine form_guarded hs (fun _ ht => ?_)
  split
  · exact form_only ht
  · split
    · exact form_only ht
    · split
      · exact form_only ht
      · split
        · exact form_only ht
        · rename_i he
          exact form_only (form_modStream (form_foldl (fun _ _ hu => form_rcUp hu) (form_openStream ht _ he)))

theorem form_streamOpenInbound (hs : MemoryForm s) : MemoryForm (streamOpenInbound sub tok s) := by
  simp only [streamOpenInbound]
  refine form_guarded hs (fun _ ht => ?_)
  split
  · exact form_only ht
  · rename_i he
    exact form_postFirst (form_mk (form_modStream (form_openStream ht _ he)))

theorem form_streamCancel (hs : MemoryForm s) : MemoryForm (streamCancel sub tok s) :=
  form_guarded hs (fun _ ht => form_ite (form_only ht) (form_only (form_stopStream ht)))

theorem form_adapterLoad (hs : MemoryForm s) : MemoryForm (adapterLoad sub tok s) := by
  simp only [adapterLoad]
  refine form_guarded hs (fun _ ht => ?_)
  split
  · exact form_only ht
  · split
    · exact form_only (form_fetchBytes ht)
    · exact form_ite (form_only (form_fetchBytes ht)) (form_only (form_modPod (form_fetchBytes ht)))

theorem form_shareEntry {pos : Nat} (hs : MemoryForm s) : ∀ q ∈ shareEntry p i pos s, MemoryForm q.2 := by
  simp only [shareEntry]
  split
  · exact none_form
  · split
    · exact some_form hs
    · intro r hr
      obtain ⟨rc, -, rfl⟩ := Option.map_eq_some_iff.mp hr
      exact form_rcUp (form_modStream hs)

theorem form_insertBlocks {blocks : List (List Nat)} {made : Nat} (hs : MemoryForm s) :
    MemoryForm (insertBlocks p i blocks n made s).2.2.2 := by
  induction blocks generalizing n made s with
  | nil => exact hs
  | cons b r ih =>
    simp only [insertBlocks]
    split
    · rename_i he
      exact ih (form_rcUp (form_setPod (form_shareEntry hs _ he)))
    · exact hs

theorem form_prefixInsert (hs : MemoryForm s) : MemoryForm (prefixInsert sub tok s) := by
  simp only [prefixInsert]
  refine form_guarded hs (fun _ ht => ?_)
  split
  · exact form_only ht
  · exact form_ite (form_only (form_fetchBytes ht)) (form_only (form_insertBlocks (form_fetchBytes ht)))

theorem form_removeNode (hs : MemoryForm s) : MemoryForm (removeNode p n s) :=
  form_ite (form_rcDown (form_setPod hs)) (form_setPod hs)

theorem form_prefixRemove (hs : MemoryForm s) : MemoryForm (prefixRemove sub tok s) :=
  form_guarded hs (fun _ ht => form_ite (form_only ht) (form_only (form_removeNode ht)))

theorem form_prefixLookup (hs : MemoryForm s) : MemoryForm (prefixLookup sub tok s) :=
  form_guarded hs (fun _ ht => form_ite (form_only ht) (form_ite (form_only (form_fetchBytes ht)) (form_only (form_fetchBytes ht))))

theorem form_kvLand {value : BitVec 512} (hs : MemoryForm s) : MemoryForm (kvLand p value s) :=
  form_ite (form_setStream hs) (form_mk hs)

end Sys2Proof.Machine
end

section
/-! The form of memory under Machine/Parks.lean: parking, restoring and shipping streams, and acknowledged writes (R197-R199, R232,
R297-R299, R448). -/

namespace Sys2Proof.Machine

open Sys2Proof

variable {s : State} {tok : CmdTok} {images : List (Option (List Byte × List (BitVec 128)))} {plan : List (Pte × Nat)} {frame i p
    w : Nat} {ref : NodeRef} {t : Pte} {r : Region} {sub : Submission}

theorem form_readParts {l : List (Nat × Nat)} (hs : MemoryForm s) : MemoryForm (readParts l s).2 :=
  form_foldl_snd (fun _ _ ht => form_fetchBytes ht) hs

theorem form_sendWrites {l : List WinWrite} (hs : MemoryForm s) : MemoryForm (sendWrites l s) :=
  form_foldl (fun _ _ ht => form_sendPeer ht) hs

theorem form_sendLast {w : WinWrite} (hs : MemoryForm s) : MemoryForm (sendLast w s) := form_sendPeer hs

theorem form_parkWrites {gen : Nat} (hs : MemoryForm s) : MemoryForm (parkWrites p i gen r plan s).2 :=
  form_foldl_snd (fun _ _ ht => form_readParts ht) hs

theorem form_parkEntries (hs : MemoryForm s) : MemoryForm (parkEntries i plan s) :=
  form_modStream (form_foldl (fun _ _ ht => form_chaffSet ht) hs)

theorem form_parkDone (hs : MemoryForm s) : MemoryForm (parkDone i tok s) := form_postFinal (form_modStream hs)

theorem form_shipDone (hs : MemoryForm s) : MemoryForm (shipDone i tok s) := form_postFinal (form_modStream hs)

theorem form_streamPark (hs : MemoryForm s) : MemoryForm (streamPark sub tok s) := by
  simp only [streamPark]
  refine form_guarded hs (fun _ ht => ?_)
  split
  · exact form_only ht
  · split
    · exact form_only ht
    · split
      · exact form_only ht
      · split
        · exact form_only ht
        · split
          · exact form_parkDone (form_postFirst (form_modStream (form_parkEntries (form_ite (form_parkWrites ht) (form_modPod
              (form_parkWrites ht))))))
          · split
            · exact form_sendLast (form_sendWrites (form_mk (form_postFirst (form_modStream (form_parkEntries (form_ite
                (form_parkWrites ht) (form_modPod (form_parkWrites ht))))))))
            · exact form_sendWrites (form_mk (form_postFirst (form_modStream (form_parkEntries (form_ite (form_parkWrites ht)
                (form_modPod (form_parkWrites ht)))))))

theorem form_streamUnpark (hs : MemoryForm s) : MemoryForm (streamUnpark sub tok s) :=
  form_guarded hs (fun _ ht => form_ite (form_only ht) (form_postFirst (form_modStream (form_mk ht))))

theorem form_landImage {bs : List Byte} (hs : MemoryForm s) : MemoryForm (landImage r t frame bs s) :=
  form_foldl (fun _ _ ht => form_landBytes ht) hs

theorem form_restoreEntry {img : Option (List Byte × List (BitVec 128))} (hs : MemoryForm s) :
    MemoryForm (restoreEntry i r t frame img s).2.2 := by
  simp only [restoreEntry]
  split
  · exact form_chaffSet (form_emit hs)
  · split
    · exact form_landImage (form_emit hs)
    · exact form_chaffSet (form_emit hs)

theorem form_restoreAll {pt : List Pte} {frames : List Nat} (hs : MemoryForm s) :
    MemoryForm (restoreAll i r pt frames images s).2.2 := by
  induction pt generalizing frames images s with
  | nil => exact hs
  | cons t rest ih =>
    simp only [restoreAll]
    split
    · exact ih (form_restoreEntry hs)
    · exact ih hs

theorem form_unparkRestore (hs : MemoryForm s) : MemoryForm (unparkRestore i images s) := by
  simp only [unparkRestore]
  split
  · exact hs
  · split
    · exact hs
    · split
      · exact form_postFinal (form_modStream (form_restoreAll (form_mk hs)))
      · exact form_closeStream (form_postFinal (form_modStream (form_restoreAll (form_mk hs))))

theorem form_shipTable {fuel a stop pos : Nat} (hs : MemoryForm s) : MemoryForm (shipTable fuel p a stop pos s).2 := by
  induction fuel generalizing a pos s with
  | zero => exact hs
  | succ f ih =>
    simp only [shipTable]
    split
    · exact hs
    · split
      · exact hs
      · split
        · exact form_fetchBytes hs
        · split
          · exact form_fetchBytes hs
          · split
            · rename_i he
              exact form_of_eq_snd (ih (form_fetchBytes hs)) he
            · exact ih (form_fetchBytes hs)

theorem form_shipWrites {plan : List (Nat × Nat)} (hs : MemoryForm s) : MemoryForm (shipWrites r plan s).2 :=
  form_foldl_snd (fun _ _ ht => form_fetchBytes ht) hs

theorem form_streamShip (hs : MemoryForm s) : MemoryForm (streamShip sub tok s) := by
  unfold streamShip
  refine form_guarded hs (fun _ ht => ?_)
  extract_lets x
  split
  · exact form_only ht
  · refine form_ite (form_only ht) ?_
    split
    · rename_i he
      exact form_only (form_of_eq_snd (form_shipTable ht) he)
    · rename_i he
      have hu := form_of_eq_snd (form_shipTable ht) he
      extract_lets r' plan flag
      split
      · exact form_only hu
      · exact form_only hu
      · split
        rename_i he
        exact form_sendWrites (form_postFirst (form_modStream (form_mk (form_of_eq_snd (form_shipWrites hu) he))))

theorem form_ackNode (hs : MemoryForm s) : MemoryForm (ackNode w ref s) := by
  unfold ackNode
  split
  · exact hs
  · split
    · exact hs
    · exact form_ite (form_modNode hs) (form_ite (form_modNode (form_flushAt hs)) hs)

theorem form_senderDone {c : PendingCmd} (hs : MemoryForm s) : MemoryForm (senderDone i c s) := by
  unfold senderDone
  split
  · exact form_parkDone (form_mk hs)
  · exact form_shipDone (form_mk hs)
  · exact hs

theorem form_ackStream (hs : MemoryForm s) : MemoryForm (ackStream w i s) := by
  simp only [ackStream]
  split
  · exact hs
  · split
    · exact hs
    · refine form_ite (form_mk (form_ite hs (form_flushAt hs))) ?_
      split
      · exact form_sendLast (form_mk (form_ite hs (form_flushAt hs)))
      · exact form_senderDone (form_ite hs (form_flushAt hs))

theorem form_failWrite {test : Nat → Bool} (hs : MemoryForm s) : MemoryForm (failWrite test ref s) := by
  unfold failWrite
  split
  · exact form_modNode hs
  · exact hs

theorem form_failAck (hs : MemoryForm s) : MemoryForm (failAck w ref s) := by
  unfold failAck
  split
  · exact form_ite (form_faultNode (form_failWrite hs)) hs
  · exact hs

theorem form_failSender (hs : MemoryForm s) : MemoryForm (failSender w i s) := form_ite (form_stopStreamWork hs) hs

theorem form_writeAcknowledged {sender : WriteSender} {ok : Bool} (hs : MemoryForm s) :
    MemoryForm (writeAcknowledged w sender ok s) := by
  unfold writeAcknowledged
  split
  · exact form_ite (form_ackNode hs) (form_failAck hs)
  · exact form_ite (form_ackStream hs) (form_failSender hs)

end Sys2Proof.Machine
end

section
/-! The form of memory under Machine/FenceOps.lean: what a fence does to nodes, stacks, slices, windows, ports, routers, hubs and rails
(R371-R373). -/

namespace Sys2Proof.Machine

open Sys2Proof

variable {s : State} {cores : List Nat} {core i k n num p reason st w : Nat} {u : UnitRef}

theorem form_postFence {pods : List Nat} {l : Loss} (hs : MemoryForm s) : MemoryForm (postFence u reason pods l s) :=
  form_foldl (fun _ _ ht => form_postPod ht) (form_postDevice hs)

theorem form_addFence (hs : MemoryForm s) : MemoryForm (addFence u reason s) := form_ite hs (form_mk hs)

theorem form_faultOn (hs : MemoryForm s) : MemoryForm (faultOn cores s) := form_foldl (fun _ _ ht => form_faultNode ht) hs

theorem form_cancelPlanned (hs : MemoryForm s) : MemoryForm (cancelPlanned cores p num s) := by
  simp only [cancelPlanned]
  split
  · exact hs
  · split
    · exact hs
    · exact form_ite hs (form_checkEnd (form_cancelNodes (form_cancelNodes hs)))

theorem form_dropCores (hs : MemoryForm s) : MemoryForm (dropCores cores s) :=
  form_foldl (fun _ _ ht => form_ite (form_cancelPlanned ht) ht) (form_faultOn hs)

theorem form_lowerW (hs : MemoryForm s) : MemoryForm (lowerW core u s) := form_extendPlans (form_recordLate (form_faultOn hs))

theorem form_loseRegions (hs : MemoryForm s) : MemoryForm (loseRegions st s).2 := form_mk hs

theorem form_dropMirrors (hs : MemoryForm s) : MemoryForm (dropMirrors s) := form_mk hs

theorem form_loseNode (hs : MemoryForm s) : MemoryForm (loseNode p n s) :=
  form_ite (form_modPod hs) (form_rcDown (form_modPod hs))

theorem form_loseNodes {test : Nat → PrefixNode → Bool} (hs : MemoryForm s) : MemoryForm (loseNodes p test s) :=
  form_foldl (fun _ _ ht => form_loseNode ht) hs

theorem form_loseStack (hs : MemoryForm s) : MemoryForm (loseStack st s).2 := by
  unfold loseStack
  split
  rename_i he
  extract_lets streams t
  have ht : MemoryForm t := form_foldl (fun _ _ h => form_loseNodes h) (form_of_eq_snd (form_loseStreams hs) he)
  split
  rename_i he
  exact form_mk (form_dropMirrors (form_of_eq_snd (form_loseRegions ht) he))

theorem form_loseGraphs (hs : MemoryForm s) : MemoryForm (loseGraphs k s) :=
  form_mk (form_foldl (fun _ _ ht => form_postFinal ht) (form_mk hs))

theorem form_loseTable (hs : MemoryForm s) : MemoryForm (loseTable i s) :=
  form_closeStream (form_modStream (form_foldl (fun _ _ ht => form_dropEntry ht) (form_stopStreamWork hs)))

theorem form_loseSlice (hs : MemoryForm s) : MemoryForm (loseSlice k s).2 := by
  unfold loseSlice
  extract_lets s1 s2 inK hit closed s3
  have h3 : MemoryForm s3 := form_foldl (fun _ _ ht => form_loseTable ht) (form_loseGraphs (form_mk hs))
  dsimp only
  exact form_foldl (fun _ _ ht => form_loseNodes ht) h3

theorem form_loseSlices {l : List Nat} (hs : MemoryForm s) : MemoryForm (loseSlices l s).2 := by
  unfold loseSlices
  refine form_foldl_snd (fun _ _ ht => ?_) hs
  split
  rename_i he
  exact form_of_eq_snd (form_loseSlice ht) he

theorem form_dropRequests {r : NodeRef} (hs : MemoryForm s) : MemoryForm (dropRequests w r s) := form_modNode hs

theorem form_fenceWindow (hs : MemoryForm s) : MemoryForm (fenceWindow w reason s) := by
  unfold fenceWindow
  extract_lets pods s1 s2
  have h2 : MemoryForm s2 := form_foldl (fun _ _ ht => form_faultNode (form_dropRequests ht)) (form_addFence hs)
  split
  rename_i he
  exact form_postFence (form_foldl (fun _ _ ht => form_stopStreamWork ht) (form_of_eq_snd (form_loseStreams h2) he))

theorem form_losePartner {id : Nat} (hs : MemoryForm s) : MemoryForm (losePartner id s) :=
  form_foldl (fun _ _ ht => form_postPod ht) (form_postDevice (form_foldl (fun _ _ ht => form_fenceWindow ht) (form_setPartner hs)))

theorem form_losePort (hs : MemoryForm s) : MemoryForm (losePort p s) := form_foldl (fun _ _ ht => form_losePartner ht) hs

theorem form_stopPort (hs : MemoryForm s) : MemoryForm (stopPort p s) :=
  form_foldl (fun _ _ ht => form_setFunc (form_stopFn ht)) hs

theorem form_loseRouter (hs : MemoryForm s) : MemoryForm (loseRouter n s) := form_ite hs (form_routesChanged (form_mk hs))

theorem form_dropScheduled (hs : MemoryForm s) : MemoryForm (dropScheduled p num s) := by
  simp only [dropScheduled]
  split
  · exact hs
  · exact form_endAny (form_modInst (form_foldl (fun _ _ ht => form_ite (form_stopFaulted ht) ht) hs))

theorem form_dropPodWork (hs : MemoryForm s) : MemoryForm (dropPodWork p s) := form_foldl (fun _ _ ht => form_dropScheduled ht) hs

theorem form_loseHub {h cause : Nat} (hs : MemoryForm s) : MemoryForm (loseHub h cause s) := by
  unfold loseHub
  extract_lets o pods s1 s2 s3 s4 s5 s6 s7 s8
  have h2 : MemoryForm s2 := form_foldl (fun _ _ ht => form_ite ht (form_setRail ht)) (form_modHub hs)
  have h4 : MemoryForm s4 := form_mk (s := s3) (form_foldl (fun _ _ ht => form_stopPort ht) h2)
  have h5 : MemoryForm s5 := form_ite h4 (form_postDevice (form_modHub h4))
  have h8 : MemoryForm s8 := form_foldl (fun _ _ ht => form_ite (form_dropPodWork ht) ht) (form_loseRouter (form_addFence h5))
  refine form_ite h4 ?_
  split
  rename_i he
  exact form_foldl (fun _ _ ht => form_losePort ht) (form_postFence (form_of_eq_snd (form_loseSlices h8) he))

theorem form_fencePart {parent : UnitRef} (hs : MemoryForm s) : MemoryForm (fencePart u parent core reason s) := by
  simp only [fencePart]
  split
  · exact form_postFence (form_dropCores (form_addFence (form_postFence (form_lowerW (form_addFence hs)))))
  · exact form_postFence (form_lowerW (form_addFence hs))

theorem form_fenceCores (hs : MemoryForm s) : MemoryForm (fenceCores u reason s) :=
  form_postFence (form_dropCores (form_addFence hs))

theorem form_fenceStack (hs : MemoryForm s) : MemoryForm (fenceStack u st reason s) :=
  form_postFence (form_loseStack (form_dropCores (form_addFence hs)))

theorem form_fencePod (hs : MemoryForm s) : MemoryForm (fencePod p reason s) := by
  simp only [fencePod]
  refine form_postFence ?_
  split
  · exact form_postFinal (form_foldl (fun _ _ ht => form_endAny (form_fenceInst ht)) (form_addFence (form_setPod hs)))
  · exact form_foldl (fun _ _ ht => form_endAny (form_fenceInst ht)) (form_addFence (form_setPod hs))

theorem form_fenceRail {st : RailState} (hs : MemoryForm s) : MemoryForm (fenceRail i reason st s) := by
  unfold fenceRail
  extract_lets sib t mark
  have ht : MemoryForm t := form_setRail (form_foldl (fun _ _ hu => form_ite hu (form_setRail hu)) hs)
  have hmark {u : State} (hu : MemoryForm u) : MemoryForm (mark u) := form_foldl (fun _ _ hv => form_addFence hv) hu
  split
  · exact form_loseRouter (hmark (form_fenceCores ht))
  · exact form_loseRouter (hmark (form_fenceStack ht))
  · refine form_ite ?_ (form_loseHub ?_) <;> exact form_postFence (hmark (form_addFence ht))
  · exact ht

theorem form_fenceUnit (hs : MemoryForm s) : MemoryForm (fenceUnit u reason s) := by
  simp only [fenceUnit]
  split
  · exact hs
  · split
    · exact form_fencePart hs
    · exact form_fencePart hs
    · exact form_fenceCores hs
    · exact form_fenceCores hs
    · exact form_fenceCores hs
    · exact form_fenceStack hs
    · exact form_postFence (form_loseSlice (form_addFence hs))
    · exact form_losePort (form_postFence (form_stopPort (form_addFence hs)))
    · exact form_fenceWindow hs
    · exact form_fenceRail hs
    · exact form_ite hs (form_fencePod hs)
    · exact form_loseHub hs
    · exact hs
    · exact hs

end Sys2Proof.Machine
end

section
/-! The form of memory under Machine/Fences.lean: fence commands, tile repair, the two hubs and regulator faults (R83-R86, R375,
R381-R385). -/

namespace Sys2Proof.Machine

open Sys2Proof

variable {s : State} {wire : Bool} {tok : CmdTok} {cells : List (Nat × Nat)} {bad : List Nat} {h n : Nat} {c : PendingCmd} {sub :
    Submission} {u : UnitRef}

theorem form_fenceDo (hs : MemoryForm s) : MemoryForm (fenceDo u s) := by
  unfold fenceDo
  split
  · exact form_ite hs (form_retireIfLive hs)
  · exact form_fenceUnit hs

theorem form_fenceRequest (hs : MemoryForm s) : MemoryForm (fenceRequest sub tok s) := by
  simp only [fenceRequest]
  refine form_guarded hs (fun _ ht => ?_)
  split
  · exact ht
  · exact form_ite (form_only ht) (form_postFinal (form_fenceDo (form_postFirst ht)))

theorem form_forgetUnit (hs : MemoryForm s) : MemoryForm (forgetUnit u s) := by
  simp only [forgetUnit]
  split
  · exact form_forget hs
  · exact form_forget hs
  · exact form_forget hs
  · exact form_forget hs
  · exact form_forget (form_forget hs)
  · exact form_foldl (fun _ _ ht => form_forget (form_forget ht)) (form_forget hs)
  · exact form_forget hs
  · exact hs

theorem form_unfenceDies {st : Nat} (hs : MemoryForm s) : MemoryForm (unfenceDies st s) :=
  form_ite (form_rebuildDone (form_ite (form_rebuildDone hs) hs)) (form_ite (form_rebuildDone hs) hs)

theorem form_returnUnit (hs : MemoryForm s) : MemoryForm (returnUnit u s) := by
  simp only [returnUnit]
  split
  · exact form_unfenceDies (form_pwuInval (form_forgetUnit (form_mk hs)))
  · exact form_modPod (form_forgetUnit (form_mk hs))
  · exact form_forgetUnit (form_mk hs)

theorem form_unfence (hs : MemoryForm s) : MemoryForm (unfence sub tok s) := by
  simp only [unfence]
  refine form_guarded hs (fun _ ht => ?_)
  split
  · exact ht
  · split
    · exact form_only ht
    · exact form_postFinal (form_ite (form_returnUnit (form_postFirst ht)) (form_postFirst ht))

theorem form_fuseRepair (hs : MemoryForm s) : MemoryForm (fuseRepair sub tok s) := by
  simp only [fuseRepair]
  refine form_guarded hs (fun _ ht => ?_)
  split
  · exact ht
  · exact form_ite (form_only ht) (form_ite (form_only ht) (form_postFirst (form_mk (form_setTile ht))))

theorem form_repairEnds {st : Status} {t : TileStat} (hs : MemoryForm s) : MemoryForm (repairEnds n c st t s) :=
  form_postFinal (form_ite (form_addFence (form_setTile hs)) (form_setTile hs))

theorem form_repairBlow (hs : MemoryForm s) : MemoryForm (repairBlow n c cells bad s) := by
  simp only [repairBlow]
  split
  · exact form_repairEnds (form_mk hs)
  · exact form_ite (form_repairEnds (form_mk hs)) (form_setTile (form_mk hs))

theorem form_repairVerify (hs : MemoryForm s) : MemoryForm (repairVerify n c cells s) := form_repairEnds (form_mk hs)

theorem form_repairComplete (hs : MemoryForm s) : MemoryForm (repairComplete n cells bad s) := by
  unfold repairComplete
  split
  · exact hs
  · exact form_ite (form_repairVerify hs) (form_repairBlow hs)

theorem form_hubHeartbeat {flit : Bool} (hs : MemoryForm s) : MemoryForm (hubHeartbeat h flit wire s) :=
  form_ite hs (form_modHub hs)

theorem form_pathLost (hs : MemoryForm s) : MemoryForm (pathLost h wire s) :=
  form_ite hs (form_ite (form_setHub hs) (form_setHub hs))

theorem form_takeover {token : BitVec 4096} {otherFell : Bool} (hs : MemoryForm s) : MemoryForm (takeover sub token otherFell tok s) :=
  form_guarded hs (fun _ ht => form_ite (form_only ht) (form_only (form_loseHub ht)))

theorem form_railFault {i cause millivolt : Nat} (hs : MemoryForm s) : MemoryForm (railFault i cause millivolt s) :=
  form_postDevice (form_fenceRail hs)

end Sys2Proof.Machine
end

section
/-! The form of memory under Machine/Csr.lean: the control and status registers and BAR0 (R14, R311, R339). -/

namespace Sys2Proof.Machine

open Sys2Proof

variable {s : State} {value : BitVec 32} {cxl : Bool} {r : CsrReg} {fn k len n off port reqId v w : Nat} {req : Requester}

theorem form_csrTouch (hs : MemoryForm s) : MemoryForm (csrTouch r n k s) := by
  simp only [csrTouch]
  split
  · exact form_mk hs
  · exact form_mk hs
  · exact form_mk hs
  · exact form_ite (form_setDie hs) (form_ite (form_setDie (form_mk hs)) hs)
  · exact form_ite (form_mk hs) hs
  · exact form_ite (form_mk hs) hs
  · exact form_setPort hs
  · exact form_ite (form_mk hs) hs
  · exact form_ite (form_mk hs) hs
  · exact hs

theorem form_csrReadBytes (hs : MemoryForm s) : MemoryForm (csrReadBytes off len s).2 := by
  unfold csrReadBytes
  refine form_foldl (fun _ _ ht => ?_) hs
  split
  · exact form_csrTouch ht
  · exact ht

theorem form_refuseRead (hs : MemoryForm s) : MemoryForm (refuseRead fn port off reqId cxl s) :=
  form_emit (form_setPort (form_ite hs (form_noteAer hs)))

theorem form_refuseWrite (hs : MemoryForm s) : MemoryForm (refuseWrite port off reqId cxl s) := form_setPort hs

theorem form_csrRead (hs : MemoryForm s) : MemoryForm (csrRead req off len s) := by
  unfold csrRead
  split
  · exact form_emit (form_csrReadBytes hs)
  · split
    · exact form_ite (form_refuseRead (form_mk hs)) (form_ite (form_emit hs) hs)
    · exact hs

theorem form_csrReach {make : State → State} (hs : MemoryForm s)
    (hk : ∀ t, MemoryForm t → MemoryForm (make t)) : MemoryForm (csrReach req off len s make) := by
  unfold csrReach
  split
  · exact hk _ hs
  · exact form_ite hs (form_ite (hk _ hs) (form_refuseWrite (form_mk hs)))

theorem form_pwuInvWrite {st : Nat} (hs : MemoryForm s) : MemoryForm (pwuInvWrite st v s) :=
  form_ite (form_pwuInval hs) (form_pwuInval hs)

theorem form_setLand {c : LandCh} (hs : MemoryForm s) : MemoryForm (setLand n c s) := form_mk hs

theorem form_landLen (hs : MemoryForm s) : MemoryForm (landLen n len s) := form_ite (form_setLand hs) (form_setLand hs)

theorem form_aperWrite (hs : MemoryForm s) : MemoryForm (aperWrite n v s) := form_mk hs

theorem form_csrStore {touched : Nat → Bool} (hs : MemoryForm s) : MemoryForm (csrStore req r n touched v s) := by
  simp only [csrStore]
  split
  · exact form_ite (form_lcCapWrite hs) hs
  · exact form_ite (form_pwuInvWrite hs) hs
  · exact form_ite (form_kvLand hs) hs
  · exact form_ite (form_ite (form_landLen (form_ite (form_setLand hs) hs)) (form_ite (form_setLand hs) hs)) hs
  · exact form_ite (form_aperWrite hs) hs
  · exact form_ite (form_mk hs) hs
  · exact hs

theorem form_csrWriteBytes {bs : List Byte} (hs : MemoryForm s) : MemoryForm (csrWriteBytes req off bs s) :=
  form_foldl (fun _ _ ht => form_csrStore ht) hs

theorem form_ringStore {m : Mbx} (hs : MemoryForm s) : MemoryForm (ringStore m w value s) := by
  simp only [ringStore]
  split
  · exact form_ite hs (form_setMbx hs)
  · exact form_ite hs (form_setMbx hs)
  · exact form_ite hs (form_setMbx hs)
  · exact form_ite hs (form_setMbx hs)
  · exact form_setMbx hs
  · exact form_setMbx hs
  · exact form_ite (form_mbxEnable hs) (form_stopMbx hs)
  · exact form_sqDoorbell hs
  · exact form_cqHeadWrite hs
  · exact hs

theorem form_eventStore (hs : MemoryForm s) : MemoryForm (eventStore fn w value s) := by
  simp only [eventStore]
  split
  · exact form_ite hs (form_setFunc hs)
  · exact form_ite hs (form_setFunc hs)
  · exact form_setFunc hs
  · split
    · exact form_eventRingEnable (form_ite (form_setFunc hs) hs)
    · exact form_setFunc (form_ite (form_setFunc hs) hs)
  · exact form_setFunc hs
  · exact hs

theorem form_msixStore (hs : MemoryForm s) : MemoryForm (msixStore fn k w value s) := form_setFunc hs

theorem form_bar0Store (hs : MemoryForm s) : MemoryForm (bar0Store fn off value s) := by
  unfold bar0Store
  split
  · exact hs
  · exact form_ite (form_msixStore hs) (form_ite (form_ringStore hs) (form_ite (form_eventStore hs) hs))

end Sys2Proof.Machine
end

section
/-! The form of memory under Machine/Reset.lean: a part reset and the loss of the rails leave nothing in memory (R456, R468). -/

namespace Sys2Proof.Machine

open Sys2Proof

variable {s : State}

theorem form_partReset : MemoryForm (partReset s) := memoryForm_empty rfl

theorem form_restartAcorns (hs : MemoryForm s) : MemoryForm (restartAcorns s) := form_mk hs

theorem form_setT0 (hs : MemoryForm s) : MemoryForm (setT0 s) := form_mk hs

theorem form_railsOff : MemoryForm (railsOff s) := form_mk form_partReset

end Sys2Proof.Machine
end

section
/-! The form of memory under Machine/Thermal.lean: temperatures, the power cap and the margin plan (R409-R429). -/

namespace Sys2Proof.Machine

open Sys2Proof

variable {s : State} {tok : CmdTok} {n : Nat} {sub : Submission}

theorem form_putThm {d : ThmDie} (hs : MemoryForm s) : MemoryForm (putThm n d s) := form_mk hs

theorem form_rateDie (hs : MemoryForm s) : MemoryForm (rateDie n s) := by
  simp only [rateDie]
  split
  · exact form_recordLate (form_ite (form_postDevice (form_putThm hs)) (form_putThm hs))
  · exact form_ite (form_postDevice (form_putThm hs)) (form_putThm hs)

theorem form_govern (hs : MemoryForm s) : MemoryForm (govern s) := form_mk hs

theorem form_logBoth (hs : MemoryForm s) : MemoryForm (logBoth n s) := form_recordBoth hs

theorem form_trip : MemoryForm (trip s) := form_railsOff

theorem form_steadyNow (hs : MemoryForm s) : MemoryForm (steadyNow s) := form_mk hs

theorem form_sensorSample {rs : List (List Int)} (hs : MemoryForm s) : MemoryForm (sensorSample rs s) := by
  simp only [sensorSample]
  split
  · exact hs
  · split
    · exact form_trip
    · exact form_govern (form_steadyNow (form_foldl (fun _ _ ht => form_rateDie ht) (form_mk hs)))

theorem form_externalSample {diodes therms : List (Option Int)} (hs : MemoryForm s) : MemoryForm (externalSample diodes therms s) :=
  form_ite hs (form_ite (form_recordLate (form_mk hs)) (form_mk hs))

theorem form_thermalConfig (hs : MemoryForm s) : MemoryForm (thermalConfig sub tok s) :=
  form_guarded hs (fun _ ht => form_ite (form_only ht) (form_only (form_mk ht)))

theorem form_powerSample {watts : Nat} (hs : MemoryForm s) : MemoryForm (powerSample watts s) :=
  form_ite hs (form_govern (form_mk hs))

theorem form_powerLimit (hs : MemoryForm s) : MemoryForm (powerLimit sub tok s) :=
  form_guarded hs (fun _ ht => form_ite (form_only ht) (form_only (form_mk ht)))

theorem form_forceCap {w : Nat} (hs : MemoryForm s) : MemoryForm (forceCap w s) :=
  form_extendPlans (form_mk (form_recordLate (form_mk hs)))

theorem form_powerLimitForce (hs : MemoryForm s) : MemoryForm (powerLimitForce sub tok s) :=
  form_guarded hs (fun _ ht => form_only (form_mk (form_ite (form_forceCap ht) (form_mk ht))))

theorem form_planEffect {ver : Nat} {plan : List (Nat × Nat)} (hs : MemoryForm s) : MemoryForm (planEffect ver plan s) :=
  form_foldl (fun _ _ ht => form_ite ht (form_postDevice ht)) (form_mk (form_planVolts (form_mk hs)))

theorem form_settlePlan (hs : MemoryForm s) : MemoryForm (settlePlan s) := by
  simp only [settlePlan]
  split
  · exact hs
  · exact form_ite (form_planEffect hs) hs

theorem form_marginReplan {floors : List (Nat × Nat)} (hs : MemoryForm s) : MemoryForm (marginReplan floors s) :=
  form_ite hs (form_settlePlan (form_recordBoth (form_mk hs)))

end Sys2Proof.Machine
end

section
/-! The form of memory under Machine/Reports.lean: the 4 KiB records (R327-R332, R363). -/

namespace Sys2Proof.Machine

open Sys2Proof

variable {s : State}

theorem form_report {op : Nat} {src : From} {body : State → List Byte} {sub : Submission} {tok : CmdTok} (hs : MemoryForm s) :
    MemoryForm (report op src body sub tok s) :=
  form_guarded hs (fun _ ht => form_only (form_emitResult ht))

end Sys2Proof.Machine
end

section
/-! The form of memory under Machine/Security.lean: lifecycle, the erase sequence and DEBUG_UNLOCK. The erase leaves no byte listed
(R451). -/

namespace Sys2Proof.Machine

open Sys2Proof

variable {s : State} {token : BitVec 4096} {tok : CmdTok} {sub : Submission} {u : Unlock}

theorem form_lifecycleRead (hs : MemoryForm s) : MemoryForm (lifecycleRead sub tok s) :=
  form_guarded hs (fun _ ht => form_only ht)

theorem form_commitMode {ok : Bool} {word : Nat × BitVec 384} {after : State → State}
    (hk : ∀ t, MemoryForm t → MemoryForm (after t)) (hs : MemoryForm s) : MemoryForm (commitMode sub tok ok word after s) := by
  simp only [commitMode]
  refine form_guarded hs (fun _ ht => ?_)
  split
  · exact form_only ht
  · exact hk _ (form_only (form_mk ht))

theorem form_setOwner {hash : BitVec 384} (hs : MemoryForm s) : MemoryForm (setOwner sub hash tok s) :=
  form_commitMode (fun _ ht => ht) hs

theorem form_rotateOwner (hs : MemoryForm s) : MemoryForm (rotateOwner sub token tok s) := form_commitMode (fun _ ht => ht) hs

theorem form_fencePods (hs : MemoryForm s) : MemoryForm (fencePods s) := form_foldl (fun _ _ ht => form_fenceUnit ht) hs

theorem form_zeroHusk (hs : MemoryForm s) : MemoryForm (zeroHusk s) := form_mk hs

theorem form_reinit : MemoryForm (reinit s) := memoryForm_empty rfl

theorem form_eraseAll : MemoryForm (eraseAll s) := form_logBoth form_reinit

theorem form_retire (hs : MemoryForm s) : MemoryForm (retire sub token tok s) := form_commitMode (fun _ _ => form_eraseAll) hs

theorem form_unlockAt {n : Nat} (hs : MemoryForm s) : MemoryForm (unlockAt u n s) := form_mk hs

theorem form_unlockEnd {st : Status} (hs : MemoryForm s) : MemoryForm (unlockEnd u st s) := form_postFinal (form_mk hs)

theorem form_unlockBlow (hs : MemoryForm s) : MemoryForm (unlockBlow u s) := by
  simp only [unlockBlow]
  split
  · exact form_unlockEnd hs
  · exact form_ite (form_unlockAt hs) (form_ite (form_unlockEnd hs) (form_unlockAt (form_mk hs)))

theorem form_unlockStep (hs : MemoryForm s) : MemoryForm (unlockStep u s) := by
  simp only [unlockStep]
  split
  · exact form_unlockBlow hs
  · exact form_unlockAt (form_fencePods hs)
  · exact form_unlockAt (form_zeroHusk hs)
  · exact form_unlockAt form_reinit
  · exact form_ite (form_unlockEnd hs) (form_unlockAt (form_logBoth hs))
  · exact form_ite (form_unlockEnd hs) (form_ite hs (form_unlockEnd (form_mk hs)))

theorem form_debugUnlock (hs : MemoryForm s) : MemoryForm (debugUnlock sub token tok s) :=
  form_guarded hs (fun _ ht => form_ite (form_only ht) (form_ite (form_only ht) (form_unlockAt (form_postFirst ht))))

theorem form_execDebugUnlock (hs : MemoryForm s) : ∀ q, execDebugUnlock sub token s = .next q → MemoryForm q := by
  unfold execDebugUnlock
  refine next_form ?_
  split
  · exact form_unlockStep hs
  · exact form_runCmd hs (fun _ _ ht => form_debugUnlock ht)

theorem form_programWord {w : Nat × BitVec 384} (hs : MemoryForm s) : MemoryForm (programWord w s) :=
  form_ite (form_mk hs) (form_mk hs)

theorem form_lifecycleFuseWord (hs : MemoryForm s) : MemoryForm (lifecycleFuseWord s) := by
  unfold lifecycleFuseWord
  split
  · exact hs
  · exact form_ite (form_programWord hs) (form_foldl (fun _ _ ht => form_deferWrite ht) hs)

theorem form_settleWord {d : Deferred} (hs : MemoryForm s) : MemoryForm (settleWord d s) := by
  unfold settleWord
  split
  · split
    · exact hs
    · split
      · exact form_programWord hs
      · exact hs
  · exact hs

theorem form_deferredReplay (hs : MemoryForm s) : MemoryForm (deferredReplay s) := by
  simp only [deferredReplay]
  split
  · exact form_settlePlan hs
  · exact form_settlePlan (form_settleWord (form_applyWrite (form_mk hs)))

end Sys2Proof.Machine
end

section
/-! The form of memory under Machine/Boot.lean: supplies, reset and boot (R333-R335, R456, R465). -/

namespace Sys2Proof.Machine

open Sys2Proof

variable {s : State} {faults : List (Nat × Nat × Nat)}

theorem form_aonLost (hs : MemoryForm s) : MemoryForm (aonLost s) := form_mk hs

theorem form_vaux3Rise {addrSel : Nat} (hs : MemoryForm s) : MemoryForm (vaux3Rise addrSel s) :=
  form_ite hs (form_setT0 (form_restartAcorns (form_mk (form_aonLost form_partReset))))

theorem form_supplyFault {entry : Nat} (hs : MemoryForm s) : MemoryForm (supplyFault entry s) :=
  form_ite (form_mk form_railsOff) hs

theorem form_pwrGoodRise {lead : Bool} (hs : MemoryForm s) : MemoryForm (pwrGoodRise lead s) :=
  form_ite hs (form_ite (form_mk hs) (form_setT0 form_partReset))

theorem form_pwrGoodFall (hs : MemoryForm s) : MemoryForm (pwrGoodFall s) := form_ite (form_mk form_railsOff) hs

theorem form_setStage {n : Nat} (hs : MemoryForm s) : MemoryForm (setStage n s) := form_mk hs

theorem form_bootBank (hs : MemoryForm s) : MemoryForm (bootBank s) := form_setStage (form_mk hs)

theorem form_softStartAll {l : List Nat} (hs : MemoryForm s) : MemoryForm (softStartAll l s) :=
  form_foldl (fun _ _ ht => form_ite (form_setRail ht) ht) hs

theorem form_setLatch (hs : MemoryForm s) : MemoryForm (setLatch s) := form_ite hs (form_modHub (form_modHub hs))

theorem form_bootRails (hs : MemoryForm s) : MemoryForm (bootRails s) :=
  form_ite hs (form_mk (form_softStartAll (form_ite (form_setLatch hs) hs)))

theorem form_bootFabric (hs : MemoryForm s) : MemoryForm (bootFabric s) := form_setStage (form_mk hs)

theorem form_formHusk (hs : MemoryForm s) : MemoryForm (formHusk s) := form_mk hs

theorem form_readDie {m : Nat × List Nat × Nat × Nat × List Nat} (hs : MemoryForm s) : MemoryForm (readDie m s) := form_setDie hs

theorem form_bootFirmware (hs : MemoryForm s) : MemoryForm (bootFirmware s) :=
  form_setStage (form_formHusk (form_planVolts (form_mk (form_foldl (fun _ _ ht => form_readDie ht) hs))))

theorem form_bistTile {t : Nat} (hs : MemoryForm s) : MemoryForm (bistTile faults s t) :=
  form_ite hs (form_ite (form_fenceUnit (form_setTile hs)) (form_setTile hs))

theorem form_bootReady (hs : MemoryForm s) : MemoryForm (bootReady s) :=
  form_ite (form_recordBoth (form_setStage (form_mk hs))) (form_setStage (form_mk hs))

theorem form_bootStage (hs : MemoryForm s) : MemoryForm (bootStage faults s) := by
  unfold bootStage
  split
  · exact hs
  · split
    · exact form_bootBank hs
    · exact form_bootRails hs
    · exact form_ite (form_bootFabric hs) hs
    · exact form_setStage hs
    · exact form_ite (form_bootFirmware hs) hs
    · exact form_setStage hs
    · exact form_setStage (form_foldl (fun _ _ ht => form_bistTile ht) hs)
    · exact form_bootReady hs
    · exact hs

theorem form_firmwareFallback (hs : MemoryForm s) : MemoryForm (firmwareFallback s) :=
  form_ite hs (form_ite (form_mk (form_recordBoth hs)) (form_setStage (form_recordBoth hs)))

end Sys2Proof.Machine
end

section
/-! The form of memory under Machine/EccCmds.lean: reads that decode, patrol scrub, rebuilds and refresh (R357-R369). -/

namespace Sys2Proof.Machine

open Sys2Proof

variable {s : State} {upset : Errs} {g st : Nat}

theorem form_upsetDram {e : Errs} (hs : MemoryForm s) : MemoryForm (upsetDram g e s) := form_mk hs

theorem form_dramRead (hs : MemoryForm s) : MemoryForm (dramRead g upset s) := by
  unfold dramRead
  split
  · exact form_fetchDram (form_upsetDram hs)
  · exact hs

theorem form_sramRead {w : Nat} {upset : BitVec 72} (hs : MemoryForm s) : MemoryForm (sramRead w upset s) := by
  simp only [sramRead]
  split
  · exact hs
  · exact form_ite (form_uncorrectable (form_fetchWord (form_mk hs))) (form_fetchWord (form_mk hs))

theorem form_leakTick (hs : MemoryForm s) : MemoryForm (leakTick s) := form_ite hs (form_mk hs)

theorem form_scrubRewrite {before : Errs} {out : DramOut} (hs : MemoryForm s) : MemoryForm (scrubRewrite g before out s) := by
  unfold scrubRewrite
  split
  · exact form_mk hs
  · exact hs

theorem form_patrolScrub (hs : MemoryForm s) : MemoryForm (patrolScrub st upset s) := by
  simp only [patrolScrub]
  split
  · exact hs
  · split
    · exact hs
    · exact form_setDie (form_scrubRewrite (form_fetchDram (form_upsetDram (form_ite (form_mk hs) hs))))

theorem form_spareWrite {slot : Nat} {left : Errs} (hs : MemoryForm s) : MemoryForm (spareWrite g slot left s) := form_mk hs

theorem form_rebuildLost (hs : MemoryForm s) : MemoryForm (rebuildLost st g s) :=
  form_ite (form_countUE (form_storePoison _ hs)) (form_postUE (form_countUE (form_storePoison _ hs)))

theorem form_rebuildWord (hs : MemoryForm s) : MemoryForm (rebuildWord st g s) := by
  simp only [rebuildWord]
  split
  · exact form_rebuildLost hs
  · exact form_countFix (form_spareWrite hs)
  · exact form_spareWrite hs

theorem form_rebuildSlot (hs : MemoryForm s) : MemoryForm (rebuildSlot st upset s) :=
  form_ite (form_setDie (form_rebuildWord (form_upsetDram hs))) hs

theorem form_refreshChange (hs : MemoryForm s) : MemoryForm (refreshChange st s) := form_ite hs (form_setDie hs)

end Sys2Proof.Machine
end

section
/-! The form of memory under Machine/NodeStart.lean: the start of a node (R253-R256, R134). -/

namespace Sys2Proof.Machine

open Sys2Proof

variable {s : State} {d : LaunchDesc} {cores order : List Nat} {r : NodeRec} {ref : NodeRef}

theorem form_copyBlocks {g : Graph} (hs : MemoryForm s) : MemoryForm (copyBlocks g r cores s).2 := by
  simp only [copyBlocks]
  split
  · exact hs
  · split <;> exact form_touch hs

theorem form_launchEngines {code : List (BitVec 64)} {args : List (BitVec 32 × Bool)} (hs : MemoryForm s) :
    MemoryForm (launchEngines ref d code args order s) :=
  form_foldl (fun _ _ ht => form_mk ht) hs

theorem form_startLaunch (hs : MemoryForm s) : MemoryForm (startLaunch ref d cores s).2 := by
  simp only [startLaunch]
  split
  · exact hs
  · exact hs
  · split
    · exact form_fetchBytes (form_fetchBytes hs)
    · split
      · exact form_fetchBytes (form_fetchBytes hs)
      · exact form_launchEngines (form_fetchBytes (form_fetchBytes hs))

theorem form_addCounter {e chan n : Nat} (hs : MemoryForm s) : MemoryForm (addCounter e chan n s) := by
  simp only [addCounter]
  split
  · exact form_mk hs
  · exact hs

theorem form_landDescs {st : Nat} {descs : List Nat} (hs : MemoryForm s) : MemoryForm (landDescs st r order descs s) :=
  form_foldl (fun _ _ ht => form_addCounter (form_foldl (fun _ _ hu => form_landBytes hu) ht)) hs

theorem form_walkNode {rows : List StepRow} (hs : MemoryForm s) : MemoryForm (walkNode ref r rows cores s).2 := by
  simp only [walkNode]
  split
  · exact hs
  · split
    · exact form_foldl_snd (fun _ _ ht => form_walkStack ht) hs
    · exact form_foldl (fun _ _ ht => form_landDescs ht) (form_foldl_snd (fun _ _ ht => form_walkStack ht) hs)

theorem form_startNode (hs : MemoryForm s) : MemoryForm (startNode ref cores s).2 := by
  simp only [startNode]
  split
  · exact hs
  · split
    · exact hs
    · split
      · exact form_modNode (form_writeRec (form_takePos hs))
      · split
        · split
          · rename_i he
            exact form_of_eq_snd (form_copyBlocks (form_modNode (form_writeRec (form_takePos hs)))) he
          · rename_i he
            exact form_mk (form_of_eq_snd (form_copyBlocks (form_modNode (form_writeRec (form_takePos hs)))) he)
        · exact form_startLaunch (form_modNode (form_writeRec (form_takePos hs)))
        · split
          · rename_i he
            exact form_of_eq_snd (form_startLaunch (form_modNode (form_writeRec (form_takePos hs)))) he
          · rename_i he
            split
            · exact form_walkNode (form_of_eq_snd (form_startLaunch (form_modNode (form_writeRec (form_takePos hs)))) he)
            · exact form_of_eq_snd (form_startLaunch (form_modNode (form_writeRec (form_takePos hs)))) he
        · exact form_modNode (form_writeRec (form_takePos hs))

theorem form_startGang {p num : Nat} {members : List (Nat × List Nat)} (hs : MemoryForm s) : MemoryForm (startGang p num members s) := by
  simp only [startGang]
  split
  · exact form_foldl_snd (fun _ _ ht => form_startNode ht) hs
  · exact form_faultNode (form_foldl_snd (fun _ _ ht => form_startNode ht) hs)

theorem form_startPlanned (hs : MemoryForm s) : MemoryForm (startPlanned ref s) := by
  simp only [startPlanned]
  split
  · exact hs
  · split
    · exact hs
    · split
      · exact hs
      · exact form_ite (form_checkEnd (form_cancelNodes (form_cancelNodes hs))) (form_startGang hs)

theorem form_startBestEffort (hs : MemoryForm s) : MemoryForm (startBestEffort ref s) := by
  unfold startBestEffort
  split
  · exact hs
  · exact form_ite (form_startGang hs) hs

end Sys2Proof.Machine
end

section
/-! The form of memory under Machine/Engine.lean: the issue of an engine instruction keeps the form where its body does (R126, R171);
local and device memory as a thread sees them (R163, R164). -/

namespace Sys2Proof.Machine

open Sys2Proof

variable {s : State} {g : Group} {bs : List (Byte × Bool)} {a e len off : Nat} {node : NodeRef}

theorem form_modEngine {f : EngineRun → EngineRun} (hs : MemoryForm s) : MemoryForm (modEngine e f s) := by
  unfold modEngine
  split
  · exact form_mk hs
  · exact hs

theorem form_putGroup (hs : MemoryForm s) : MemoryForm (putGroup e g s) := form_modEngine hs

theorem form_endGroup {slot : Nat} (hs : MemoryForm s) : MemoryForm (endGroup e slot s) := form_modEngine hs

theorem form_issue {op : EngOp} {at_ : Issue} {w : EngFields} {body : Body}
    (hk : ∀ x x1 x2 t, MemoryForm t → ∀ q, body x x1 x2 t = .ok q → MemoryForm q.s) (hs : MemoryForm s) :
    MemoryForm (issue op at_ w body s) := by
  simp only [issue]
  split
  · exact hs
  · split
    · exact form_faultNode hs
    · rename_i he
      split
      · exact form_endGroup (hk _ _ _ _ hs _ he)
      · exact form_putGroup (hk _ _ _ _ hs _ he)
      · exact form_ite (form_faultNode (form_putGroup (hk _ _ _ _ hs _ he))) (form_putGroup (hk _ _ _ _ hs _ he))

theorem form_onGroup {f : EngineRun → Group → Group} {run : EngineRun} (hs : MemoryForm s) :
    ∀ q, onGroup f e run g s = .ok q → MemoryForm q.s :=
  ok_form hs

theorem form_readLocal (hs : MemoryForm s) : MemoryForm (readLocal e off len s).2 := form_fetchBytes hs

theorem form_writeLocal (hs : MemoryForm s) : MemoryForm (writeLocal e node off bs s) :=
  form_ite (form_notePoison (form_landPoisonable hs)) (form_landPoisonable hs)

theorem form_freeBytes {n : Nat} (hs : MemoryForm s) : MemoryForm (freeBytes n s).2 := form_mk hs

theorem form_readDevice (hs : MemoryForm s) : MemoryForm (readDevice node a len s).2 := by
  unfold readDevice
  split
  · exact form_emit (form_freeBytes hs)
  · exact form_fetchBytes (form_redirect hs)

theorem form_writeDevice {final : Bool} (hs : MemoryForm s) : MemoryForm (writeDevice node a bs final s) := by
  simp only [writeDevice]
  split
  · refine form_notePoison ?_
    split
    · exact form_sendPeerOf hs
    · exact form_landPoisonable hs
  · split
    · exact form_sendPeerOf hs
    · exact form_landPoisonable hs

end Sys2Proof.Machine
end

section
/-! The form of memory under Machine/EngineControl.lean: control and predicate instructions, barriers and counter waits. -/

namespace Sys2Proof.Machine

open Sys2Proof

variable {s : State} {w : EngFields} {run : EngineRun} {g : Group} {e : Nat}

theorem form_braBody (hs : MemoryForm s) : ∀ q, braBody w e run g s = .ok q → MemoryForm q.s := by
  simp only [braBody]
  split
  · exact error_form
  · split <;> exact ok_form hs

theorem form_loopBody (hs : MemoryForm s) : ∀ q, loopBody w e run g s = .ok q → MemoryForm q.s := by
  simp only [loopBody]
  split
  · exact ok_form hs
  · split
    · exact error_form
    · exact ok_form hs

theorem form_releaseWait {b : Wait} (hs : MemoryForm s) : MemoryForm (releaseWait e b s) := form_modEngine hs

theorem form_engineRelease (hs : MemoryForm s) : MemoryForm (engineRelease e s) := by
  unfold engineRelease
  split
  · exact form_ite (form_releaseWait hs) hs
  · exact hs

theorem form_groupRelease {n : Nat} (hs : MemoryForm s) : MemoryForm (groupRelease n s) :=
  form_ite (form_foldl (fun _ _ ht => form_releaseWait ht) hs) hs

theorem form_waitcBody (hs : MemoryForm s) : ∀ q, waitcBody w e run g s = .ok q → MemoryForm q.s := by
  simp only [waitcBody]
  split
  · exact ok_form hs
  · split
    · exact error_form
    · exact ok_form hs

theorem form_waitcGo {at_ : Issue} (hs : MemoryForm s) : MemoryForm (waitcGo at_ s) := form_modEngine hs

end Sys2Proof.Machine
end

section
/-! The form of memory under Machine/EngineFloat.lean: FP32 instructions (R53, R157-R162). -/

namespace Sys2Proof.Machine

open Sys2Proof

variable {s : State} {w : EngFields} {run : EngineRun} {g : Group} {e : Nat}

theorem form_fpTwo {f : BitVec 32 → BitVec 32 → BitVec 32} (hs : MemoryForm s) :
    ∀ q, fpTwo f w e run g s = .ok q → MemoryForm q.s :=
  form_onGroup hs

theorem form_fpOne {f : BitVec 32 → BitVec 32} (hs : MemoryForm s) : ∀ q, fpOne f w e run g s = .ok q → MemoryForm q.s :=
  form_onGroup hs

theorem form_fmaBody (hs : MemoryForm s) : ∀ q, fmaBody w e run g s = .ok q → MemoryForm q.s := form_onGroup hs

theorem form_cvtBody (hs : MemoryForm s) : ∀ q, cvtBody w e run g s = .ok q → MemoryForm q.s := by
  simp only [cvtBody]
  split
  · exact error_form
  · exact ok_form (form_countStk hs)

theorem form_smstepBody (hs : MemoryForm s) : ∀ q, smstepBody w e run g s = .ok q → MemoryForm q.s := by
  simp only [smstepBody]
  split
  · exact error_form
  · exact ok_form hs

end Sys2Proof.Machine
end

section
/-! The form of memory under Machine/EngineExact.lean: exact instructions (R154-R159). -/

namespace Sys2Proof.Machine

open Sys2Proof

variable {s : State} {w : EngFields} {run : EngineRun} {g : Group} {e : Nat}

theorem form_xmacStep {r : Group × State} {i : Nat} (hs : MemoryForm r.2) : MemoryForm (xmacStep e run w r i).2 := by
  unfold xmacStep
  split
  extract_lets imm x
  split
  rename_i ha
  have ht := form_of_eq_snd (form_readLocal hs) ha
  split
  rename_i hb
  exact form_countStk (form_of_eq_snd (form_readLocal ht) hb)

theorem form_xmacBody (hs : MemoryForm s) : ∀ q, xmacBody w e run g s = .ok q → MemoryForm q.s := by
  simp only [xmacBody]
  split
  · exact error_form
  · exact ok_form (form_foldl_snd (fun _ _ ht => form_xmacStep ht) hs)

theorem form_xredBody (hs : MemoryForm s) : ∀ q, xredBody w e run g s = .ok q → MemoryForm q.s := by
  simp only [xredBody]
  split
  · exact error_form
  · exact ok_form hs

theorem form_xexitBody (hs : MemoryForm s) : ∀ q, xexitBody w e run g s = .ok q → MemoryForm q.s := by
  simp only [xexitBody]
  split
  · exact error_form
  · split
    · exact error_form
    · exact ok_form (form_countStk hs)

theorem form_qblkBody (hs : MemoryForm s) : ∀ q, qblkBody w e run g s = .ok q → MemoryForm q.s := by
  simp only [qblkBody]
  split
  · exact ok_form hs
  · split
    · exact error_form
    · split
      · exact error_form
      · exact ok_form (form_countStk (form_writeLocal hs))

end Sys2Proof.Machine
end

section
/-! The form of memory under Machine/EngineInteger.lean: integer instructions (R148, R151, R153). -/

namespace Sys2Proof.Machine

open Sys2Proof

variable {s : State} {w : EngFields} {run : EngineRun} {g : Group} {e : Nat}

theorem form_aluTwo {f : BitVec 32 → BitVec 32 → BitVec 32} (hs : MemoryForm s) :
    ∀ q, aluTwo f w e run g s = .ok q → MemoryForm q.s :=
  form_onGroup hs

theorem form_imadBody (hs : MemoryForm s) : ∀ q, imadBody w e run g s = .ok q → MemoryForm q.s := form_onGroup hs

theorem form_selBody (hs : MemoryForm s) : ∀ q, selBody w e run g s = .ok q → MemoryForm q.s := by
  simp only [selBody]
  split
  · exact error_form
  · exact ok_form hs

end Sys2Proof.Machine
end

section
/-! The form of memory under Machine/EngineMemory.lean: loads, stores, GCOPY, XCHG and the sprout port (R163-R168, R191-R193). -/

namespace Sys2Proof.Machine

open Sys2Proof

variable {s : State} {w : EngFields} {run : EngineRun} {f : Flight} {g : Group} {m : Mem} {e first i index loff n off : Nat}

theorem form_loadLane {r : Group × State} (hs : MemoryForm r.2) : MemoryForm (loadLane m e run w r i).2 := by
  unfold loadLane
  split
  extract_lets n a
  split
  rename_i he
  refine form_of_eq_snd ?_ he
  split
  · exact form_readDevice hs
  · exact form_fetchBytes hs

theorem form_storeLane (hs : MemoryForm s) : MemoryForm (storeLane m e run g w s i) := form_writeDevice hs

theorem form_loadBody (hs : MemoryForm s) : ∀ q, loadBody m w e run g s = .ok q → MemoryForm q.s := by
  simp only [loadBody]
  split
  · exact error_form
  · exact ok_form (form_foldl_snd (fun _ _ ht => form_loadLane ht) hs)

theorem form_storeBody (hs : MemoryForm s) : ∀ q, storeBody m w e run g s = .ok q → MemoryForm q.s := by
  simp only [storeBody]
  split
  · exact error_form
  · exact ok_form (form_foldl (fun _ _ ht => form_storeLane ht) hs)

theorem form_copyIn {lc : Bool} {chan : Nat} (hs : MemoryForm s) : MemoryForm (copyIn run lc e loff chan n first s) :=
  form_foldl (fun _ _ ht => form_mk (form_readDevice ht)) hs

theorem form_copyOut (hs : MemoryForm s) : MemoryForm (copyOut run e loff n first s) := by
  unfold copyOut
  refine form_foldl (fun _ _ ht => ?_) hs
  split
  rename_i he
  exact form_writeDevice (form_of_eq_snd (form_readLocal ht) he)

theorem form_gcopyBody (hs : MemoryForm s) : ∀ q, gcopyBody w e run g s = .ok q → MemoryForm q.s := by
  unfold gcopyBody
  extract_lets imm n
  split
  · exact ok_form hs
  · extract_lets doff loff
    split
    · exact error_form
    · split
      · exact error_form
      · split
        rename_i he
        have ht := form_of_eq_snd (form_readLocal hs) he
        extract_lets word t span first
        split
        · exact error_form
        · split
          · exact error_form
          · split
            · exact error_form
            · split
              · exact error_form
              · exact ok_form (form_ite (form_copyOut ht) (form_copyIn ht))

theorem form_sendBlock {imm : Nat} {stks : List Nat} (hs : MemoryForm s) : MemoryForm (sendBlock run e off n imm stks s) := by
  unfold sendBlock
  refine form_foldl (fun _ _ ht => ?_) hs
  split
  rename_i he
  exact form_mk (form_of_eq_snd (form_readLocal ht) he)

theorem form_xchgBody (hs : MemoryForm s) : ∀ q, xchgBody w e run g s = .ok q → MemoryForm q.s := by
  simp only [xchgBody]
  split
  · exact ok_form hs
  · split
    · exact error_form
    · split
      · exact error_form
      · split
        · exact error_form
        · exact ok_form (form_sendBlock hs)

theorem form_landFlight (hs : MemoryForm s) : MemoryForm (landFlight f off s) := by
  simp only [landFlight]
  refine form_ite ?_ ?_
  · refine form_faultNode ?_
    split
    · exact form_notePoison (form_foldl (fun _ _ ht => form_ite ht (form_addCounter (form_landPoisonable ht))) hs)
    · exact form_foldl (fun _ _ ht => form_ite ht (form_addCounter (form_landPoisonable ht))) hs
  · split
    · exact form_notePoison (form_foldl (fun _ _ ht => form_ite ht (form_addCounter (form_landPoisonable ht))) hs)
    · exact form_foldl (fun _ _ ht => form_ite ht (form_addCounter (form_landPoisonable ht))) hs

theorem form_exchangeLand (hs : MemoryForm s) : MemoryForm (exchangeLand index s) := by
  unfold exchangeLand
  split
  · split
    · exact form_landFlight (form_mk hs)
    · exact hs
  · exact hs

theorem form_sprtBody (hs : MemoryForm s) : ∀ q, sprtBody w e run g s = .ok q → MemoryForm q.s := by
  simp only [sprtBody]
  split
  · exact ok_form hs
  · split
    · exact error_form
    · split
      · exact error_form
      · exact ok_form (form_mk (form_readLocal hs))

theorem form_portTake {w : PortWrite} (hs : MemoryForm s) : MemoryForm (portTake w s) := by
  simp only [portTake]
  split
  · exact form_modStream hs
  · exact form_faultNode hs
  · exact form_ite (form_faultNode hs) (form_mk (form_countWindow hs))

theorem form_sproutWrite (hs : MemoryForm s) : MemoryForm (sproutWrite index s) := by
  unfold sproutWrite
  split
  · exact form_portTake (form_mk hs)
  · exact hs

theorem form_landSprout (hs : MemoryForm s) : MemoryForm (landSprout f s) := by
  simp only [landSprout]
  split
  · exact form_faultNode hs
  · split
    · refine form_notePoison ?_
      split
      · exact form_foldl (fun _ _ ht => form_landPoisonable ht) hs
      · exact form_foldl (fun _ _ ht => form_addCounter ht) (form_foldl (fun _ _ ht => form_landPoisonable ht) hs)
    · split
      · exact form_foldl (fun _ _ ht => form_landPoisonable ht) hs
      · exact form_foldl (fun _ _ ht => form_addCounter ht) (form_foldl (fun _ _ ht => form_landPoisonable ht) hs)

theorem form_sproutLand (hs : MemoryForm s) : MemoryForm (sproutLand index s) := by
  unfold sproutLand
  split
  · exact form_ite (form_landSprout (form_mk hs)) hs
  · exact hs

end Sys2Proof.Machine
end

section
/-! The form of memory under Machine/HostPorts.lean: host accesses, resets and training (R295, R337-R348, R365, R478). -/

namespace Sys2Proof.Machine

open Sys2Proof

variable {s : State} {uio : Bool} {attr : HostAttr} {bs : List Byte} {l : List Piece} {fn len off p port : Nat} {q : Piece}

theorem form_readPiece (hs : MemoryForm s) : MemoryForm (readPiece q s).2.2 := by
  unfold readPiece
  split
  · exact form_csrReadBytes hs
  · split
    · exact form_emit (form_mk hs)
    · exact form_fetchBytes hs

theorem form_readPieces (hs : MemoryForm s) : MemoryForm (readPieces l s).2.2 :=
  form_foldl_snd2 (fun _ _ ht => form_readPiece ht) hs

theorem form_completeRead (hs : MemoryForm s) : MemoryForm (completeRead fn l s) :=
  form_ite (form_emit (form_mk (form_readPieces hs))) (form_emit (form_readPieces hs))

theorem form_noFunction {awaits : Bool} (hs : MemoryForm s) : MemoryForm (noFunction fn awaits s) := form_ite (form_emit hs) hs

theorem form_hostRead (hs : MemoryForm s) : MemoryForm (hostRead fn off len attr s) := by
  unfold hostRead
  split
  · exact hs
  · split
    · exact form_noFunction hs
    · split
      · exact form_completeRead hs
      · exact form_refuseRead hs

theorem form_writePiece (hs : MemoryForm s) : MemoryForm (writePiece fn q bs s) :=
  form_ite (form_csrWriteBytes hs) (form_ite (form_sendPeer hs) (form_landBytes hs))

theorem form_writePieces (hs : MemoryForm s) : MemoryForm (writePieces fn l bs s) := by
  induction l generalizing bs s with
  | nil => exact hs
  | cons q r ih => exact ih (form_writePiece hs)

theorem form_hostWrite (hs : MemoryForm s) : MemoryForm (hostWrite fn off bs attr s) := by
  unfold hostWrite
  split
  · exact hs
  · split
    · exact form_writePieces hs
    · exact form_refuseWrite hs

theorem form_refuseUio {reqId : Nat} (hs : MemoryForm s) : MemoryForm (refuseUio fn off reqId s) :=
  form_emit (form_setPort (form_noteAer hs))

theorem form_uioWrite (hs : MemoryForm s) : MemoryForm (uioWrite fn off bs attr s) := by
  unfold uioWrite
  split
  · exact hs
  · split
    · exact form_noFunction hs
    · split
      · exact form_emit (form_writePieces hs)
      · exact form_refuseUio hs

theorem form_poisonPiece (hs : MemoryForm s) : MemoryForm (poisonPiece q s) :=
  form_ite (form_sendPeer hs) (form_landPoisonable hs)

theorem form_refusePoisoned {register : Bool} (hs : MemoryForm s) : MemoryForm (refusePoisoned fn off uio register attr s) :=
  form_ite (form_refuseWrite hs) (form_ite (form_refuseUio (form_refuseWrite hs)) (form_refuseUio hs))

theorem form_hostPoisoned (hs : MemoryForm s) : MemoryForm (hostPoisoned fn off len uio attr s) := by
  simp only [hostPoisoned]
  split
  · exact hs
  · split
    · exact form_noFunction hs
    · split
      · split
        · exact form_refusePoisoned (form_noteAer hs)
        · split
          · exact form_emit (form_foldl (fun _ _ ht => form_poisonPiece ht) (form_noteAer hs))
          · exact form_foldl (fun _ _ ht => form_poisonPiece ht) (form_noteAer hs)
      · exact form_refusePoisoned (form_noteAer hs)

theorem form_cxlAccess {addr : Nat} {write : Option (List Byte)} (hs : MemoryForm s) : MemoryForm (cxlAccess port addr write len s) := by
  unfold cxlAccess
  split
  · exact hs
  · split
    · split
      · exact hs
      · split
        · exact form_completeRead hs
        · exact form_refuseRead (form_mk hs)
    · split
      · exact hs
      · split
        · exact form_emit (form_writePieces hs)
        · exact form_emit (form_refuseWrite (form_mk hs))

theorem form_loseHost (hs : MemoryForm s) : MemoryForm (loseHost fn s) := form_ite (form_postDevice hs) hs

theorem form_resetMailboxes (hs : MemoryForm s) : MemoryForm (resetMailboxes fn s) :=
  form_foldl (fun _ _ ht => form_ite (form_setMbx ht) ht) hs

theorem form_resetFunction (hs : MemoryForm s) : MemoryForm (resetFunction fn s) :=
  form_setFunc (form_resetMailboxes (form_loseHost hs))

theorem form_dropVfs (hs : MemoryForm s) : MemoryForm (dropVfs p s) :=
  form_foldl (fun _ _ ht => form_ite (form_resetFunction ht) ht) hs

theorem form_flr (hs : MemoryForm s) : MemoryForm (flr fn s) := form_resetFunction (form_ite (form_dropVfs hs) hs)

theorem form_portReset {linkDown : Bool} (hs : MemoryForm s) : MemoryForm (portReset p linkDown s) := by
  simp only [portReset]
  split
  · exact hs
  · split
    · exact form_losePort (form_setPort (form_foldl (fun _ _ ht => form_flr ht) hs))
    · exact form_setPort (form_foldl (fun _ _ ht => form_flr ht) hs)

theorem form_busMaster {on : Bool} (hs : MemoryForm s) : MemoryForm (busMaster fn on s) := by
  simp only [busMaster]
  split
  · exact hs
  · split
    · exact form_ite (form_postDevice (form_setFunc hs)) (form_setFunc hs)
    · exact form_stopFn (form_setFunc (form_loseHost hs))

theorem form_ideKm {stream slot : Nat} {key : BitVec 256} {session : Nat} (hs : MemoryForm s) :
    MemoryForm (ideKm port stream slot key session s) :=
  form_ite (form_setPort hs) hs

theorem form_perstRelease (hs : MemoryForm s) : MemoryForm (perstRelease p s) := form_ite (form_setPort (form_mk hs)) hs

theorem form_hdmStore {k : Nat} {change : Hdm → Hdm} (hs : MemoryForm s) : MemoryForm (hdmStore p k change s) := form_setPort hs

theorem form_cfgStore {r : CfgReg} {v : Nat} (hs : MemoryForm s) : MemoryForm (cfgStore fn r v s) := by
  simp only [cfgStore]
  split
  · exact form_setFunc hs
  · exact form_ite (form_setFunc hs) hs
  · exact form_setFunc hs
  · exact form_setFunc hs
  · exact form_ite (form_setFunc hs) hs
  · exact form_ite hs (form_ite (form_setFunc hs) (form_setFunc (form_dropVfs hs)))
  · exact form_ite (form_hdmStore hs) hs
  · exact form_ite (form_hdmStore hs) hs
  · exact form_ite (form_hdmStore hs) hs
  · exact form_ite (form_hdmStore hs) hs

theorem form_registerWrite {req : Requester} {space : RegSpace} {value : BitVec 32} (hs : MemoryForm s) :
    MemoryForm (registerWrite req space off value s) := by
  unfold registerWrite
  split
  · exact form_csrReach hs (fun _ ht => form_csrWriteBytes ht)
  · exact form_ite (form_bar0Store hs) hs
  · exact form_ite (form_cfgStore hs) hs
  · exact hs

end Sys2Proof.Machine
end

section
/-! The form of memory under Machine/Mgmt.lean: the management bus and the JTAG port (R452-R462). -/

namespace Sys2Proof.Machine

open Sys2Proof

variable {s : State} {body : State → State}

theorem form_busReq (hs : MemoryForm s) (hk : ∀ t, MemoryForm t → MemoryForm (body t)) : MemoryForm (busReq s body) :=
  form_ite (hk _ hs) hs

theorem form_busOut {bs : List Byte} (hs : MemoryForm s) : MemoryForm (busOut bs s) := form_emit hs

theorem form_inI3c (hs : MemoryForm s) (hk : ∀ t, MemoryForm t → MemoryForm (body t)) : MemoryForm (inI3c s body) :=
  form_busReq hs (fun _ ht => form_ite (hk _ ht) (form_emit ht))

theorem form_assign {addr : Nat} {answer : List Byte} (hs : MemoryForm s) : MemoryForm (assign addr answer s) :=
  form_busReq hs (fun _ ht => form_ite (form_emit ht) (form_busOut (form_mk ht)))

theorem form_loadIr {k : Nat} (hs : MemoryForm s) : MemoryForm (loadIr k s) := by
  simp only [loadIr]
  split
  · exact hs
  · split
    · exact form_emit (form_mk hs)
    · exact form_emit (form_mk hs)
    · exact form_emit (form_mk hs)
    · exact form_mk hs
    · exact form_emit (form_mk hs)

end Sys2Proof.Machine
end

section
/-! The form of memory under Machine/TileCmds.lean: tile passes, bank exits and the vector unit (R88-R93, R192). -/

namespace Sys2Proof.Machine

open Sys2Proof

variable {s : State} {bank : Bool} {items : List Item} {b cause n : Nat} {ref : TileRef} {r : TileRun}

theorem form_drainPort (hs : MemoryForm s) : MemoryForm (drainPort r items s) :=
  form_foldl (fun _ _ ht => form_countMx (form_mk ht)) hs

theorem form_exitGroup (hs : MemoryForm s) : MemoryForm (exitGroup r items s) :=
  form_ite (form_drainPort hs) (form_ite (form_mk (form_storeGroup hs)) (form_storeGroup hs))

theorem form_streamOn (hs : MemoryForm s) : MemoryForm (streamOn r n s) :=
  form_foldl (fun _ _ ht => form_exitGroup ht) (form_countMx hs)

theorem form_passOn (hs : MemoryForm s) : MemoryForm (passOn r s) := by
  simp only [passOn]
  split
  · exact form_streamOn (form_putRun (form_fetchList (form_moveLoads (form_fetchList hs))))
  · exact form_accumulate (form_moveLoads (form_fetchList hs))

theorem form_passCut {gen : Nat} (hs : MemoryForm s) : MemoryForm (passCut r gen n cause s) :=
  form_faultNode (form_ite (form_streamOn (form_moveLoads (form_fetchList hs))) (form_moveLoads (form_fetchList hs)))

theorem form_tilePass (hs : MemoryForm s) : MemoryForm (tilePass ref s) := by
  unfold tilePass
  split
  · exact hs
  · split
    · exact hs
    · split
      · exact form_passCut hs
      · exact form_passCut hs
      · exact form_passOn hs

theorem form_stationaryFill (hs : MemoryForm s) : MemoryForm (stationaryFill ref s) := by
  unfold stationaryFill
  split
  · exact hs
  · split
    · exact hs
    · split
      · exact form_fillRegister hs
      · exact hs

theorem form_exitOn (hs : MemoryForm s) : MemoryForm (exitOn r bank b s) := by
  simp only [exitOn]
  split
  · exact form_rowsExit hs
  · exact form_foldl (fun _ _ ht => form_exitGroup ht) (form_putRun (form_fetchList hs))

theorem form_exitCut (hs : MemoryForm s) : MemoryForm (exitCut r bank b n cause s) :=
  form_faultNode (form_foldl (fun _ _ ht => form_exitGroup ht) (form_fetchList hs))

theorem form_bankExit (hs : MemoryForm s) : MemoryForm (bankExit ref s) := by
  unfold bankExit
  split
  · exact hs
  · split
    · exact hs
    · split
      · exact form_exitCut hs
      · exact form_exitOn hs

theorem form_vectorStep {cluster : Nat} {v : VectorDesc} (hs : MemoryForm s) : MemoryForm (vectorStep cluster v s) := by
  simp only [vectorStep]
  split
  · exact hs
  · refine form_ite hs ?_
    split
    · refine form_notePoison ?_
      split
      · exact form_mk (form_countMx (form_storeAll (form_touch hs)))
      · exact form_countMx (form_storeAll (form_touch hs))
    · split
      · exact form_mk (form_countMx (form_storeAll (form_touch hs)))
      · exact form_countMx (form_storeAll (form_touch hs))

end Sys2Proof.Machine
end

section
/-! The form of memory under Machine/NodeCmds.lean: starts and ends of nodes, COPY, SYNC and HOST_EVENT (R190, R239, R240, R297-R303). -/

namespace Sys2Proof.Machine

open Sys2Proof

variable {s : State} {final : Bool} {l : List Cell} {gs : List Nat} {ref : NodeRef}

theorem form_drainNode (hs : MemoryForm s) : MemoryForm (drainNode ref s) :=
  form_foldl (fun _ _ ht => form_bankExit ht) (form_foldl (fun _ _ ht => form_bankExit ht) hs)

theorem form_stopNode (hs : MemoryForm s) : MemoryForm (stopNode ref s) :=
  form_ite (form_ite (form_checkEnd (form_finishNode (form_drainNode hs))) (form_drainNode hs)) hs

theorem form_dmaRead {g : Nat} (hs : MemoryForm s) : MemoryForm (dmaRead ref g s).2 := by
  simp only [dmaRead]
  split
  · exact hs
  · split
    · exact form_emit (form_freeBytes hs)
    · exact form_fetchGranule hs

theorem form_dmaReadAll (hs : MemoryForm s) : MemoryForm (dmaReadAll ref gs s).2 :=
  form_foldl_snd (fun _ _ ht => form_dmaRead ht) hs

theorem form_sendCells (hs : MemoryForm s) : MemoryForm (sendCells ref final l s) := by
  simp only [sendCells]
  split
  · exact hs
  · split
    · exact form_foldl (fun _ _ ht => form_sendPeerOf ht) (form_ite (form_notePoison hs) hs)
    · exact form_landCellsAt (form_ite (form_notePoison hs) hs)

theorem form_sendUnit {unit : List Nat} (hs : MemoryForm s) : MemoryForm (sendUnit ref final gs unit l s) :=
  form_modNode (form_foldl (fun _ _ ht => form_sendCells ht) hs)

theorem form_copyUnit {coords : List Coord} {src dst : Coord → List Nat} {cells : Fetched → Coord → List Cell} (hs : MemoryForm s) :
    MemoryForm (copyUnit ref final coords src dst cells s) :=
  form_sendUnit (form_dmaReadAll hs)

theorem form_copyTensor (hs : MemoryForm s) : MemoryForm (copyTensor ref s) := by
  simp only [copyTensor]
  split
  · exact hs
  · split
    · exact form_faultNode hs
    · split
      · exact form_faultNode hs
      · exact form_faultNode hs
      · exact form_copyUnit hs

theorem form_kvGather (hs : MemoryForm s) : MemoryForm (kvGather ref s) := by
  simp only [kvGather]
  split
  · exact hs
  · split
    · exact form_faultNode hs
    · exact form_modNode (form_undefineGranules hs)
    · split
      · exact form_faultNode hs
      · split
        · exact form_faultNode hs
        · exact form_faultNode hs
        · exact form_copyUnit hs

theorem form_finalWrite (hs : MemoryForm s) : MemoryForm (finalWrite ref s) := by
  unfold finalWrite
  split
  · exact hs
  · split
    · exact hs
    · split
      · split
        · exact hs
        · split
          · exact form_faultNode hs
          · exact form_sendCells (form_modNode hs)
      · exact hs

theorem form_readAhead (hs : MemoryForm s) : MemoryForm (readAhead ref s) := by
  simp only [readAhead]
  split
  · exact hs
  · split
    · exact hs
    · exact form_ite hs (form_modPod (form_fetchGranule hs))

theorem form_endAtOnce (hs : MemoryForm s) : MemoryForm (endAtOnce ref s) := form_checkEnd (form_finishNode hs)

theorem form_syncAcquire (hs : MemoryForm s) : MemoryForm (syncAcquire ref s) := by
  simp only [syncAcquire]
  split
  · exact hs
  · exact form_ite (form_faultNode hs) (form_endAtOnce (form_setPod hs))

theorem form_syncRelease (hs : MemoryForm s) : MemoryForm (syncRelease ref s) := by
  simp only [syncRelease]
  split
  · exact hs
  · exact form_endAtOnce (form_modPod hs)

theorem form_waitLandEnd (hs : MemoryForm s) : MemoryForm (waitLandEnd ref s) := by
  unfold waitLandEnd
  split
  · exact form_ite (form_endAtOnce hs) hs
  · exact hs

theorem form_hostEvent (hs : MemoryForm s) : MemoryForm (hostEvent ref s) := by
  unfold hostEvent
  split
  · exact hs
  · exact form_endAtOnce (form_postPod hs)

end Sys2Proof.Machine
end

section
/-! The form of memory under Machine/Partners.lean: partners, and the transfer of ownership (R344, R345, R350-R354). -/

namespace Sys2Proof.Machine

open Sys2Proof

variable {s : State} {ok : Bool} {tok : CmdTok} {completer id : Nat} {node : Option NodeRef} {sub : Submission}

theorem form_partnerAdd (hs : MemoryForm s) : MemoryForm (partnerAdd sub tok s) :=
  form_guarded hs (fun _ ht => form_ite (form_only ht) (form_postFirst (form_emit (form_setPartner ht))))

theorem form_partnerFinal {p : Partner} {st : Status} (hs : MemoryForm s) : MemoryForm (partnerFinal p st s) := by
  unfold partnerFinal
  split
  · exact form_postFinal hs
  · exact hs

theorem form_probeComplete (hs : MemoryForm s) : MemoryForm (probeComplete id ok completer s) := by
  simp only [probeComplete]
  split
  · exact hs
  · split
    · exact form_partnerFinal (form_postDevice (form_setPartner hs))
    · exact form_partnerFinal (form_setPartner hs)

theorem form_failRequest (hs : MemoryForm s) : MemoryForm (failRequest id node s) := by
  unfold failRequest
  split
  · exact form_ite (form_faultNode (form_failWrite hs)) hs
  · split
    · exact form_stopStreamWork hs
    · exact hs

theorem form_completionTimeout (hs : MemoryForm s) : MemoryForm (completionTimeout id node s) := by
  simp only [completionTimeout]
  split
  · exact form_emit (form_setPartner (form_failRequest (form_noteAer hs)))
  · exact form_ite (form_failRequest (form_noteAer hs)) hs

theorem form_confirmResult (hs : MemoryForm s) : MemoryForm (confirmResult id ok s) :=
  form_ite hs (form_ite (form_setPartner hs) (form_losePartner hs))

theorem form_dropWindows (hs : MemoryForm s) : MemoryForm (dropWindows id s) :=
  form_foldl (fun _ _ ht => form_setWindow (form_mk ht)) hs

theorem form_containment (hs : MemoryForm s) : MemoryForm (containment id completer s) := by
  simp only [containment]
  split
  · exact hs
  · split
    · exact form_losePartner hs
    · exact form_losePartner hs
    · exact form_ite (form_partnerFinal (form_setPartner (form_dropWindows (form_losePartner hs)))) hs
    · exact hs

theorem form_removeLost (hs : MemoryForm s) : MemoryForm (removeLost id tok s) :=
  form_postFinal (form_setPartner (form_dropWindows (form_postFirst hs)))

theorem form_partnerRemove (hs : MemoryForm s) : MemoryForm (partnerRemove sub tok s) := by
  simp only [partnerRemove]
  refine form_guarded hs (fun _ ht => ?_)
  split
  · exact form_only ht
  · split
    · exact form_removeLost ht
    · exact form_postFirst (form_setPartner ht)
    · exact form_removeLost (form_losePartner ht)
    · exact form_removeLost (form_losePartner ht)
    · exact form_only ht

theorem form_partnerDrained (hs : MemoryForm s) : MemoryForm (partnerDrained id s) :=
  form_ite (form_partnerFinal (form_setPartner (form_dropWindows hs))) hs

theorem form_ownerOffer (hs : MemoryForm s) : MemoryForm (ownerOffer sub tok s) :=
  form_guarded hs (fun _ ht => form_ite (form_only ht) (form_only (form_mk ht)))

theorem form_ownerAccept (hs : MemoryForm s) : MemoryForm (ownerAccept sub tok s) :=
  form_guarded hs (fun _ ht => form_ite (form_only (form_mk ht)) (form_only ht))

theorem form_ownerClaim {token : BitVec 4096} (hs : MemoryForm s) : MemoryForm (ownerClaim sub token tok s) :=
  form_guarded hs (fun _ ht => form_ite (form_only (form_mk ht)) (form_only ht))

theorem form_execOfferLapse (hs : MemoryForm s) : ∀ q, execOfferLapse s = .next q → MemoryForm q := by
  unfold execOfferLapse
  refine next_form ?_
  split
  · exact form_ite (form_mk hs) hs
  · exact hs

end Sys2Proof.Machine
end

section
/-! The form of memory under Machine/Pods.lean: pods, their cores and bindings (R189, R262-R265, R342, R343). -/

namespace Sys2Proof.Machine

open Sys2Proof

variable {s : State} {tok : CmdTok} {c p : Nat} {sub : Submission}

theorem form_drawKey (hs : MemoryForm s) : MemoryForm (drawKey s).2 := form_mk hs

theorem form_podCreate (hs : MemoryForm s) : MemoryForm (podCreate sub tok s) := by
  simp only [podCreate]
  refine form_guarded hs (fun _ ht => ?_)
  split
  · exact form_only ht
  · exact form_ite (form_only ht) (form_ite (form_only ht) (form_only (form_setPod (form_drawKey ht))))

theorem form_cutNodes {n : Nat} (hs : MemoryForm s) : MemoryForm (cutNodes p n s) :=
  form_ite hs (form_foldl (fun _ _ ht => form_rcDown ht) (form_setPod hs))

theorem form_podAmend (hs : MemoryForm s) : MemoryForm (podAmend sub tok s) := by
  simp only [podAmend]
  refine form_guarded hs (fun _ ht => ?_)
  split
  · exact form_only ht
  · exact form_ite (form_only ht) (form_ite (form_only ht) (form_only (form_modPod (form_cutNodes ht))))

theorem form_walkModeApply (hs : MemoryForm s) : MemoryForm (walkModeApply p s) := by
  simp only [walkModeApply]
  split
  · exact form_ite (form_setPod hs) hs
  · exact hs

theorem form_podSetQuota (hs : MemoryForm s) : MemoryForm (podSetQuota sub tok s) :=
  form_guarded hs (fun _ ht => form_only (form_modPod ht))

theorem form_podMoveCores (hs : MemoryForm s) : MemoryForm (podMoveCores sub tok s) := by
  simp only [podMoveCores]
  refine form_guarded hs (fun _ ht => ?_)
  split
  · exact form_only ht
  · exact form_ite (form_only ht) (form_ite (form_postFinal (form_postFirst ht)) (form_postFirst (form_mk (form_setPod ht))))

theorem form_forgetCore (hs : MemoryForm s) : MemoryForm (forgetCore c s) :=
  form_ite (form_forget hs) (form_forget (form_forget hs))

theorem form_coreMoved (hs : MemoryForm s) : MemoryForm (coreMoved p c s) :=
  form_foldl (fun _ _ ht => form_postFinal ht) (form_mk hs)

theorem form_moveCore {dest : Option Nat} (hs : MemoryForm s) : MemoryForm (moveCore p c dest s) := by
  simp only [moveCore]
  refine form_coreMoved (form_forgetCore ?_)
  split
  · exact form_ite (form_setPod (form_setPod hs)) (form_setPod hs)
  · exact form_setPod hs

theorem form_execCoreMove {core : Nat} (hs : MemoryForm s) : ∀ q, execCoreMove core s = .next q → MemoryForm q := by
  unfold execCoreMove
  refine next_form ?_
  split
  · exact form_ite hs (form_moveCore hs)
  · exact hs

theorem form_podBind (hs : MemoryForm s) : MemoryForm (podBind sub tok s) :=
  form_guarded hs (fun _ ht => form_ite (form_only ht) (form_only (form_setPod ht)))

theorem form_podUnbind (hs : MemoryForm s) : MemoryForm (podUnbind sub tok s) :=
  form_guarded hs (fun _ ht => form_ite (form_only ht) (form_only (form_stopFn (form_setPod ht))))

theorem form_podDestroy (hs : MemoryForm s) : MemoryForm (podDestroy sub tok s) := by
  simp only [podDestroy]
  refine form_guarded hs (fun _ ht => ?_)
  split
  · exact form_only ht
  · exact form_foldl (fun _ _ hu => form_cancelInst hu) (form_postFirst (form_setPod (form_mk ht)))

theorem form_endPodCmds (hs : MemoryForm s) : MemoryForm (endPodCmds p s) :=
  form_foldl (fun _ _ ht => form_postFinal ht) (form_mk hs)

theorem form_resetStreams (hs : MemoryForm s) : MemoryForm (resetStreams p s) := form_mk hs

theorem form_podFreed (hs : MemoryForm s) : MemoryForm (podFreed p s) := by
  simp only [podFreed]
  split
  · exact hs
  · refine form_setPod ?_
    split
    · refine form_stopFn ?_
      split
      · exact form_postFinal (form_mk (form_resetStreams (form_pwuBoundary (form_endPodCmds (form_foldl
          (fun _ _ ht => form_moveCore ht) hs)))))
      · exact form_mk (form_resetStreams (form_pwuBoundary (form_endPodCmds (form_foldl (fun _ _ ht => form_moveCore ht) hs))))
    · split
      · exact form_postFinal (form_mk (form_resetStreams (form_pwuBoundary (form_endPodCmds (form_foldl
          (fun _ _ ht => form_moveCore ht) hs)))))
      · exact form_mk (form_resetStreams (form_pwuBoundary (form_endPodCmds (form_foldl (fun _ _ ht => form_moveCore ht) hs))))

end Sys2Proof.Machine
end

section
/-! The form of memory under Machine/Regions.lean: regions, mirrors, fills and WINDOW_MAP (R266-R272, R278-R287). -/

namespace Sys2Proof.Machine

open Sys2Proof

variable {s : State} {tok : CmdTok} {sub : Submission}

theorem form_takeId (hs : MemoryForm s) : ∀ q ∈ takeId s, MemoryForm q.2 := by
  unfold takeId
  split
  · exact none_form
  · exact some_form (form_mk hs)

theorem form_regionMap (hs : MemoryForm s) : MemoryForm (regionMap sub tok s) := by
  simp only [regionMap]
  refine form_guarded hs (fun _ ht => ?_)
  split
  · exact form_only ht
  · exact form_only ht
  · rename_i he
    split
    · exact form_postFirst (form_mk (form_setRegion (form_takeId ht _ he)))
    · exact form_only (form_setRegion (form_takeId ht _ he))

theorem form_mirrorDeclare (hs : MemoryForm s) : MemoryForm (mirrorDeclare sub tok s) := by
  simp only [mirrorDeclare]
  refine form_guarded hs (fun _ ht => ?_)
  split
  · exact form_only ht
  · split
    · exact form_only ht
    · split
      · exact form_only ht
      · split
        · exact form_only ht
        · rename_i he
          exact form_only (form_setMirror (form_takeId ht _ he))

theorem form_regionUnmap (hs : MemoryForm s) : MemoryForm (regionUnmap sub tok s) := by
  simp only [regionUnmap]
  refine form_guarded hs (fun _ ht => ?_)
  split
  · exact form_ite (form_only ht) (form_postFirst (form_mk (form_setRegion ht)))
  · exact form_ite (form_only ht) (form_postFinal (form_postFirst (form_setMirror ht)))
  · exact form_only ht

theorem form_memFill (hs : MemoryForm s) : MemoryForm (memFill sub tok s) :=
  form_guarded hs (fun _ ht => form_ite (form_only ht) (form_postFirst (form_mk ht)))

theorem form_fillRange {pattern : BitVec 64} {q : Nat × Nat} (hs : MemoryForm s) : MemoryForm (fillRange pattern q s) :=
  form_foldl (fun _ _ ht => form_landGranule _ _ _ ht) hs

theorem form_fillComplete {index : Nat} (hs : MemoryForm s) : MemoryForm (fillComplete index s) := by
  simp only [fillComplete]
  split
  · exact hs
  · split
    · split
      · exact form_postFinal (form_setRegion (form_foldl (fun _ _ ht => form_fillRange ht) (form_mk hs)))
      · split
        · refine form_postFinal ?_
          split
          · exact form_setRegion (form_foldl (fun _ _ ht => form_fillRange ht) (form_mk hs))
          · exact form_foldl (fun _ _ ht => form_fillRange ht) (form_mk hs)
        · split
          · split <;> exact form_postFinal (form_setRegion (form_foldl (fun _ _ ht => form_fillRange ht) (form_mk hs)))
          · exact form_postFinal (form_foldl (fun _ _ ht => form_fillRange ht) (form_mk hs))
    · exact hs

theorem form_windowMap (hs : MemoryForm s) : MemoryForm (windowMap sub tok s) := by
  simp only [windowMap]
  refine form_guarded hs (fun _ ht => ?_)
  split
  · exact form_only ht
  · exact form_ite (form_only ht) (form_ite (form_only (form_setWindow ht)) (form_only (form_setWindow ht)))

end Sys2Proof.Machine
end

section
/-! The form of memory under Machine/Spdm.lean: SPDM requests (R445). -/

namespace Sys2Proof.Machine

open Sys2Proof

variable {s : State} {id : Nat} {body : State → State}

theorem form_spdmOut {code : Nat} {body : List Byte} (hs : MemoryForm s) : MemoryForm (spdmOut code body s) := form_emit hs

theorem form_spdmError {e : Nat} (hs : MemoryForm s) : MemoryForm (spdmError e s) := form_spdmOut hs

theorem form_spdmReq {open_ : Bool} {need : Nat} (hs : MemoryForm s)
    (hk : ∀ t, MemoryForm t → MemoryForm (body t)) : MemoryForm (spdmReq open_ need s body) :=
  form_ite hs (form_ite (form_spdmError hs) (form_ite (form_spdmError hs) (hk _ hs)))

theorem form_inSession {st : Nat} (hs : MemoryForm s)
    (hk : ∀ t, MemoryForm t → MemoryForm (body t)) : MemoryForm (inSession id st s body) :=
  form_spdmReq hs (fun _ ht => form_ite (hk _ ht) (form_spdmError ht))

theorem form_modSession {f : Session → Session} (hs : MemoryForm s) : MemoryForm (modSession id f s) := form_mk hs

end Sys2Proof.Machine
end

section
/-! The form of memory under Machine/Steps.lean: batch steps and boundaries (R208-R221). -/

namespace Sys2Proof.Machine

open Sys2Proof

variable {s : State} {bud : Budget} {tok : CmdTok} {done earlier : List Nat} {b i k num p t : Nat} {c : PendingCmd} {q : Quota} {r
    : StepRow} {sub : Submission}

theorem form_decideStep {g : Graph} {st : StepInfo} (hs : MemoryForm s) : MemoryForm (decideStep sub tok p g st s) := by
  simp only [decideStep]
  split
  · exact form_only hs
  · split
    · exact form_only hs
    · exact form_ite (form_admitInst hs) (form_only hs)

theorem form_batchStep (hs : MemoryForm s) : MemoryForm (batchStep sub tok s) := by
  simp only [batchStep]
  refine form_guarded hs (fun _ ht => ?_)
  split
  · exact ht
  · split
    · exact form_only ht
    · split
      · exact form_only (form_fetchBytes ht)
      · exact form_ite (form_only (form_fetchBytes ht)) (form_decideStep (form_fetchBytes ht))

theorem form_takeStream (hs : MemoryForm s) : MemoryForm (takeStream q i s).2.2 := by
  simp only [takeStream]
  split
  · exact hs
  · split
    · exact form_freeStream hs
    · exact form_ite (form_dropEntries hs) hs

theorem form_leaveStream {gen : Nat} (hs : MemoryForm s) : MemoryForm (leaveStream p i gen q s).2.2 := by
  simp only [leaveStream]
  split
  · exact hs
  · split
    · exact hs
    · split
      · exact form_stopStream hs
      · split
        · exact form_closeStream hs
        · split
          · rename_i he
            exact form_of_eq_snd2 (form_takeStream hs) he
          · rename_i he
            exact form_modPod (form_of_eq_snd2 (form_takeStream hs) he)

theorem form_setRow (hs : MemoryForm s) : MemoryForm (setRow p num k r s) := form_modStep hs

theorem form_leaveRows {i : Inst} (hs : MemoryForm s) : MemoryForm (leaveRows i q s).2 := by
  simp only [leaveRows]
  split
  · exact hs
  · refine form_foldl_snd (fun _ _ ht => ?_) hs
    split
    · exact form_setRow (form_leaveStream ht)
    · exact ht

theorem form_stage1 {steps : List Inst} (hs : MemoryForm s) : MemoryForm (stage1 p steps s) :=
  form_foldl_snd (fun _ _ ht => form_takeStream ht) (form_foldl_snd (fun _ _ ht => form_leaveRows ht) (form_foldl_snd
    (fun _ _ ht => form_leaveStream ht) (form_modPod hs)))

theorem form_freeChaff (hs : MemoryForm s) : MemoryForm (freeChaff p s) :=
  form_modPod (form_foldl (fun _ _ ht => form_modPool ht) hs)

theorem form_keepSlot {a : Nat} (hs : MemoryForm s) : MemoryForm (keepSlot p a s) := form_mk hs

theorem form_applyAdapters (hs : MemoryForm s) : MemoryForm (applyAdapters p s) := by
  simp only [applyAdapters]
  refine form_modPod (form_foldl (fun _ _ ht => ?_) hs)
  split
  · exact form_ite (form_landBytes (form_keepSlot ht)) ht
  · exact ht

theorem form_rotateKey (hs : MemoryForm s) : MemoryForm (rotateKey p s) := form_ite hs (form_modPod (form_drawKey hs))

theorem form_stage2 (hs : MemoryForm s) : MemoryForm (stage2 p s) := form_rotateKey (form_applyAdapters (form_freeChaff hs))

theorem form_continueRow (hs : MemoryForm s) : ∀ q, continueRow p b earlier r bud s = .ok q → MemoryForm q.2.2 := by
  unfold continueRow
  extract_lets e first
  clear_value first
  split
  · exact ok_form hs
  · split
    · exact error_form
    · split
      · exact error_form
      · split
        · rename_i he
          exact ok_form (form_of_eq_snd2 (form_windowPages hs) he)
        · exact error_form

theorem form_continueSet (hs : MemoryForm s) : MemoryForm (continueSet p num k r s) :=
  form_ite (form_modStep (form_setRow hs)) (form_setRow hs)

theorem form_continueRows {rows : List (StepRow × Nat)} (hs : MemoryForm s) :
    ∀ q, continueRows p b num earlier rows bud s = .ok q → MemoryForm q.2 := by
  induction rows generalizing bud s with
  | nil => exact ok_form hs
  | cons x rest ih =>
    simp only [continueRows]
    split
    · exact ih hs
    · split
      · exact error_form
      · rename_i he
        exact ih (form_continueSet (form_continueRow hs _ he))

theorem form_refuseStep {st : Status} (hs : MemoryForm s) : MemoryForm (refuseStep p num st s) := by
  unfold refuseStep
  split
  · exact form_endStep (form_cancelNodes hs)
  · exact hs

theorem form_holdJoins (hs : MemoryForm s) : MemoryForm (holdJoins p num s) := form_modStep hs

theorem form_growStep {i : Inst} {acc : Acc3 × State} (hs : MemoryForm acc.2) : MemoryForm (growStep p b i acc).2 := by
  simp only [growStep]
  split
  · exact hs
  · split
    · exact form_refuseStep hs
    · rename_i he
      split
      · exact form_continueRows (form_holdJoins hs) _ he
      · exact form_refuseStep hs

theorem form_joinRow (hs : MemoryForm s) : MemoryForm (joinRow p num done k r bud s).2 := by
  simp only [joinRow]
  split
  · exact form_setRow hs
  · split
    · exact form_setRow hs
    · split
      · rename_i he
        split
        · exact form_setRow (form_modStream (form_of_eq_snd2 (form_windowPages hs) he))
        · exact form_setRow hs
      · exact form_setRow hs

theorem form_joinRows (hs : MemoryForm s) : MemoryForm (joinRows p done num bud s) := by
  unfold joinRows
  split
  · exact hs
  · refine form_foldl_snd (fun _ _ ht => ?_) hs
    split
    · exact form_joinRow ht
    · exact ht

theorem form_allocParked {pool : Nat} {l : List Pte} (hs : MemoryForm s) : ∀ q ∈ allocParked p pool l s, MemoryForm q.2 := by
  induction l generalizing s with
  | nil => exact some_form hs
  | cons t rest ih =>
    simp only [allocParked]
    split
    · exact none_form
    · rename_i he
      intro r hr
      obtain ⟨q, hq, rfl⟩ := Option.map_eq_some_iff.mp hr
      exact ih (form_allocSet hs _ he) q hq

theorem form_unparkAlloc (hs : MemoryForm s) : MemoryForm (unparkAlloc c i s) := by
  simp only [unparkAlloc]
  split
  · rename_i he
    exact form_mk (form_allocParked hs _ he)
  · exact form_postFinal (form_modStream (form_mk hs))

theorem form_inboundAlloc (hs : MemoryForm s) : MemoryForm (inboundAlloc c i s) := by
  simp only [inboundAlloc]
  split
  · rename_i he
    exact form_postFinal (form_modStream (form_of_eq_snd2 (form_growTo (form_mk hs)) he))
  · exact form_postFinal (form_freeStream (form_mk hs))

theorem form_pendingAllocs (hs : MemoryForm s) : MemoryForm (pendingAllocs p s) := by
  simp only [pendingAllocs]
  refine form_foldl (fun _ _ ht => ?_) (form_foldl (fun _ _ ht => ?_) hs)
  · split
    · exact form_ite (form_inboundAlloc ht) ht
    · exact ht
  · split
    · exact form_ite (form_unparkAlloc ht) ht
    · exact ht

theorem form_releaseStep (hs : MemoryForm s) : MemoryForm (releaseStep p num t s) := by
  simp only [releaseStep]
  split
  · exact hs
  · exact form_foldl (fun _ _ ht => form_setBusy (form_modStream ht)) (form_foldl (fun _ _ ht => form_writeRow ht) (form_mk
      (form_modInst hs)))

theorem form_countBoundary (hs : MemoryForm s) : MemoryForm (countBoundary p t s) := form_modPod hs

theorem form_applySync (hs : MemoryForm s) : MemoryForm (applySync p t s) := form_modPod hs

theorem form_runBoundary (hs : MemoryForm s) : MemoryForm (runBoundary p t s) := by
  dsimp only [runBoundary]
  refine form_applySync (form_foldl (fun _ _ ht => form_releaseStep ht) ?_)
  refine form_foldl (fun _ _ ht => form_joinRows ht) (form_pendingAllocs ?_)
  exact form_foldl_snd (fun _ _ ht => form_growStep ht) (form_stage2 (form_stage1 (form_countBoundary (form_pwuBoundary hs))))

theorem form_podBoundary (hs : MemoryForm s) : MemoryForm (podBoundary p s) := by
  unfold podBoundary
  split
  · exact hs
  · split
    · exact form_runBoundary hs
    · exact hs

theorem form_stepRelease (hs : MemoryForm s) : MemoryForm (stepRelease p num s) := by
  unfold stepRelease
  split
  · exact form_ite (form_modStep hs) hs
  · exact hs

theorem form_stepEnd (hs : MemoryForm s) : MemoryForm (stepEnd p num s) := by
  unfold stepEnd
  split
  · exact form_ite (form_endStep hs) hs
  · exact hs

end Sys2Proof.Machine
end

section
/-! The form of memory under Machine/TimeSync.lean: device time and the step reference (R390-R408). -/

namespace Sys2Proof.Machine

open Sys2Proof

variable {s : State} {tok : CmdTok} {t : Nat} {sub : Submission}

theorem form_shiftTimes {old new : Nat} (hs : MemoryForm s) : MemoryForm (shiftTimes old new s) := form_mk hs

theorem form_setTime (hs : MemoryForm s) : MemoryForm (setTime t s) := form_mk (form_shiftTimes hs)

theorem form_timeSet (hs : MemoryForm s) : MemoryForm (timeSet sub tok s) :=
  form_guarded hs (fun _ ht => form_only (form_setTime ht))

theorem form_timeGet (hs : MemoryForm s) : MemoryForm (timeGet sub tok s) := form_guarded hs (fun _ ht => form_only ht)

theorem form_chooseRef (hs : MemoryForm s) : MemoryForm (chooseRef s) := form_ite hs (form_postDevice (form_mk hs))

theorem form_windowClose (hs : MemoryForm s) : MemoryForm (windowClose s) := form_ite hs (form_mk (form_chooseRef (form_mk hs)))

theorem form_applyDevice (hs : MemoryForm s) : MemoryForm (applyDevice s) := by
  simp only [applyDevice]
  split
  · exact hs
  · exact form_chooseRef (form_mk hs)

theorem form_frameEdge (hs : MemoryForm s) : MemoryForm (frameEdge s) := form_ite hs (form_mk (form_applyDevice (form_mk hs)))

theorem form_jumpTo {k e : Nat} (hs : MemoryForm s) : MemoryForm (jumpTo k e s) := form_ite (form_mk hs) hs

theorem form_syncEdge {level : Bool} (hs : MemoryForm s) : MemoryForm (syncEdge level s) :=
  form_ite hs (form_ite (form_mk hs) (form_ite (form_jumpTo (form_mk hs)) (form_mk hs)))

theorem form_syncStuck (hs : MemoryForm s) : MemoryForm (syncStuck s) :=
  form_ite (form_chooseRef (form_postDevice (form_mk hs))) hs

theorem form_syncUnstuck (hs : MemoryForm s) : MemoryForm (syncUnstuck s) := form_ite (form_mk hs) hs

theorem form_syncDevice (hs : MemoryForm s) : MemoryForm (syncDevice sub tok s) :=
  form_guarded hs (fun _ ht => form_ite (form_only ht) (form_only (form_mk ht)))

theorem form_syncPod (hs : MemoryForm s) : MemoryForm (syncPod sub tok s) :=
  form_guarded hs (fun _ ht => form_ite (form_only ht) (form_only (form_modPod ht)))

theorem form_hostStamp (hs : MemoryForm s) : MemoryForm (hostStamp t s) := form_ite hs (form_jumpTo (form_mk hs))

theorem form_syncStamp (hs : MemoryForm s) : MemoryForm (syncStamp sub tok s) :=
  form_guarded hs (fun _ ht => form_ite (form_only ht) (form_only (form_hostStamp ht)))

end Sys2Proof.Machine
end

section
/-! The form of memory under Machine/Update.lean: firmware update (R336). -/

namespace Sys2Proof.Machine

open Sys2Proof

variable {s : State} {st : Pldm} {body : State → State}

theorem form_pldmOut {code : Nat} {body : List Byte} (hs : MemoryForm s) : MemoryForm (pldmOut code body s) := form_emit hs

theorem form_pldmReq (hs : MemoryForm s) (hk : ∀ t, MemoryForm t → MemoryForm (body t)) : MemoryForm (pldmReq s body) :=
  form_ite (hk _ hs) hs

theorem form_pldmIn (hs : MemoryForm s) (hk : ∀ t, MemoryForm t → MemoryForm (body t)) : MemoryForm (pldmIn st s body) :=
  form_pldmReq hs (fun _ ht => form_ite (hk _ ht) (form_ite (form_pldmOut ht) (form_pldmOut ht)))

theorem form_toPldm (hs : MemoryForm s) : MemoryForm (toPldm st s) := form_mk hs

theorem form_setBank {b : Nat} {v : Bank} (hs : MemoryForm s) : MemoryForm (setBank b v s) := form_ite (form_mk hs) (form_mk hs)

end Sys2Proof.Machine
end

section
/-! The form of memory under Machine/Time.lean: the idle cycle (R394). -/

namespace Sys2Proof.Machine

open Sys2Proof

variable {s : State}

theorem form_idleCycle (hs : MemoryForm s) : MemoryForm (idleCycle s) := form_ite (form_mk hs) hs

end Sys2Proof.Machine
end

section
/-! Every command keeps the form of memory, and so does every step (O4). -/

namespace Sys2Proof.Machine

open Sys2Proof

variable {s : State}

/-- Every command keeps the form of memory: one case for each row of the table. -/
theorem form_exec (hs : MemoryForm s) (c : Instr) : ∀ r, exec c s = .next r → MemoryForm r := by
  cases c with
  | identify => exact next_form (form_runCmd hs (fun _ _ ht => form_report ht))
  | summary => exact next_form (form_runCmd hs (fun _ _ ht => form_report ht))
  | timeSet => exact next_form (form_runCmd hs (fun _ _ ht => form_timeSet ht))
  | timeGet => exact next_form (form_runCmd hs (fun _ _ ht => form_timeGet ht))
  | podCreate => exact next_form (form_runCmd hs (fun _ _ ht => form_podCreate ht))
  | podCreateAmend => exact next_form (form_runCmd hs (fun _ _ ht => form_podAmend ht))
  | podDestroy => exact next_form (form_runCmd hs (fun _ _ ht => form_podDestroy ht))
  | podSetQuota => exact next_form (form_runCmd hs (fun _ _ ht => form_podSetQuota ht))
  | podMoveCores => exact next_form (form_runCmd hs (fun _ _ ht => form_podMoveCores ht))
  | podBind => exact next_form (form_runCmd hs (fun _ _ ht => form_podBind ht))
  | podUnbind => exact next_form (form_runCmd hs (fun _ _ ht => form_podUnbind ht))
  | regionMap => exact next_form (form_runCmd hs (fun _ _ ht => form_regionMap ht))
  | mirrorDeclare => exact next_form (form_runCmd hs (fun _ _ ht => form_mirrorDeclare ht))
  | regionUnmap => exact next_form (form_runCmd hs (fun _ _ ht => form_regionUnmap ht))
  | memFill => exact next_form (form_runCmd hs (fun _ _ ht => form_memFill ht))
  | graphLoad => exact next_form (form_runCmd hs (fun _ _ ht => form_graphLoad ht))
  | graphUnload => exact next_form (form_runCmd hs (fun _ _ ht => form_graphUnload ht))
  | graphRun => exact next_form (form_runCmd hs (fun _ _ ht => form_graphRun ht))
  | graphCancel => exact next_form (form_runCmd hs (fun _ _ ht => form_graphCancel ht))
  | journalRead => exact next_form (form_runCmd hs (fun _ _ ht => form_journalRead ht))
  | streamOpen => exact next_form (form_runCmd hs (fun _ _ ht => form_streamOpen ht))
  | streamOpenInbound => exact next_form (form_runCmd hs (fun _ _ ht => form_streamOpenInbound ht))
  | streamCancel => exact next_form (form_runCmd hs (fun _ _ ht => form_streamCancel ht))
  | streamPark => exact next_form (form_runCmd hs (fun _ _ ht => form_streamPark ht))
  | streamUnpark => exact next_form (form_runCmd hs (fun _ _ ht => form_streamUnpark ht))
  | batchStep => exact next_form (form_runCmd hs (fun _ _ ht => form_batchStep ht))
  | streamShip => exact next_form (form_runCmd hs (fun _ _ ht => form_streamShip ht))
  | adapterLoad => exact next_form (form_runCmd hs (fun _ _ ht => form_adapterLoad ht))
  | prefixInsert => exact next_form (form_runCmd hs (fun _ _ ht => form_prefixInsert ht))
  | prefixRemove => exact next_form (form_runCmd hs (fun _ _ ht => form_prefixRemove ht))
  | prefixLookup => exact next_form (form_runCmd hs (fun _ _ ht => form_prefixLookup ht))
  | partnerAdd => exact next_form (form_runCmd hs (fun _ _ ht => form_partnerAdd ht))
  | partnerRemove => exact next_form (form_runCmd hs (fun _ _ ht => form_partnerRemove ht))
  | windowMap => exact next_form (form_runCmd hs (fun _ _ ht => form_windowMap ht))
  | healthRead => exact next_form (form_runCmd hs (fun _ _ ht => form_report ht))
  | marginPlanRead => exact next_form (form_runCmd hs (fun _ _ ht => form_mk (form_report ht)))
  | fenceRequest => exact next_form (form_runCmd hs (fun _ _ ht => form_fenceRequest ht))
  | unfence => exact next_form (form_runCmd hs (fun _ _ ht => form_unfence ht))
  | fuseRepair => exact next_form (form_runCmd hs (fun _ _ ht => form_fuseRepair ht))
  | thermalConfig => exact next_form (form_runCmd hs (fun _ _ ht => form_thermalConfig ht))
  | powerLimit => exact next_form (form_runCmd hs (fun _ _ ht => form_powerLimit ht))
  | powerLimitForce => exact next_form (form_runCmd hs (fun _ _ ht => form_powerLimitForce ht))
  | syncConfigDevice => exact next_form (form_runCmd hs (fun _ _ ht => form_syncDevice ht))
  | syncConfigPod => exact next_form (form_runCmd hs (fun _ _ ht => form_syncPod ht))
  | syncConfigStamp => exact next_form (form_runCmd hs (fun _ _ ht => form_syncStamp ht))
  | takeover => exact next_form (form_runCmd hs (fun _ _ ht => form_takeover ht))
  | ownerOffer => exact next_form (form_runCmd hs (fun _ _ ht => form_ownerOffer ht))
  | ownerAccept => exact next_form (form_runCmd hs (fun _ _ ht => form_ownerAccept ht))
  | ownerClaim => exact next_form (form_runCmd hs (fun _ _ ht => form_ownerClaim ht))
  | debugUnlock => exact form_execDebugUnlock hs
  | lifecycleRead => exact next_form (form_runCmd hs (fun _ _ ht => form_lifecycleRead ht))
  | setOwner => exact next_form (form_runCmd hs (fun _ _ ht => form_setOwner ht))
  | rotateOwner => exact next_form (form_runCmd hs (fun _ _ ht => form_rotateOwner ht))
  | retire => exact next_form (form_runCmd hs (fun _ _ ht => form_retire ht))
  | lifecycleFuseWord => exact next_form (form_lifecycleFuseWord hs)
  | mbxEnable => exact next_form (form_mbxEnable hs)
  | mbxDisable => exact next_form (form_ite (form_stopMbx hs) hs)
  | sqDoorbell => exact next_form (form_sqDoorbell hs)
  | cqHeadWrite => exact next_form (form_cqHeadWrite hs)
  | submissionAck => exact next_form (form_submissionAck hs)
  | eventRingEnable => exact next_form (form_eventRingEnable hs)
  | lostFlagClear => exact next_form (form_ite (form_setFunc hs) hs)
  | evHeadWrite => exact next_form (form_ite (form_setFunc hs) hs)
  | msixMessage => exact next_form (form_msixMessage hs)
  | lcCapWrite => exact next_form (form_ite (form_csrReach hs (fun _ ht => form_lcCapWrite ht)) hs)
  | lcCapApply => exact next_form (form_lcCapApply hs)
  | pwuInvalidate => exact next_form (form_ite (form_csrReach hs (fun _ ht => form_ite (form_pwuInvWrite ht) ht)) hs)
  | kvLandWrite => exact next_form (form_ite (form_csrReach hs (fun _ ht => form_ite (form_kvLand ht) ht)) hs)
  | landChArm => exact next_form (form_ite (form_csrReach hs (fun _ ht => form_ite (form_landLen ht) ht)) hs)
  | landChDisarm => exact next_form (form_ite (form_csrReach hs (fun _ ht => form_ite (form_landLen ht) ht)) hs)
  | apertureWrite => exact next_form (form_ite (form_csrReach hs (fun _ ht => form_ite (form_aperWrite ht) ht)) hs)
  | eccCfgWrite => exact next_form (form_csrReach hs (fun _ ht => form_ite (form_mk ht) ht))
  | registerWrite => exact next_form (form_registerWrite hs)
  | fmtCntRead => exact next_form (form_ite (form_csrRead hs) hs)
  | pwuStatRead => exact next_form (form_ite (form_csrRead hs) hs)
  | dramSlotRead => exact next_form (form_ite (form_csrRead hs) hs)
  | mirrorStatRead => exact next_form (form_ite (form_csrRead hs) hs)
  | portRefuseRead => exact next_form (form_ite (form_csrRead hs) hs)
  | thmDieRead => exact next_form (form_ite (form_csrRead hs) hs)
  | syncRefStatRead => exact next_form (form_csrRead hs)
  | mbxDroppedRead => exact next_form (form_ite hs (form_ite (form_emit (form_setMbx hs)) (form_bar0Abort hs)))
  | eventLostRead => exact next_form (form_ite (form_emit (form_setFunc hs)) (form_bar0Abort hs))
  | kvLandRead => exact next_form (form_ite (form_csrRead hs) hs)
  | flitInject => exact next_form (form_flitInject hs)
  | flitReceive => exact next_form (form_flitReceive hs)
  | linkRetrain => exact next_form (form_linkRetrain hs)
  | retrainDone => exact next_form (form_retrainDone hs)
  | writeLand => exact next_form (form_writeLand hs)
  | dramReadDecode => exact next_form (form_dramRead hs)
  | sramReadDecode => exact next_form (form_sramRead hs)
  | leakTick => exact next_form (form_leakTick hs)
  | rebuildComplete => exact next_form (form_ite (form_rebuildDone hs) hs)
  | patrolScrub => exact next_form (form_patrolScrub hs)
  | refreshRateChange => exact next_form (form_refreshChange hs)
  | dmaReadAhead => exact next_form (form_readAhead hs)
  | hostBar2Read => exact next_form (form_hostRead hs)
  | hostBar2Write => exact next_form (form_hostWrite hs)
  | hostPoisonedWrite => exact next_form (form_hostPoisoned hs)
  | uioWrite => exact next_form (form_uioWrite hs)
  | cxlMemAccess => exact next_form (form_cxlAccess hs)
  | atomicOpRequest => exact next_form (form_ite (form_emit (form_ite (form_noteAer hs) hs)) hs)
  | functionLevelReset => exact next_form (form_ite (form_flr hs) hs)
  | portReset => exact next_form (form_portReset hs)
  | busMasterEnable => exact next_form (form_busMaster hs)
  | atsInvalidate => exact next_form (form_ite (form_emit (form_setFunc hs)) hs)
  | ideKm => exact next_form (form_ideKm hs)
  | probeComplete => exact next_form (form_probeComplete hs)
  | completionTimeout => exact next_form (form_completionTimeout hs)
  | confirmProbeResult => exact next_form (form_confirmResult hs)
  | containmentNotice => exact next_form (form_containment hs)
  | partnerDrained => exact next_form (form_partnerDrained hs)
  | offerLapse => exact form_execOfferLapse hs
  | nodeStart => exact next_form (form_startPlanned hs)
  | bestEffortStart => exact next_form (form_startBestEffort hs)
  | nodeEnd => exact next_form (form_completeNode hs)
  | nodeStopped => exact next_form (form_stopNode hs)
  | coreMove => exact form_execCoreMove hs
  | walkModeApply => exact next_form (form_walkModeApply hs)
  | podFreed => exact next_form (form_podFreed hs)
  | podBoundary => exact next_form (form_podBoundary hs)
  | unparkRestore => exact next_form (form_unparkRestore hs)
  | stepRelease => exact next_form (form_stepRelease hs)
  | stepEnd => exact next_form (form_stepEnd hs)
  | sproutWrite => exact next_form (form_sproutWrite hs)
  | sproutLand => exact next_form (form_sproutLand hs)
  | tilePass => exact next_form (form_tilePass hs)
  | stationaryFill => exact next_form (form_stationaryFill hs)
  | bankExit => exact next_form (form_bankExit hs)
  | vectorStep => exact next_form (form_vectorStep hs)
  | nop => exact next_form (form_issue (fun _ _ _ _ ht => form_onGroup ht) hs)
  | end_ => exact next_form (form_issue (fun _ _ _ _ ht => ok_form ht) hs)
  | bra => exact next_form (form_issue (fun _ _ _ _ ht => form_braBody ht) hs)
  | loop => exact next_form (form_issue (fun _ _ _ _ ht => form_loopBody ht) hs)
  | bare => exact next_form (form_issue (fun _ _ _ _ ht => form_onGroup ht) hs)
  | barg => exact next_form (form_issue (fun _ _ _ _ ht => form_onGroup ht) hs)
  | engineBarrierRelease => exact next_form (form_engineRelease hs)
  | groupBarrierRelease => exact next_form (form_groupRelease hs)
  | pset => exact next_form (form_issue (fun _ _ _ _ ht => form_onGroup ht) hs)
  | plog => exact next_form (form_issue (fun _ _ _ _ ht => form_onGroup ht) hs)
  | iadd => exact next_form (form_issue (fun _ _ _ _ ht => form_aluTwo ht) hs)
  | imul => exact next_form (form_issue (fun _ _ _ _ ht => form_aluTwo ht) hs)
  | imad => exact next_form (form_issue (fun _ _ _ _ ht => form_imadBody ht) hs)
  | and_ => exact next_form (form_issue (fun _ _ _ _ ht => form_aluTwo ht) hs)
  | or_ => exact next_form (form_issue (fun _ _ _ _ ht => form_aluTwo ht) hs)
  | xor_ => exact next_form (form_issue (fun _ _ _ _ ht => form_aluTwo ht) hs)
  | shl => exact next_form (form_issue (fun _ _ _ _ ht => form_aluTwo ht) hs)
  | shr => exact next_form (form_issue (fun _ _ _ _ ht => form_aluTwo ht) hs)
  | movi => exact next_form (form_issue (fun _ _ _ _ ht => form_onGroup ht) hs)
  | sel => exact next_form (form_issue (fun _ _ _ _ ht => form_selBody ht) hs)
  | sreg => exact next_form (form_issue (fun _ _ _ _ ht => ok_form ht) hs)
  | fadd => exact next_form (form_issue (fun _ _ _ _ ht => form_fpTwo ht) hs)
  | fsub => exact next_form (form_issue (fun _ _ _ _ ht => form_fpTwo ht) hs)
  | fmul => exact next_form (form_issue (fun _ _ _ _ ht => form_fpTwo ht) hs)
  | fma => exact next_form (form_issue (fun _ _ _ _ ht => form_fmaBody ht) hs)
  | fmax => exact next_form (form_issue (fun _ _ _ _ ht => form_fpTwo ht) hs)
  | fmin => exact next_form (form_issue (fun _ _ _ _ ht => form_fpTwo ht) hs)
  | cvt => exact next_form (form_issue (fun _ _ _ _ ht => form_cvtBody ht) hs)
  | exp => exact next_form (form_issue (fun _ _ _ _ ht => form_fpOne ht) hs)
  | recip => exact next_form (form_issue (fun _ _ _ _ ht => form_fpOne ht) hs)
  | rsqrt => exact next_form (form_issue (fun _ _ _ _ ht => form_fpOne ht) hs)
  | silu => exact next_form (form_issue (fun _ _ _ _ ht => form_fpOne ht) hs)
  | fred => exact next_form (form_issue (fun _ _ _ _ ht => form_onGroup ht) hs)
  | maxi => exact next_form (form_issue (fun _ _ _ _ ht => form_onGroup ht) hs)
  | smstep => exact next_form (form_issue (fun _ _ _ _ ht => form_smstepBody ht) hs)
  | xmac => exact next_form (form_issue (fun _ _ _ _ ht => form_xmacBody ht) hs)
  | xclr => exact next_form (form_issue (fun _ _ _ _ ht => form_onGroup ht) hs)
  | xred => exact next_form (form_issue (fun _ _ _ _ ht => form_xredBody ht) hs)
  | xexit => exact next_form (form_issue (fun _ _ _ _ ht => form_xexitBody ht) hs)
  | qblk => exact next_form (form_issue (fun _ _ _ _ ht => form_qblkBody ht) hs)
  | ldl => exact next_form (form_issue (fun _ _ _ _ ht => form_loadBody ht) hs)
  | stl => exact next_form (form_issue (fun _ _ _ _ ht => form_storeBody ht) hs)
  | lds => exact next_form (form_issue (fun _ _ _ _ ht => form_loadBody ht) hs)
  | sts => exact next_form (form_issue (fun _ _ _ _ ht => form_storeBody ht) hs)
  | ldg => exact next_form (form_issue (fun _ _ _ _ ht => form_loadBody ht) hs)
  | stg => exact next_form (form_issue (fun _ _ _ _ ht => form_storeBody ht) hs)
  | gcopy => exact next_form (form_issue (fun _ _ _ _ ht => form_gcopyBody ht) hs)
  | xchg => exact next_form (form_issue (fun _ _ _ _ ht => form_xchgBody ht) hs)
  | waitc => exact next_form (form_issue (fun _ _ _ _ ht => form_waitcBody ht) hs)
  | sprt => exact next_form (form_issue (fun _ _ _ _ ht => form_sprtBody ht) hs)
  | exchangeLand => exact next_form (form_exchangeLand hs)
  | waitcRelease => exact next_form (form_waitcGo hs)
  | copyTensor => exact next_form (form_copyTensor hs)
  | kvGather => exact next_form (form_kvGather hs)
  | finalWrite => exact next_form (form_finalWrite hs)
  | syncJoin => exact next_form (form_ite (form_endAtOnce hs) hs)
  | syncAcquire => exact next_form (form_syncAcquire hs)
  | syncRelease => exact next_form (form_syncRelease hs)
  | syncWaitLand => exact next_form (form_ite (form_modNode hs) hs)
  | waitLandEnd => exact next_form (form_waitLandEnd hs)
  | hostEventNode => exact next_form (form_hostEvent hs)
  | fenceDecided => exact next_form (form_ite (form_fenceUnit hs) hs)
  | hubLost => exact next_form (form_ite (form_loseHub hs) hs)
  | hubHeartbeat => exact next_form (form_hubHeartbeat hs)
  | pathLost => exact next_form (form_pathLost hs)
  | contactRestored => exact next_form (form_mk hs)
  | softStartDone => exact next_form (form_ite (form_setVolt (form_setRail hs)) hs)
  | softStartLow => exact next_form (form_ite (form_railFault hs) hs)
  | overcurrent => exact next_form (form_ite (form_railFault hs) hs)
  | sensorSample => exact next_form (form_sensorSample hs)
  | budgetRise => exact next_form (form_ite (form_putThm hs) hs)
  | externalSample => exact next_form (form_externalSample hs)
  | powerSample => exact next_form (form_powerSample hs)
  | marginReplan => exact next_form (form_marginReplan hs)
  | deferredReplay => exact next_form (form_deferredReplay hs)
  | frameEdge => exact next_form (form_frameEdge hs)
  | stepSyncEdge => exact next_form (form_syncEdge hs)
  | syncStuck => exact next_form (form_syncStuck hs)
  | stepOutEnd => exact next_form (form_ite (form_mk hs) hs)
  | refclkQualified => exact next_form (form_ite (form_setPort hs) hs)
  | refclkLost => exact next_form (form_ite (form_setPort hs) hs)
  | vaux3Rise => exact next_form (form_vaux3Rise hs)
  | vaux3Loss => exact next_form (form_ite (form_mk (form_aonLost form_railsOff)) hs)
  | vin48Undervoltage => exact next_form (form_supplyFault hs)
  | vin48Overvoltage => exact next_form (form_supplyFault hs)
  | pwrGoodRise => exact next_form (form_pwrGoodRise hs)
  | pwrGoodFall => exact next_form (form_pwrGoodFall hs)
  | resetNAssert => exact next_form (form_ite hs (form_restartAcorns form_partReset))
  | resetNDeassert => exact next_form (form_ite (form_setT0 (form_mk hs)) hs)
  | bootStage => exact next_form (form_bootStage hs)
  | firmwareFallback => exact next_form (form_firmwareFallback hs)
  | drbgReseed => exact next_form (form_ite (form_mk hs) hs)
  | requestUpdate => exact next_form (form_pldmReq hs (fun _ ht => form_ite (form_pldmOut (form_mk ht)) (form_pldmOut ht)))
  | passComponentTable => exact next_form (form_pldmIn hs (fun _ ht => form_pldmOut (form_toPldm ht)))
  | updateComponent => exact next_form (form_pldmIn hs (fun _ ht => form_ite (form_pldmOut ht) (form_pldmOut (form_mk ht))))
  | requestFirmwareData => exact next_form (form_pldmIn hs (fun _ ht => form_mk ht))
  | transferComplete => exact next_form (form_pldmIn hs (fun _ ht => form_ite (form_pldmOut ht) (form_pldmOut (form_toPldm
    (form_setBank ht)))))
  | verifyComplete => exact next_form (form_pldmIn hs (fun _ ht => form_ite (form_pldmOut (form_mk ht)) (form_pldmOut (form_toPldm ht))))
  | applyComplete => exact next_form (form_pldmIn hs (fun _ ht => form_pldmOut (form_toPldm ht)))
  | activateFirmware => exact next_form (form_pldmIn hs (fun _ ht => form_ite (form_pldmOut (form_toPldm (form_recordBoth ht)))
    (form_pldmOut ht)))
  | cancelUpdateComponent => exact next_form (form_pldmReq hs (fun _ ht => form_ite (form_pldmOut (form_mk ht)) (form_ite
    (form_pldmOut ht) (form_pldmOut ht))))
  | cancelUpdate => exact next_form (form_pldmReq hs (fun _ ht => form_ite (form_pldmOut ht) (form_pldmOut (form_mk ht))))
  | getStatus => exact next_form (form_pldmReq hs (fun _ ht => form_pldmOut ht))
  | queryDeviceIdentifiers => exact next_form (form_pldmReq hs (fun _ ht => form_pldmOut ht))
  | getVersion => exact next_form (form_spdmReq hs (fun _ ht => form_spdmOut (form_mk ht)))
  | getCapabilities => exact next_form (form_spdmReq hs (fun _ ht => form_spdmOut (form_mk ht)))
  | negotiateAlgorithms => exact next_form (form_spdmReq hs (fun _ ht => form_ite (form_spdmOut (form_mk ht)) (form_spdmError ht)))
  | getDigests => exact next_form (form_spdmReq hs (fun _ ht => form_spdmOut ht))
  | getCertificate => exact next_form (form_spdmReq hs (fun _ ht => form_ite (form_spdmError ht) (form_spdmOut ht)))
  | challenge => exact next_form (form_spdmReq hs (fun _ ht => form_spdmOut ht))
  | getMeasurements => exact next_form (form_spdmReq hs (fun _ ht => form_ite (form_spdmError ht) (form_spdmOut ht)))
  | keyExchange => exact next_form (form_spdmReq hs (fun _ ht => form_ite (form_spdmError ht) (form_spdmOut (form_mk ht))))
  | finish => exact next_form (form_inSession hs (fun _ ht => form_spdmOut (form_modSession ht)))
  | heartbeat => exact next_form (form_inSession hs (fun _ ht => form_spdmOut ht))
  | keyUpdate => exact next_form (form_inSession hs (fun _ ht => form_spdmOut (form_modSession ht)))
  | endSession => exact next_form (form_inSession hs (fun _ ht => form_spdmOut (form_mk ht)))
  | entdaa => exact next_form (form_assign hs)
  | setdasa => exact next_form (form_assign hs)
  | rstdaa => exact next_form (form_busReq hs (fun _ ht => form_mk ht))
  | enec => exact next_form (form_inI3c hs (fun _ ht => form_mk ht))
  | disec => exact next_form (form_inI3c hs (fun _ ht => form_mk ht))
  | getpid => exact next_form (form_inI3c hs (fun _ ht => form_busOut ht))
  | getbcr => exact next_form (form_inI3c hs (fun _ ht => form_busOut ht))
  | getdcr => exact next_form (form_inI3c hs (fun _ ht => form_busOut ht))
  | getstatus => exact next_form (form_inI3c hs (fun _ ht => form_busOut (form_mk ht)))
  | setmwl => exact next_form (form_inI3c hs (fun _ ht => form_mk ht))
  | getmwl => exact next_form (form_inI3c hs (fun _ ht => form_busOut ht))
  | setmrl => exact next_form (form_inI3c hs (fun _ ht => form_mk ht))
  | getmrl => exact next_form (form_inI3c hs (fun _ ht => form_busOut ht))
  | mgmtReadPkgTj => exact next_form (form_busReq hs (fun _ ht => form_busOut ht))
  | mgmtReadStatus => exact next_form (form_busReq hs (fun _ ht => form_busOut ht))
  | mgmtReadPower => exact next_form (form_busReq hs (fun _ ht => form_busOut ht))
  | mgmtReadCap => exact next_form (form_busReq hs (fun _ ht => form_busOut ht))
  | mgmtReadLifecycle => exact next_form (form_busReq hs (fun _ ht => form_busOut ht))
  | mgmtReadDieTj => exact next_form (form_busReq hs (fun _ ht => form_ite (form_busOut ht) (form_emit ht)))
  | extest => exact next_form (form_loadIr hs)
  | idcode => exact next_form (form_loadIr hs)
  | samplePreload => exact next_form (form_ite (form_mk (form_loadIr hs)) hs)
  | clamp => exact next_form (form_loadIr hs)
  | highz => exact next_form (form_loadIr hs)
  | internalAccess => exact next_form (form_loadIr hs)
  | bypass => exact next_form (form_loadIr hs)
  | trstNAssert => exact next_form (form_ite (form_mk hs) hs)
  | frameWindowClose => exact next_form (form_windowClose hs)
  | stepSyncUnstuck => exact next_form (form_syncUnstuck hs)
  | ovf24Expiry => exact next_form (form_ite (form_mk hs) hs)
  | rebuildSlot => exact next_form (form_rebuildSlot hs)
  | graphLoadComplete => exact next_form (form_graphLoadComplete hs)
  | fillComplete => exact next_form (form_fillComplete hs)
  | repairComplete => exact next_form (form_repairComplete hs)
  | writeAcknowledged => exact next_form (form_writeAcknowledged hs)
  | perstNDeassert => exact next_form (form_perstRelease hs)
/-- Settles O4: the part writes bytes one by one in canonical form (`wf_putByte`), clears ranges (`form_clearBytes`) or empties memory
(`memoryForm_empty`); every command is made of these and of changes elsewhere (`form_exec`), and so is the idle cycle. -/
theorem memoryFormKept : Obligations.MemoryFormKept := by
  intro s t hs
  cases hp : s.pending with
  | nil => rw [step_nil hp]; exact next_form (form_idleCycle hs) t
  | cons c r => rw [step_cons hp]; exact form_exec (form_mk hs) c t

end Sys2Proof.Machine
end

section
/-! A write that lands, and a masked write over poison (R289, R291, R292, R365; O24). -/

namespace Sys2Proof.Machine

open Sys2Proof

theorem writeLand_inService {s : State} {g : Nat} (h : isMemory s g = true) (mask : BitVec 64) (data : BitVec 512) :
    writeLand g mask data s = landGranule g mask (leBytes 64 data.toNat) s := if_pos h

/-- Byte k of the data of a write. -/
theorem nth_leBytes_toNat (data : BitVec 512) {k : Nat} (hk : k < 64) : nth 0 (leBytes 64 data.toNat) k = data.extractLsb' (8 * k) 8 := by
  rw [nth_leBytes hk, BitVec.extractLsb', Nat.shiftRight_eq_div_pow]

/-- The bytes after a write to a granule that is not poisoned, or of the whole granule: those under the mask, and every other as before. -/
theorem rawByte_landGranule_lands {s : State} {g : Nat} {mask : BitVec 64}
    (hlands : SMap.get false s.poison g = false ∨ mask = BitVec.allOnes 64) (data : List Byte) (x : Nat) :
    rawByte (landGranule g mask data s) x =
      if 64 * g ≤ x ∧ x < 64 * g + 64 ∧ mask.getLsbD (x - 64 * g) = true then nth 0 data (x - 64 * g) else rawByte s x := by
  by_cases hfull : mask = BitVec.allOnes 64
  · subst hfull
    have hmask :
        (64 * g ≤ x ∧ x < 64 * g + 64 ∧ (BitVec.allOnes 64).getLsbD (x - 64 * g) = true) ↔ 64 * g ≤ x ∧ x < 64 * g + 64 := by
      rw [BitVec.getLsbD_allOnes, decide_eq_true_eq]
      omega
    rw [rawByte_landGranule_whole]
    simp only [hmask]
  · rw [rawByte_landGranule hfull]
    simp only [hlands.resolve_right hfull, true_and]

theorem landGranule_full_ends_errors (g : Nat) (data : List Byte) (s : State) :
    SMap.find (landGranule g (BitVec.allOnes 64) data s).poison g = none ∧
      SMap.find (landGranule g (BitVec.allOnes 64) data s).dramErr g = none := by
  have hpoison : (landGranule g (BitVec.allOnes 64) data s).poison = SMap.del s.poison g := by
    unfold landGranule landCount
    dsimp only
    rw [if_pos rfl]
  have herr : (landGranule g (BitVec.allOnes 64) data s).dramErr = SMap.del s.dramErr g := by
    unfold landGranule landCount
    dsimp only
    rw [if_pos rfl]
  rw [hpoison, herr]
  exact ⟨SMap.find_del_same .., SMap.find_del_same ..⟩

theorem landGranule_over_poison {s : State} {g : Nat} {mask : BitVec 64} (hpoison : SMap.get false s.poison g = true)
    (hmask : mask ≠ BitVec.allOnes 64) (data : List Byte) : landGranule g mask data s = landCount g (maskCount mask) s := by
  unfold landGranule
  dsimp only
  rw [if_neg hmask, if_pos hpoison]

/-- Settles O24: a write that lands puts its masked bytes (`rawByte_landGranule_lands`) and changes no other field
(`memoryOnly_landGranule`), a full one ends poison and errors (`landGranule_full_ends_errors`); a masked one over poison only counts
(`landGranule_over_poison`). -/
theorem writesLand : Obligations.WritesLand := by
  refine ⟨?lands, ?poisoned⟩
  case lands =>
    intro s g mask data hmem hlands
    have hbyte := rawByte_landGranule_lands hlands (leBytes 64 data.toNat)
    refine ⟨_, congrArg Host.Outcome.next (writeLand_inService hmem mask data), ?_, ?_, ?_, memoryOnly_landGranule ..⟩
    · intro k hk hbit
      rw [hbyte, if_pos ⟨by omega, by omega, by rwa [Nat.add_sub_cancel_left]⟩, Nat.add_sub_cancel_left, nth_leBytes_toNat data hk]
    · intro a hout
      refine (hbyte a).trans (if_neg ?_)
      rintro ⟨hlow, hhigh, hbit⟩
      rcases hout with h | h | h
      · omega
      · omega
      · rw [h] at hbit
        cases hbit
    · rintro rfl
      exact landGranule_full_ends_errors ..
  case poisoned =>
    intro s g mask data hpoison hmask
    refine ⟨_, rfl, ?_⟩
    unfold writeLand
    split
    · rw [landGranule_over_poison hpoison hmask]
      exact ⟨rfl, rfl, rfl, rfl, rfl⟩
    · exact ⟨rfl, rfl, rfl, rfl, rfl⟩

end Sys2Proof.Machine
end

section
/-! Host accesses to BAR2 and CXL.mem (R295, R338, R346, R348, R365, R478; O20). -/

namespace Sys2Proof.Machine

open Sys2Proof

/-! ### Where an access goes does not depend on AER status -/

section Routes

variable (n : Nat) (v : Func) (s : State)

theorem extend_setFunc (src : Nat) (q : Path) : extend (setFunc n v s) src q = extend s src q := rfl

theorem relax_setFunc (src : Nat) (toHub : Bool) (fuel : Nat) (l : List Path) :
    relax (setFunc n v s) src toHub fuel l = relax s src toHub fuel l := by
  induction fuel generalizing l with
  | zero => rfl
  | succ f ih =>
    have hextend : extend (setFunc n v s) src = extend s src := funext (extend_setFunc n v s src)
    simp only [relax, hextend, ih]

theorem routerLive_setFunc (r : Nat) : routerLive (setFunc n v s) r = routerLive s r := rfl

theorem route_setFunc (src dst : Nat) : route (setFunc n v s) src dst = route s src dst := by
  simp only [route, routerLive_setFunc, relax_setFunc]

theorem placeNode_setFunc (pl : Place) : placeNode (setFunc n v s) pl = placeNode s pl := rfl

theorem fnRouted_setFunc (fn a : Nat) : fnRouted (setFunc n v s) fn a = fnRouted s fn a := by
  simp only [fnRouted, reachable, placeNode_setFunc, route_setFunc]

theorem vfReach_setFunc (p a : Nat) (write : Bool) : vfReach (setFunc n v s) p a write = vfReach s p a write := rfl

theorem boundPod_setFunc (fn : Nat) : boundPod (setFunc n v s) fn = boundPod s fn := rfl

theorem fnReach_setFunc (fn a : Nat) (write : Bool) : fnReach (setFunc n v s) fn a write = fnReach s fn a write := by
  unfold fnReach
  rw [fnRouted_setFunc]
  rfl

theorem viewPieces_setFunc (fn off len : Nat) (write : Bool) :
    viewPieces (setFunc n v s) fn off len write = viewPieces s fn off len write := by
  simp only [viewPieces, fnReach_setFunc]
  rfl

theorem aperPieces_setFunc (w p k o len : Nat) (write : Bool) :
    aperPieces (setFunc n v s) w p k o len write = aperPieces s w p k o len write := by
  simp only [aperPieces, fnRouted_setFunc, vfReach_setFunc, setFunc_aper]
  rfl

end Routes

theorem fnThere_noteAer (g b : Nat) (s : State) (fn : Nat) : fnThere (noteAer g b s) fn = fnThere s fn := by
  by_cases hg : fnPort fn = g
  · subst hg
    simp only [fnThere, noteAer, getFunc_setFunc]
  · simp only [fnThere, noteAer, getFunc_setFunc_other s _ hg]

theorem fnAlive_noteAer (g b : Nat) (s : State) (fn : Nat) : fnAlive (noteAer g b s) fn = fnAlive s fn := by
  simp only [fnAlive, fnThere_noteAer]
  rfl

theorem bar2Pieces_noteAer (g b : Nat) (s : State) (fn off len : Nat) (write : Bool) :
    bar2Pieces (noteAer g b s) fn off len write = bar2Pieces s fn off len write := by
  simp only [bar2Pieces, fnAlive_noteAer]
  simp only [noteAer, viewPieces_setFunc, aperPieces_setFunc, boundPod_setFunc]

theorem bar2Pieces_dead {s : State} {fn : Nat} (off len : Nat) (write : Bool) (h : fnAlive s fn = false) :
    bar2Pieces s fn off len write = none := by
  simp only [bar2Pieces, h, Bool.not_false, Bool.true_or, if_true]

theorem fnAlive_of_bar2Pieces {s : State} {fn off len : Nat} {write : Bool} {l : List Piece} (h : bar2Pieces s fn off len write = some l) :
    fnAlive s fn = true := by
  cases halive : fnAlive s fn with
  | true => rfl
  | false =>
    rw [bar2Pieces_dead off len write halive] at h
    cases h

theorem fnThere_of_alive {s : State} {fn : Nat} (h : fnAlive s fn = true) : fnThere s fn = true :=
  (Bool.and_eq_true_iff.mp h).1

/-! ### One piece of memory -/

/-- A read of one piece of memory that takes its bytes and leaves the part as it was. -/
theorem completeRead_memory {s : State} {a len : Nat} {bs : List (Byte × Bool)} (fn : Nat) (hpeer : inPeer a = false)
    (hbytes : fetchBytes a len s = (bs, s)) : completeRead fn [⟨a, len, false⟩] s =
      if bs.any (fun b => b.2) then
        emit (.read (fnReq fn) (undefBytes s.freeIdx bs.length) true false) { s with freeIdx := s.freeIdx + bs.length }
      else emit (.read (fnReq fn) (bs.map (fun b => b.1)) false false) s := by
  have hpiece : readPiece ⟨a, len, false⟩ s = (bs.map (fun b => b.1), bs.any (fun b => b.2), s) := by
    simp only [readPiece, hpeer, hbytes, Bool.false_eq_true, if_false]
  simp only [completeRead, readPieces, List.foldl_cons, List.foldl_nil, hpiece, List.nil_append, Bool.false_or, List.length_map]

theorem writePieces_memory {a : Nat} (bs : List Byte) (fn : Nat) (hpeer : inPeer a = false) (s : State) :
    writePieces fn [⟨a, bs.length, false⟩] bs s = landBytes a bs s := by
  simp only [writePieces, writePiece, hpeer, Bool.false_eq_true, if_false, List.take_length]

/-! ### Reads and writes through BAR2 -/

theorem hostRead_reached {s : State} {fn off len : Nat} {l : List Piece} (attr : HostAttr) (hlen : len ≠ 0)
    (hl : bar2Pieces s fn off len false = some l) : hostRead fn off len attr s = completeRead fn l s := by
  simp only [hostRead, if_neg hlen, fnThere_of_alive (fnAlive_of_bar2Pieces hl), hl, Bool.not_true, Bool.false_eq_true, if_false]

theorem hostRead_dead {s : State} {fn len : Nat} (off : Nat) (attr : HostAttr) (hlen : len ≠ 0) (hthere : fnThere s fn = true)
    (hdead : fnAlive s fn = false) : hostRead fn off len attr s = refuseRead fn (fnPort fn) off attr.reqId false s := by
  simp only [hostRead, if_neg hlen, hthere, bar2Pieces_dead off len false hdead, Bool.not_true, Bool.false_eq_true, if_false]

theorem hostWrite_reached {s : State} {fn off : Nat} {bs : List Byte} {l : List Piece} (attr : HostAttr) (hbs : bs ≠ [])
    (hl : bar2Pieces s fn off bs.length true = some l) : hostWrite fn off bs attr s = writePieces fn l bs s := by
  simp only [hostWrite, List.isEmpty_eq_false_iff.mpr hbs, fnThere_of_alive (fnAlive_of_bar2Pieces hl), hl, Bool.not_true, Bool.or_false,
    Bool.false_eq_true, if_false]

theorem uioWrite_reached {s : State} {fn off : Nat} {bs : List Byte} {l : List Piece} (attr : HostAttr) (hbs : bs ≠ [])
    (hl : bar2Pieces s fn off bs.length true = some l) :
    uioWrite fn off bs attr s = emit (.writeAck fn false) (writePieces fn l bs s) := by
  simp only [uioWrite, List.isEmpty_eq_false_iff.mpr hbs, fnThere_of_alive (fnAlive_of_bar2Pieces hl), hl, Bool.not_true,
    Bool.false_eq_true, if_false]

theorem sameMemory_refuseWrite (port off reqId : Nat) (cxl : Bool) (s : State) : sameMemory s (refuseWrite port off reqId cxl s) :=
  ⟨rfl, rfl, rfl, rfl, rfl⟩

theorem sameMemory_hostWrite_refused {s : State} {fn off : Nat} {bs : List Byte} (attr : HostAttr)
    (hl : bar2Pieces s fn off bs.length true = none) : sameMemory s (hostWrite fn off bs attr s) := by
  unfold hostWrite
  split
  · exact ⟨rfl, rfl, rfl, rfl, rfl⟩
  · rw [hl]
    exact sameMemory_refuseWrite ..

theorem hostPoisoned_memory {s : State} {fn off len a : Nat} (attr : HostAttr) (hlen : len ≠ 0)
    (hl : bar2Pieces s fn off len true = some [⟨a, len, false⟩]) (hpeer : inPeer a = false) :
    hostPoisoned fn off len false attr s = landPoisonable a (List.replicate len (0, true)) (noteAer fn 12 s) := by
  have hthere : fnThere s fn = true := fnThere_of_alive (fnAlive_of_bar2Pieces hl)
  simp only [hostPoisoned, if_neg hlen, hthere, bar2Pieces_noteAer, hl, poisonPiece, hpeer, List.any_cons, List.any_nil, Bool.or_false,
    Bool.not_true, Bool.false_eq_true, if_false, List.foldl_cons, List.foldl_nil]

/-! ### CXL.mem -/

theorem cxlAccess_notCxl {s : State} {port : Nat} (h : Nat) (write : Option (List Byte)) (len : Nat) (hcxl : (getPort s port).cxl = false) :
    cxlAccess port h write len s = s := by
  simp only [cxlAccess, hcxl, Bool.not_false, Bool.or_true, if_true]

theorem cxlAccess_writes {s : State} {port h a : Nat} {bs : List Byte} {l : List Piece} (len : Nat) (hport : port < 4)
    (hcxl : (getPort s port).cxl = true) (hbs : bs ≠ []) (hmap : hdmMap (getPort s port).hdm 0 h bs.length = some a)
    (hl : cxlPieces s port a bs.length true = some l) :
    cxlAccess port h (some bs) len s = emit (.writeAck port false) (writePieces port l bs s) := by
  have hroute : cxlRoute s port h bs.length true = (some l, a) := by simp only [cxlRoute, hmap, hl]
  simp only [cxlAccess, decide_eq_false (Nat.not_le.mpr hport), hcxl, List.isEmpty_eq_false_iff.mpr hbs, hroute, Bool.not_true,
    Bool.or_false, Bool.false_eq_true, if_false]

/-- Settles O20: an access of one piece of memory reads it (`completeRead_memory`), writes it (`writePieces_memory`) or poisons it
(`hostPoisoned_memory`), whichever path it came by; a fenced port refuses a read (`hostRead_dead`), and a refused write leaves memory
(`sameMemory_hostWrite_refused`). -/
theorem hostAccessRuns : Obligations.HostAccessRuns := by
  refine ⟨?read, ?write, ?poisoned, ?cxl, ?notCxl, ?atomicOp, ?dead, ?refused⟩
  case read =>
    intro s fn off len a attr bs _ hlen hl hpeer hbytes
    have hread : exec (.hostBar2Read fn off len attr) s = .next (completeRead fn [⟨a, len, false⟩] s) :=
      congrArg Host.Outcome.next (hostRead_reached attr hlen hl)
    rw [hread, completeRead_memory fn hpeer hbytes]
    exact ⟨fun hclean => congrArg Host.Outcome.next (if_neg (Bool.eq_false_iff.mp hclean)),
      fun hpoison => congrArg Host.Outcome.next (if_pos hpoison)⟩
  case write =>
    intro s fn off a bs attr _ hbs hl hpeer
    rw [← writePieces_memory bs fn hpeer s]
    exact ⟨congrArg Host.Outcome.next (hostWrite_reached attr hbs hl), congrArg Host.Outcome.next (uioWrite_reached attr hbs hl)⟩
  case poisoned =>
    intro s fn off len a attr _ hlen hl hpeer
    exact congrArg Host.Outcome.next (hostPoisoned_memory attr hlen hl hpeer)
  case cxl =>
    intro s p h a bs hport hcxl hbs hmap hl hpeer
    rw [← writePieces_memory bs p hpeer s]
    exact congrArg Host.Outcome.next (cxlAccess_writes 0 hport hcxl hbs hmap hl)
  case notCxl => exact fun s p h w len hcxl => congrArg Host.Outcome.next (cxlAccess_notCxl h w len hcxl)
  case atomicOp =>
    intro s fn hfn hthere
    refine congrArg Host.Outcome.next ((if_pos hfn).trans ?_)
    rw [if_pos hthere]
  case dead =>
    intro s fn off len attr hlen hthere hdead
    exact congrArg Host.Outcome.next (hostRead_dead off attr hlen hthere hdead)
  case refused =>
    intro s fn off bs attr hl
    exact ⟨_, rfl, sameMemory_hostWrite_refused attr hl⟩

end Sys2Proof.Machine
end

section
/-! Who may issue a mailbox command (R315, R323 rows 2 to 5, R437, R438, R450): every command meets these rows first (O5). -/

namespace Sys2Proof.Machine

open Sys2Proof

/-! ### Rows 2 to 5 of R323 -/

section From

variable {sp : Spec} {sub : Submission} {s : State}

/-- The rows on who may issue a command come before those on its fields, its objects and its pod. -/
theorem checkCmd_of_checkFrom {st : Status} (freePod fieldsOk known : Bool) (h : checkFrom sp sub s = some st) :
    checkCmd sp freePod sub fieldsOk known s = some st := by
  simp [checkCmd, h]

/-- In RETIRED only four commands are left (R438). -/
theorem checkFrom_retired (hlife : lifecycle s = 3) (hop : sp.op ∉ [0x01, 0x02, 0x04, 0x92]) : checkFrom sp sub s = some stLOCKED := by
  have hstopped : List.contains [0x01, 0x02, 0x04, 0x92] sp.op = false := by simpa using hop
  exact if_pos (by simp only [hlife, hstopped, decide_true, Bool.not_false, Bool.and_self, Bool.true_or])

/-- While a DEBUG_UNLOCK sequence runs no command is accepted (R450). -/
theorem checkFrom_unlocking (h : s.sec.unlock ≠ none) : checkFrom sp sub s = some stLOCKED :=
  if_pos (by simp [Option.isSome_iff_ne_none.mpr h])

/-- Under a demoted hub only four commands are left (R323 row 3). -/
theorem checkFrom_demoted (hlife : lifecycle s ≠ 3) (hretiring : s.sec.retiring = false) (hunlock : s.sec.unlock = none)
    (hlead : (getHub s (fnHub sub.mbx.fn)).lead = .demoted) (hop : sp.op ∉ [0x01, 0x02, 0x04, 0x80]) :
    checkFrom sp sub s = some stLOST_LEAD :=
  (if_neg (by simp [hlife, hretiring, hunlock])).trans (if_pos (by simpa [hlead] using hop))

end From

/-! ### What a refused command leaves -/

/-- A row, as its instruction, its framework entry and its selector, that answers with the status of rows 2 to 5 and does nothing else. -/
def TurnsAway (sub : Submission) (row : Instr × Spec × (BitVec 512 → Bool)) : Prop :=
  ∀ (s : State) (st : Status), Takes row.2.1 row.2.2 sub s → checkFrom row.2.1 sub s = some st →
    exec row.1 s = .next (answers sub st 0 0 s id)

/-- A command whose body makes the checks of R323 before anything else. -/
def ChecksFirst (sp : Spec) (sub : Submission) (body : CmdTok → State → State) : Prop :=
  ∀ (tok : CmdTok) (s : State) (st : Status), checkFrom sp sub s = some st → body tok s = only sub tok st 0 0 s

section Rows

variable {c : Instr} {sp : Spec} {sel : BitVec 512 → Bool} {sub : Submission} {body : CmdTok → State → State}

theorem runCmd_checksFirst {s : State} {st : Status} (hbody : ChecksFirst sp sub body) (htakes : Takes sp sel sub s)
    (hfrom : checkFrom sp sub s = some st) : runCmd sp sel sub s body = answers sub st 0 0 s id :=
  (runCmd_takes body htakes).trans (hbody _ (taken sub s) _ hfrom)

theorem turnsAway_of_checksFirst (hexec : ∀ s, exec c s = .next (runCmd sp sel sub s body)) (hbody : ChecksFirst sp sub body) :
    TurnsAway sub (c, sp, sel) :=
  fun s _ htakes hfrom => (hexec s).trans (congrArg Host.Outcome.next (runCmd_checksFirst hbody htakes hfrom))

end Rows

/-- A command that is taken is still in the acknowledged list. -/
theorem mem_acked_of_nextAcked {s : State} {m : Mbx} {a : Submission × Nat} (h : nextAcked s m = some a) : a ∈ s.acked := by
  unfold nextAcked at h
  split at h
  next b hfirst =>
    split at h
    · exact absurd h (by simp)
    · exact Option.some.inj h ▸ List.mem_of_find?_eq_some hfirst
  next => exact absurd h (by simp)

/-- A DEBUG_UNLOCK that still waits for its decision is not the one whose sequence runs. -/
theorem unlockOf_taken {sp : Spec} {sel : BitVec 512 → Bool} {sub : Submission} {s : State} (h : Takes sp sel sub s) :
    unlockOf sub s = none := by
  have hwaits : s.acked.any (fun a => a.1 = sub) = true := List.any_eq_true.mpr ⟨_, mem_acked_of_nextAcked h.1, by simp⟩
  simp [unlockOf, hwaits]

theorem turnsAway_debugUnlock (sub : Submission) (token : BitVec 4096) :
    TurnsAway sub (.debugUnlock sub token, spDebug, fun _ => true) := by
  intro s st htakes hfrom
  have hexec : exec (.debugUnlock sub token) s = .next (runCmd spDebug (fun _ => true) sub s (debugUnlock sub token)) := by
    show execDebugUnlock sub token s = _
    rw [execDebugUnlock, unlockOf_taken htakes]
  have hbody : ChecksFirst spDebug sub (debugUnlock sub token) := fun _ _ _ h => guarded_stop _ (checkCmd_of_checkFrom _ _ _ h)
  exact hexec.trans (congrArg Host.Outcome.next (runCmd_checksFirst hbody htakes hfrom))

/-- STREAM_SHIP checks first. (Its body is opened as it stands: a simplified copy would make the kernel count down the 8,193 entries of
its table walk.) -/
theorem turnsAway_streamShip (sub : Submission) : TurnsAway sub (.streamShip sub, spShip, fun _ => true) := by
  refine turnsAway_of_checksFirst (fun _ => rfl) fun tok s st h => ?_
  show streamShip sub tok s = _
  unfold streamShip
  exact guarded_stop _ (checkCmd_of_checkFrom _ _ _ h)

/-- Settles O5: every row begins with the checks (`turnsAway_of_checksFirst`), DEBUG_UNLOCK too while its command waits
(`turnsAway_debugUnlock`); a refusal is a completion alone (`postComp_answering`), and the rows on the state of the part come first
(`checkFrom_retired`, `checkFrom_unlocking`, `checkFrom_demoted`). -/
theorem commandsTurnedAway : Obligations.CommandsTurnedAway := by
  refine ⟨?rows, fun s sub st => ⟨?posts, ?frame⟩, fun s sp sub => ⟨checkFrom_retired, checkFrom_unlocking, checkFrom_demoted⟩⟩
  case rows =>
    intro s sub hash token fell c sp sel st hrow htakes hfrom
    have hdebug := turnsAway_debugUnlock sub token
    have hship := turnsAway_streamShip sub
    refine (?_ : ∀ row ∈ _, TurnsAway sub row) _ hrow s st htakes hfrom
    simp only [List.forall_mem_append, List.forall_mem_cons, List.not_mem_nil, false_imp_iff, implies_true, hdebug, hship, and_true,
      true_and]
    and_intros
    all_goals
      refine turnsAway_of_checksFirst (fun _ => rfl) fun _ _ _ h => ?_
      dsimp only [podCreate, podAmend, podSetQuota, podMoveCores, podBind, podUnbind, podDestroy, regionMap, mirrorDeclare, regionUnmap,
        memFill, windowMap, graphLoad, graphUnload, graphRun, graphCancel, journalRead, batchStep, streamOpen, streamOpenInbound,
        streamCancel, streamPark, streamUnpark, adapterLoad, prefixInsert, prefixRemove, prefixLookup, fenceRequest, unfence, fuseRepair,
        takeover, thermalConfig, powerLimit, powerLimitForce, timeSet, timeGet, lifecycleRead, setOwner, rotateOwner, retire, commitMode]
      exact guarded_stop _ (checkCmd_of_checkFrom _ _ _ h)
  case posts => exact posts_postComp .only (slotsOf sub.entry) st 0 0 rfl
  case frame => exact postComp_answering (tokIn s sub) .only (slotsOf sub.entry) st 0 0 (taken sub s)

end Sys2Proof.Machine
end

section
/-! The event ring, message vectors and the reads that clear (R311, R317, R318; O10). -/

namespace Sys2Proof.Machine

open Sys2Proof

theorem mbxExists_of_alive {s : State} {m : Mbx} (h : mbxAlive s m = true) : mbxExists m = true := (Bool.and_eq_true_iff.mp h).1

theorem fnAlive_of_mbxAlive {s : State} {m : Mbx} (h : mbxAlive s m = true) : fnAlive s m.fn = true := (Bool.and_eq_true_iff.mp h).2

theorem getFunc_atsUse_other {fn g : Nat} (pages : List Nat) (s : State) (h : g ≠ fn) : getFunc (atsUse fn pages s) g = getFunc s g :=
  getFunc_setFunc_other s _ h

/-- The pages that a function comes to use are noted in its list of translations alone (R349). -/
theorem getFunc_atsUse (fn : Nat) (pages : List Nat) (s : State) :
    getFunc (atsUse fn pages s) fn = { getFunc s fn with ats := (getFunc (atsUse fn pages s) fn).ats } := by
  simp [atsUse]

section Function

variable {s : State} {fn : Nat} {f : Func} (halive : fnAlive s fn = true) (hf : getFunc s fn = f)

include halive hf

theorem eventRingEnable_starts (hoff : f.evEnable = false) (hlow : 4 ≤ f.evLog) (hhigh : f.evLog ≤ 12) :
    eventRingEnable fn s = atsUse fn (busPages f.evBase.toNat (32 * 2 ^ f.evLog))
      (setFunc fn { f with evEnable := true, evHead := 0, evTail := 0, phase := true } s) := by
  simp [eventRingEnable, halive, hf, hoff, Nat.not_lt.mpr hlow, Nat.not_lt.mpr hhigh]

theorem msixMessage_sends {vec : Nat} {a : BitVec 64} {d : BitVec 32} (hmaster : f.bme = true) (hon : f.msixOn = true)
    (hunmasked : f.msixMask = false) (hpending : nth false f.msixPend vec = true) (hvector : f.msix[vec]? = some (a, d, false)) :
    msixMessage fn vec s = emit (.msix fn vec a d) (setFunc fn { f with msixPend := f.msixPend.set vec false } s) := by
  simp [msixMessage, halive, hf, hmaster, hon, hunmasked, hpending, hvector]

end Function

/-- Settles O10: an enable by the ring's size (`eventRingEnable_starts`), a message by the vector's masks (`msixMessage_sends`), and each
register of a function that is there as its own rule says. -/
theorem ringRegisters : Obligations.RingRegisters := by
  refine ⟨?enable, fun s fn halive => congrArg Host.Outcome.next (if_pos halive),
    fun s fn v halive => congrArg Host.Outcome.next (if_pos halive), ?message, ?dropped,
    fun s fn halive => congrArg Host.Outcome.next (if_pos halive)⟩
  case enable =>
    intro s fn f halive hf hoff hlow hhigh
    refine ⟨_, congrArg Host.Outcome.next (eventRingEnable_starts halive hf hoff hlow hhigh), ?_, rfl, fun g hg => ?_⟩
    · rw [getFunc_atsUse, getFunc_setFunc]
    · rw [getFunc_atsUse_other _ _ hg, getFunc_setFunc_other _ _ hg]
  case message =>
    intro s fn vec f a halive hf hmaster hon hunmasked hpending hvector
    exact congrArg Host.Outcome.next (msixMessage_sends halive hf hmaster hon hunmasked hpending hvector)
  case dropped =>
    rintro s m b halive rfl
    refine congrArg Host.Outcome.next ((if_neg ?_).trans (if_pos (fnAlive_of_mbxAlive halive)))
    rw [mbxExists_of_alive halive]
    decide

end Sys2Proof.Machine
end

section
/-! The boot: its stages and rails, READY, and the fallback to the other bank (R333-R335, R381, R442-R444; O52). -/

namespace Sys2Proof.Machine

open Sys2Proof

/-! ### The stages (R333) -/

/-- The boot's work at stage `n`, which waits where the rails have not settled or the bank is not valid. -/
def stageWork (faults : List (Nat × Nat × Nat)) (n : Nat) (s : State) : State :=
  match n with
  | 0 => bootBank s
  | 1 => bootRails s
  | 2 => if railsSettled s then bootFabric s else s
  | 3 => setStage 4 s
  | 4 => if bankValid s s.fw.bank then bootFirmware s else s
  | 5 => setStage 6 s
  | 6 => setStage 7 ((List.range 256).foldl (bistTile faults) s)
  | 7 => bootReady s
  | _ => s

/-- With the supplies up and t0 come, BOOT_STAGE does its stage's work. -/
theorem bootStage_at {s : State} {n : Nat} (faults : List (Nat × Nat × Nat)) (hpower : powered s = true) (ht0 : s.fw.t0 ≤ now s)
    (hstage : s.fw.stage = n) : bootStage faults s = stageWork faults n s := by
  have hgo : ¬ ((!powered s || decide (now s < s.fw.t0)) = true) := by simp [hpower, Nat.not_lt.mpr ht0]
  subst hstage
  exact if_neg hgo

/-! ### The rails (R333, R385) -/

/-- A rail that is OFF begins its soft start. -/
def softStart (i : Nat) (s : State) : State := if getRail s i = .off then setRail i .softStart s else s

theorem getRail_softStart (i j : Nat) (s : State) :
    getRail (softStart j s) i = if i = j ∧ getRail s i = .off then .softStart else getRail s i := by
  unfold softStart
  by_cases hij : i = j
  · subst hij
    by_cases hoff : getRail s i = .off <;> simp [hoff]
  · simp only [hij, false_and, if_false]
    split
    · exact getRail_setRail_other s _ hij
    · rfl

theorem softStartAll_cons (i : Nat) (l : List Nat) (s : State) : softStartAll (i :: l) s = softStartAll l (softStart i s) := rfl

theorem getRail_softStartAll (i : Nat) (l : List Nat) (s : State) :
    getRail (softStartAll l s) i = if i ∈ l ∧ getRail s i = .off then .softStart else getRail s i := by
  induction l generalizing s with
  | nil => simp [softStartAll]
  | cons j l ih =>
    rw [softStartAll_cons, ih, getRail_softStart]
    by_cases hoff : getRail s i = .off
    · by_cases hij : i = j
      · subst hij
        simp [hoff]
      · simp [hoff, hij]
    · simp [hoff]

/-- The authority latch moves the hubs alone (R381). -/
theorem getRail_setLatch (s : State) (i : Nat) : getRail (setLatch s) i = getRail s i := by
  unfold setLatch
  dsimp only
  split
  · rfl
  · unfold modHub setHub
    split <;> split <;> rfl

theorem bootRails_waits {s : State} (h : railsSettled s = false) : bootRails s = s := if_pos (by rw [h]; rfl)

/-- The part when group `g` of its rails begins, the authority latch set before the second. -/
def begunRails (g : Nat) (s : State) : State := softStartAll (railGroup g) (if g = 1 then setLatch s else s)

theorem getRail_begunRails (g : Nat) (s : State) (i : Nat) :
    getRail (begunRails g s) i = if i ∈ railGroup g ∧ getRail s i = .off then .softStart else getRail s i := by
  have hlatch : getRail (if g = 1 then setLatch s else s) i = getRail s i := by
    split
    · exact getRail_setLatch s i
    · rfl
  rw [begunRails, getRail_softStartAll, hlatch]

theorem bootRails_begins {s : State} {g : Nat} (h : railsSettled s = true) (hg : s.fw.railGroups = g) : bootRails s =
    { begunRails g s with fw := { (begunRails g s).fw with railGroups := g + 1, stage := if 2 ≤ g then 2 else 1 } } := by
  subst hg
  exact if_neg (by rw [h]; decide)

/-! ### READY (R344, R443) -/

/-- `s` with what a record or counter write moves taken from `t`: the record stores, the deferred writes and the anti-rollback counters. -/
def recording (t s : State) : State :=
  { s with sec := { s.sec with rollA := t.sec.rollA, rollB := t.sec.rollB },
           fw := { s.fw with storeA := t.fw.storeA, storeB := t.fw.storeB, defer := t.fw.defer, deferDropped := t.fw.deferDropped } }

theorem recording_trans {s t u : State} (hst : t = recording t s) (htu : u = recording u t) : u = recording u s :=
  htu.trans (congrArg (recording u) hst :)

theorem setStore_recording (h : Nat) (v : RecordStore) (s : State) : setStore h v s = recording (setStore h v s) s := by
  unfold setStore
  split <;> rfl

theorem applyWrite_recording (h : Nat) (k : DeferKind) (time : Nat) (s : State) :
    applyWrite h k time s = recording (applyWrite h k time s) s := by
  cases k with
  | rollback v =>
    dsimp only [applyWrite]
    split <;> rfl
  | lifecycleWord v => rfl
  | _ => exact setStore_recording ..

theorem deferWrite_recording (d : Deferred) (s : State) : deferWrite d s = recording (deferWrite d s) s := by
  unfold deferWrite
  dsimp only
  split
  · rfl
  · split
    · split
      · rfl
      · split <;> rfl
    · split <;> rfl

theorem recordWrite_recording (h : Nat) (k : DeferKind) (s : State) : recordWrite h k s = recording (recordWrite h k s) s := by
  unfold recordWrite
  dsimp only
  split
  · exact applyWrite_recording ..
  · exact deferWrite_recording ..

/-- A write to both hubs moves records, deferred writes and counters alone (R434). -/
theorem recordBoth_recording (k : DeferKind) (s : State) : recordBoth k s = recording (recordBoth k s) s := by
  have hsecond : ∀ t, t = recording t s → (if hubFenced t 1 then t else recordWrite 1 k t) =
      recording (if hubFenced t 1 then t else recordWrite 1 k t) s := by
    intro t ht
    split
    · exact ht
    · exact recording_trans ht (recordWrite_recording 1 k t)
  unfold recordBoth
  dsimp only
  refine hsecond _ ?_
  split
  · rfl
  · exact recordWrite_recording 0 k s

theorem recordBoth_owner (k : DeferKind) (s : State) : (recordBoth k s).owner = s.owner := by
  rw [recordBoth_recording]; rfl

theorem recordBoth_stage (k : DeferKind) (s : State) : (recordBoth k s).fw.stage = s.fw.stage := by
  rw [recordBoth_recording]; rfl

/-- The part when READY is reached: its owner set and its frame timer started. -/
def atReady (s : State) : State :=
  setStage 8 { s with owner := if portFenced s 0 then none else some 0,
                      clock := { s.clock with running := true, bj := now s, j := 0, next := now s + s.clock.f } }

theorem bootReady_cases (s : State) : bootReady s = atReady s ∨ ∃ svn, bootReady s = recordBoth (.rollback svn) (atReady s) := by
  by_cases hraise : (!(atReady s).fw.fallback &&
      decide (rollback (atReady s) < (bankOf (atReady s) (atReady s).fw.bank).svn)) = true
  · exact .inr ⟨_, if_pos hraise⟩
  · exact .inl (if_neg hraise)

/-- READY is reached whether or not the anti-rollback counter rises with it. -/
theorem bootReady_owner_stage (s : State) :
    (bootReady s).owner = (if portFenced s 0 then none else some 0) ∧ (bootReady s).fw.stage = 8 := by
  rcases bootReady_cases s with h | ⟨svn, h⟩
  · rw [h]
    exact ⟨rfl, rfl⟩
  · rw [h, recordBoth_owner, recordBoth_stage]
    exact ⟨rfl, rfl⟩

/-! ### The fallback (R335) -/

/-- 1,500 ms after t0 the boot is not READY, and no fallback has been made. -/
structure Overdue (s : State) : Prop where
  power : powered s = true
  late : s.fw.t0 + 1500000000 ≤ now s
  begun : 1 ≤ s.fw.stage
  notReady : s.fw.stage < 8
  first : s.fw.fallback = false

theorem Overdue.runs {s : State} (h : Overdue s) : ¬ ((!powered s || decide (now s < s.fw.t0 + 1500000000) || decide (s.fw.stage < 1) ||
    decide (8 ≤ s.fw.stage) || s.fw.fallback) = true) := by
  simp [h.power, Nat.not_lt.mpr h.late, Nat.one_le_iff_ne_zero.mp h.begun, Nat.not_le.mpr h.notReady, h.first]

theorem firmwareFallback_other {s t : State} {b : Nat} (h : Overdue s) (hbank : s.fw.bank = b) (ht : recordBoth (.failedBank b) s = t)
    (hvalid : bankValid t (1 - b) = true) : firmwareFallback s =
      { t with fw := { t.fw with bank := 1 - b, fallback := true, stage := min 4 t.fw.stage } } := by
  subst hbank ht
  exact (if_neg h.runs).trans (if_pos hvalid)

theorem firmwareFallback_none {s t : State} {b : Nat} (h : Overdue s) (hbank : s.fw.bank = b) (ht : recordBoth (.failedBank b) s = t)
    (hbad : bankValid t (1 - b) = false) : firmwareFallback s = { t with fw := { t.fw with stage := min 4 t.fw.stage } } := by
  subst hbank ht
  exact (if_neg h.runs).trans (if_neg (Bool.eq_false_iff.mp hbad))

/-- Settles O52: each stage has its work (`bootStage_at`), the rails of a group begin together and no others
(`getRail_begunRails`), READY gives PF 0 the part (`bootReady_owner_stage`), and an overdue boot falls back
(`firmwareFallback_other`, `firmwareFallback_none`). -/
theorem bootRuns : Obligations.BootRuns := by
  refine ⟨?stages, fun s => bootRails_waits, ?rails, ?ready, ?fallback⟩
  case stages =>
    intro s products sums hpower ht0
    have hat : ∀ n, s.fw.stage = n → exec (.bootStage products sums) s = .next (stageWork (products ++ sums) n s) :=
      fun n hstage => congrArg Host.Outcome.next (bootStage_at _ hpower ht0 hstage)
    exact ⟨hat 0, hat 1, fun hstage hsettled => (hat 2 hstage).trans (congrArg Host.Outcome.next (if_pos hsettled)), hat 3,
      fun hstage hvalid => (hat 4 hstage).trans (congrArg Host.Outcome.next (if_pos hvalid)), hat 5, hat 6, hat 7⟩
  case rails =>
    rintro s _ g hsettled hg rfl
    have hrail : ∀ i, getRail (bootRails s) i = if i ∈ railGroup g ∧ getRail s i = .off then .softStart else getRail s i := fun i => by
      rw [bootRails_begins hsettled hg]
      exact getRail_begunRails g s i
    refine ⟨?_, ?_, fun i hi hoff => (hrail i).trans (if_pos ⟨hi, hoff⟩), fun i hi => (hrail i).trans (if_neg fun h => hi h.1)⟩
    · rw [bootRails_begins hsettled hg]
    · rw [bootRails_begins hsettled hg]
  case ready =>
    intro s hport
    obtain ⟨howner, hstage⟩ := bootReady_owner_stage s
    exact ⟨howner.trans (if_neg (Bool.eq_false_iff.mp hport)), hstage⟩
  case fallback =>
    intro s t b hpower hlate hbegun hready hfirst hbank ht
    have hdue : Overdue s := ⟨hpower, hlate, hbegun, hready, hfirst⟩
    exact ⟨fun hvalid => congrArg Host.Outcome.next (firmwareFallback_other hdue hbank ht hvalid),
      fun hbad => congrArg Host.Outcome.next (firmwareFallback_none hdue hbank ht hbad)⟩

end Sys2Proof.Machine
end

section
/-! The PLDM firmware update (R336, R443, R461; O53). -/

namespace Sys2Proof.Machine

open Sys2Proof

section Acorns

variable {s : State} (hpower : s.pins.vaux3 = true)

include hpower

theorem pldmReq_on (body : State → State) : pldmReq s body = body s := if_pos hpower

theorem pldmIn_state {st : Pldm} (body : State → State) (hstate : s.fw.pldm = st) : pldmIn st s body = body s :=
  (pldmReq_on hpower _).trans (if_pos hstate)

/-- Outside an update a command of one of its states is answered NOT_IN_UPDATE (log entry 36). -/
theorem pldmIn_idle {st : Pldm} (body : State → State) (hidle : s.fw.pldm = .idle) (hst : st ≠ .idle) :
    pldmIn st s body = pldmOut ccNOT_IN_UPDATE [] s :=
  (pldmReq_on hpower _).trans ((if_neg fun h => hst (h.symm.trans hidle)).trans (if_pos hidle))

/-- A component between its download and its application is to be sent again. -/
theorem exec_cancelUpdateComponent (h : s.fw.pldm = .download ∨ s.fw.pldm = .verify ∨ s.fw.pldm = .apply) :
    exec .cancelUpdateComponent s = .next (pldmOut ccOK []
      { s with fw := { s.fw with pldm := .ready, image := [], imageLen := 0, verified := false } }) :=
  congrArg Host.Outcome.next ((pldmReq_on hpower _).trans (if_pos h))

theorem exec_cancelUpdateComponent_idle (hidle : s.fw.pldm = .idle) :
    exec .cancelUpdateComponent s = .next (pldmOut ccNOT_IN_UPDATE [] s) :=
  congrArg Host.Outcome.next ((pldmReq_on hpower _).trans ((if_neg (by simp [hidle])).trans (if_pos hidle)))

theorem exec_cancelUpdate_idle (hidle : s.fw.pldm = .idle) : exec .cancelUpdate s = .next (pldmOut ccNOT_IN_UPDATE [] s) :=
  congrArg Host.Outcome.next ((pldmReq_on hpower _).trans (if_pos hidle))

end Acorns

/-- Settles O53: a command in its own state has its effect (`pldmIn_state`), and outside an update it is turned away (`pldmIn_idle`). -/
theorem firmwareUpdateRuns : Obligations.FirmwareUpdateRuns := by
  refine ⟨fun s hpower => ⟨?request, ?again, ?table, ?component, ?bytes, ?transferred, ?verified, ?invalid, ?applied, ?activated, ?early,
    exec_cancelUpdateComponent hpower, ?cancelled, ?status, ?identifiers⟩, ?idle⟩
  case request => exact fun h => congrArg Host.Outcome.next ((pldmReq_on hpower _).trans (if_pos h))
  case again => exact fun h => congrArg Host.Outcome.next ((pldmReq_on hpower _).trans (if_neg h))
  case table => exact fun h => congrArg Host.Outcome.next (pldmIn_state hpower _ h)
  case component =>
    exact fun size h hlow hhigh => congrArg Host.Outcome.next ((pldmIn_state hpower _ h).trans (if_neg (by omega)))
  case bytes => exact fun bs h => congrArg Host.Outcome.next (pldmIn_state hpower _ h)
  case transferred =>
    exact fun h hall => congrArg Host.Outcome.next ((pldmIn_state hpower _ h).trans (if_neg (Nat.not_lt.mpr hall)))
  case verified => exact fun h hvalid => congrArg Host.Outcome.next ((pldmIn_state hpower _ h).trans (if_pos hvalid))
  case invalid =>
    exact fun h hbad => congrArg Host.Outcome.next ((pldmIn_state hpower _ h).trans (if_neg (Bool.eq_false_iff.mp hbad)))
  case applied => exact fun h => congrArg Host.Outcome.next (pldmIn_state hpower _ h)
  case activated => exact fun h hverified => congrArg Host.Outcome.next ((pldmIn_state hpower _ h).trans (if_pos hverified))
  case early =>
    exact fun h hnot => congrArg Host.Outcome.next ((pldmIn_state hpower _ h).trans (if_neg (Bool.eq_false_iff.mp hnot)))
  case cancelled => exact fun h => congrArg Host.Outcome.next ((pldmReq_on hpower _).trans (if_neg h))
  case status => exact congrArg Host.Outcome.next (pldmReq_on hpower _)
  case identifiers => exact congrArg Host.Outcome.next (pldmReq_on hpower _)
  case idle =>
    intro s c hpower hidle hc
    refine (?_ : ∀ c ∈ _, exec c s = .next (pldmOut ccNOT_IN_UPDATE [] s)) c hc
    simp only [List.forall_mem_cons, List.not_mem_nil, false_imp_iff, implies_true, exec_cancelUpdateComponent_idle hpower hidle,
      exec_cancelUpdate_idle hpower hidle, and_true]
    and_intros
    all_goals exact congrArg Host.Outcome.next (pldmIn_idle hpower _ hidle (by decide))

end Sys2Proof.Machine
end

section
/-! What a walk over a list reaches: shared by the resets, the clearing reads and the upkeep of memory below. -/

namespace Sys2Proof.Machine

open Sys2Proof

/-- What one element's step makes so and every step keeps so is so after the walk. -/
theorem foldl_reaches {α β : Type} {f : β → α → β} {P : β → Prop} {l : List α} {a : α} (ha : a ∈ l) (hmake : ∀ t, P (f t a))
    (hkeep : ∀ t x, P t → P (f t x)) (s : β) : P (l.foldl f s) := by
  obtain ⟨l₁, l₂, rfl⟩ := List.append_of_mem ha
  rw [List.foldl_append, List.foldl_cons]
  exact List.foldlRecOn (motive := P) l₂ f (hmake _) (fun t ht x _ => hkeep t x ht)

end Sys2Proof.Machine
end

section
/-! Partners on the switch: adding, probing, losing, draining and removing (R351, R352, R354; O18). -/

namespace Sys2Proof.Machine

open Sys2Proof

/-! ### PARTNER_ADD and its probe (R351) -/

/-- The record of a partner that a submission adds, while it is probed. -/
def probedPartner (sub : Submission) (tok : CmdTok) : Partner :=
  { state := .probing, kind := ent sub.entry 81 80, port := ent sub.entry 83 82, uio := bit sub.entry.toNat 84,
    probe := ent sub.entry 159 96, completer := 0, tok := some tok }

/-- An ABSENT ID over a port in service is probed (R351). -/
theorem partnerAdd_probes {s : State} {sub : Submission} {id : Nat} (tok : CmdTok) (hid : ent sub.entry 79 64 = id)
    (hcheck : checkCmd spPartnerAdd false sub (32 ≤ id && id ≤ 95 && (ent sub.entry 81 80 = 1 || ent sub.entry 81 80 = 2) &&
      ent sub.entry 159 96 % 4 = 0) true s = none)
    (habsent : (getPartner s id).state = .absent) (hup : portUp s (ent sub.entry 83 82) = true) :
    partnerAdd sub tok s =
      postFirst tok 0 (emit (.probe id (ent sub.entry 159 96)) (setPartner id (probedPartner sub tok) s)) := by
  subst hid
  have hgood : ¬(decide ((getPartner s (ent sub.entry 79 64)).state ≠ .absent) || !portUp s (ent sub.entry 83 82)) = true := by
    simp [habsent, hup]
  dsimp only [partnerAdd]
  exact (guarded_pass _ hcheck).trans (if_neg hgood)

theorem partnerFinal_some {p : Partner} {tok : CmdTok} (st : Status) (s : State) (h : p.tok = some tok) :
    partnerFinal p st s = postFinal tok st 0 0 s := by
  rw [partnerFinal, h]

theorem probeComplete_found {s : State} {id : Nat} {tok : CmdTok} (completer : Nat) (hstate : (getPartner s id).state = .probing)
    (htok : (getPartner s id).tok = some tok) : probeComplete id true completer s = postFinal tok stOK 0 0
      (postDevice 0x08 id (getPartner s id).kind
        (setPartner id { getPartner s id with state := .active, completer := completer % 2 ^ 16, tok := none } s)) :=
  (if_neg (not_not_intro hstate)).trans ((if_pos rfl).trans (partnerFinal_some _ _ htok))

theorem probeComplete_gone {s : State} {id : Nat} {tok : CmdTok} (completer : Nat) (hstate : (getPartner s id).state = .probing)
    (htok : (getPartner s id).tok = some tok) :
    probeComplete id false completer s = postFinal tok stPARTNER_GONE 0 0 (setPartner id {} s) :=
  (if_neg (not_not_intro hstate)).trans ((if_neg Bool.false_ne_true).trans (partnerFinal_some _ _ htok))

/-! ### Time-outs and containment (R352) -/

/-- With no park or ship over the partner's windows and no node named, a time-out fails no request. -/
theorem failRequest_none {s : State} {id : Nat} (h : senderOver s id = none) : failRequest id none s = s := by
  simp only [failRequest, h]

theorem completionTimeout_active {s : State} {id : Nat} (hstate : (getPartner s id).state = .active) (hsender : senderOver s id = none) :
    completionTimeout id none s = emit (.probe id (getPartner s id).probe) (setPartner id { getPartner s id with state := .confirming }
      (noteAer (getPartner s id).port 14 s)) := by
  have hsender' : senderOver (noteAer (getPartner s id).port 14 s) id = none := hsender
  refine (if_pos hstate).trans ?_
  rw [failRequest_none hsender']

theorem confirmResult_found {s : State} {id : Nat} (hstate : (getPartner s id).state = .confirming) :
    confirmResult id true s = setPartner id { getPartner s id with state := .active } s :=
  (if_neg (not_not_intro hstate)).trans (if_pos rfl)

theorem containment_loses {s : State} {id c : Nat} (hstate : (getPartner s id).state = .active ∨ (getPartner s id).state = .confirming)
    (hother : (getPartner s id).completer ≠ c) : containment id c s = losePartner id s := by
  refine (if_neg hother).trans ?_
  rcases hstate with h | h <;> rw [h]

/-- A removal that began in this cycle ends as one of a LOST partner does. -/
theorem containment_ends_removal {s : State} {id c : Nat} {tok : CmdTok} (hstate : (getPartner s id).state = .removing)
    (htok : (getPartner s id).tok = some tok) (hnow : (getPartner s id).removeAt = now s) (hother : (getPartner s id).completer ≠ c) :
    containment id c s = postFinal tok stOK 0 0 (setPartner id {} (dropWindows id (losePartner id s))) := by
  refine (if_neg hother).trans ?_
  rw [hstate]
  exact (if_pos hnow).trans (partnerFinal_some _ _ htok)

/-! ### PARTNER_REMOVE (R354) -/

section Remove

variable {s : State} {sub : Submission} (tok : CmdTok) (hcheck : checkCmd spPartnerRemove false sub true true s = none)
  (hforce : entFlag sub.entry = false) (hfree : removeBlocked s (ent sub.entry 79 64) = false)

include hcheck hforce hfree

theorem partnerRemove_lost (hstate : (getPartner s (ent sub.entry 79 64)).state = .lost) :
    partnerRemove sub tok s = removeLost (ent sub.entry 79 64) tok s := by
  have hthere : decide ((getPartner s (ent sub.entry 79 64)).state ≠ .absent) = true := by simp [hstate]
  dsimp only [partnerRemove]
  rw [hthere, guarded_pass _ hcheck, hstate, hforce, hfree, if_neg (by decide)]

theorem partnerRemove_active (hstate : (getPartner s (ent sub.entry 79 64)).state = .active) :
    partnerRemove sub tok s = postFirst tok 0 (setPartner (ent sub.entry 79 64)
      { getPartner s (ent sub.entry 79 64) with state := .removing, tok := some tok, removeAt := now s } s) := by
  have hthere : decide ((getPartner s (ent sub.entry 79 64)).state ≠ .absent) = true := by simp [hstate]
  dsimp only [partnerRemove]
  rw [hthere, guarded_pass _ hcheck, hstate, hforce, hfree, if_neg (by decide)]

end Remove

theorem partnerDrained_ends {s : State} {id : Nat} {tok : CmdTok} (hstate : (getPartner s id).state = .removing)
    (htok : (getPartner s id).tok = some tok) (hdrained : drainedOf s id = true) :
    partnerDrained id s = postFinal tok stOK 0 0 (setPartner id {} (dropWindows id s)) :=
  (if_pos (by simp [hstate, hdrained])).trans (partnerFinal_some _ _ htok)

/-- Settles O18: a partner is probed (`partnerAdd_probes`, `probeComplete_…`), doubted (`completionTimeout_active`,
`confirmResult_found`), lost (`containment_loses`) and removed (`partnerRemove_…`, `containment_ends_removal`, `partnerDrained_ends`). -/
theorem partnerCommandsRun : Obligations.PartnerCommandsRun := by
  refine ⟨⟨?add, ?probed, ?timeout, ?confirmed⟩, ?lost, ?remove, ?removeLost, ?drained⟩
  case add =>
    rintro s sub _ id rfl htakes hid hcheck habsent hup
    exact congrArg Host.Outcome.next ((runCmd_takes _ htakes).trans (partnerAdd_probes (s := taken sub s) _ hid hcheck habsent hup))
  case probed =>
    rintro s id c _ tok rfl hstate htok
    exact ⟨congrArg Host.Outcome.next (probeComplete_found c hstate htok), congrArg Host.Outcome.next (probeComplete_gone c hstate htok)⟩
  case timeout => exact fun s id hstate hsender => congrArg Host.Outcome.next (completionTimeout_active hstate hsender)
  case confirmed => exact fun s id hstate => congrArg Host.Outcome.next (confirmResult_found hstate)
  case lost => exact fun s id c hstate hother => congrArg Host.Outcome.next (containment_loses hstate hother)
  case remove =>
    rintro s sub _ htakes rfl hcheck hforce hfree
    have hruns : exec (.partnerRemove sub) s = .next (partnerRemove sub (tokIn s sub) (taken sub s)) :=
      congrArg Host.Outcome.next (runCmd_takes _ htakes)
    rw [hruns]
    exact ⟨fun hstate => congrArg Host.Outcome.next (partnerRemove_lost (s := taken sub s) _ hcheck hforce hfree hstate),
      fun hstate => congrArg Host.Outcome.next (partnerRemove_active (s := taken sub s) _ hcheck hforce hfree hstate)⟩
  case removeLost =>
    exact fun s id c tok hstate htok hnow hother => congrArg Host.Outcome.next (containment_ends_removal hstate htok hnow hother)
  case drained => exact fun s id tok hstate htok hdrained => congrArg Host.Outcome.next (partnerDrained_ends hstate htok hdrained)

end Sys2Proof.Machine
end

section
/-! Offering, accepting and claiming ownership (R344, R345; O19). -/

namespace Sys2Proof.Machine

open Sys2Proof

section Transfer

variable {s : State} {sub : Submission} (tok : CmdTok)

theorem ownerOffer_offers (hcheck : checkCmd spOwner false sub (ownerMode sub.entry = 0) true s = none) (howner : s.owner = some sub.mbx.fn) :
    ownerOffer sub tok s = only sub tok stOK 0 0 { s with offer := some (ent sub.entry 67 66, ent sub.entry 95 80, now s) } := by
  dsimp only [ownerOffer]
  exact (guarded_pass _ hcheck).trans (if_neg (not_not_intro howner))

theorem ownerAccept_decides (hcheck : checkCmd spOwner false sub true true s = none) :
    ownerAccept sub tok s = if offerStands s sub.mbx.fn (ent sub.entry 95 80) then
      only sub tok stOK 0 0 { s with owner := some sub.mbx.fn, offer := none } else only sub tok stNOT_PERMITTED 0 0 s :=
  guarded_pass _ hcheck

theorem ownerClaim_claims {token : BitVec 4096} (hcheck : checkCmd spOwner false sub true true s = none) (hgone : ownerGone s = true)
    (htoken : tokenOk s 2 (fnPort sub.mbx.fn) token = true) :
    ownerClaim sub token tok s = only sub tok stOK 0 0 { s with owner := some sub.mbx.fn, offer := none } :=
  (guarded_pass _ hcheck).trans (if_pos (Bool.and_eq_true_iff.mpr ⟨hgone, htoken⟩))

end Transfer

theorem exec_offerLapse_late {s : State} {p c t : Nat} (hoffer : s.offer = some (p, c, t)) (hlate : t + 10000000000 ≤ now s) :
    exec .offerLapse s = .next { s with offer := none } := by
  change Host.Outcome.next (match s.offer with
    | some (_, _, t) => if t + offerLife ≤ now s then { s with offer := none } else s
    | none => s) = _
  rw [hoffer]
  exact congrArg Host.Outcome.next (if_pos hlate)

/-- Settles O19: each mode of OWNER_TRANSFER by its own rule, and an offer's lapse. -/
theorem ownershipRuns : Obligations.OwnershipRuns := by
  refine ⟨?offer, ?accept, ?claim, fun s p c t hoffer hlate => exec_offerLapse_late hoffer hlate⟩
  case offer =>
    intro s sub htakes hcheck howner
    exact congrArg Host.Outcome.next ((runCmd_takes _ htakes).trans (ownerOffer_offers (s := taken sub s) _ hcheck howner))
  case accept =>
    intro s sub htakes hcheck
    have hruns : exec (.ownerAccept sub) s = .next _ :=
      congrArg Host.Outcome.next ((runCmd_takes _ htakes).trans (ownerAccept_decides (s := taken sub s) _ hcheck))
    exact ⟨fun hstands => hruns.trans (congrArg Host.Outcome.next (if_pos hstands)),
      fun hnone => hruns.trans (congrArg Host.Outcome.next (if_neg (Bool.eq_false_iff.mp hnone)))⟩
  case claim =>
    intro s sub token htakes hcheck hgone htoken
    have hgone' : ownerGone (taken sub s) = true := hgone
    exact congrArg Host.Outcome.next ((runCmd_takes _ htakes).trans (ownerClaim_claims (s := taken sub s) _ hcheck hgone' htoken))

end Sys2Proof.Machine
end

section
/-! Function Level Reset, port reset and the other host commands (R341, R349, R350, R446; O21). -/

namespace Sys2Proof.Machine

open Sys2Proof

/-! ### What a reset of functions moves -/

/-- `s` with what a reset of functions moves taken from `t`: mailboxes, rings and vectors, and outputs. -/
def resetting (t s : State) : State := { s with mboxes := t.mboxes, funcs := t.funcs, out := t.out }

theorem resetting_trans {s t u : State} (hst : t = resetting t s) (htu : u = resetting u t) : u = resetting u s :=
  htu.trans (congrArg (resetting u) hst :)

theorem sameMemory_resetting (t s : State) : sameMemory s (resetting t s) := ⟨rfl, rfl, rfl, rfl, rfl⟩

theorem sameMemory_setPort {s t : State} (p : Nat) (q : Port) (h : sameMemory s t) : sameMemory s (setPort p q t) := h

/-- One mailbox of a function at its reset values, its epoch moved on. -/
def resetMailbox (m : Mbx) (s : State) : State :=
  if mbxExists m then setMbx m { epoch := (getMbx s m).epoch + 2 ^ 32 } s else s

theorem resetMailboxes_eq (fn : Nat) (s : State) : resetMailboxes fn s = (List.range 4).foldl (fun s m => resetMailbox ⟨fn, m⟩ s) s := rfl

theorem resetMailbox_frame (m : Mbx) (s : State) : resetMailbox m s = { s with mboxes := (resetMailbox m s).mboxes } := by
  unfold resetMailbox
  split <;> rfl

theorem resetMailboxes_frame (fn : Nat) (s : State) : resetMailboxes fn s = { s with mboxes := (resetMailboxes fn s).mboxes } :=
  List.foldlRecOn (motive := fun t : State => t = { s with mboxes := t.mboxes }) (List.range 4) (fun s m => resetMailbox ⟨fn, m⟩ s) rfl
    (fun t ht m _ => (resetMailbox_frame ⟨fn, m⟩ t).trans (congrArg (fun u : State => { u with mboxes := (resetMailbox ⟨fn, m⟩ t).mboxes }) ht))

/-- After a change of the mailboxes alone, a write of a function changes the functions too. -/
theorem setFunc_frame {s t : State} (h : t = { s with mboxes := t.mboxes }) (n : Nat) (v : Func) :
    setFunc n v t = { s with funcs := (setFunc n v t).funcs, mboxes := (setFunc n v t).mboxes } :=
  congrArg (fun u : State => { u with funcs := (setFunc n v t).funcs }) h

theorem loseHost_frame (fn : Nat) (s : State) : loseHost fn s = { s with funcs := (loseHost fn s).funcs, out := (loseHost fn s).out } := by
  unfold loseHost
  split
  · exact postDevice_frame ..
  · rfl

theorem loseHost_absent {s : State} {fn : Nat} (h : hostArrived s fn = false) : loseHost fn s = s := by
  simp [loseHost, h]

theorem resetFunction_resetting (fn : Nat) (s : State) : resetFunction fn s = resetting (resetFunction fn s) s := by
  have hlose : loseHost fn s = resetting (loseHost fn s) s := by rw [loseHost_frame]; rfl
  have hmboxes : resetMailboxes fn (loseHost fn s) = resetting (resetMailboxes fn (loseHost fn s)) (loseHost fn s) := by
    rw [resetMailboxes_frame]; rfl
  exact resetting_trans (resetting_trans hlose hmboxes) rfl

/-- Steps that reset functions reset functions together. -/
theorem resetting_foldl {α : Type} {f : State → α → State} (hf : ∀ s a, f s a = resetting (f s a) s) (l : List α) (s : State) :
    l.foldl f s = resetting (l.foldl f s) s :=
  List.foldlRecOn (motive := fun t => t = resetting t s) l f rfl (fun t ht a _ => resetting_trans ht (hf t a))

theorem dropVfs_resetting (p : Nat) (s : State) : dropVfs p s = resetting (dropVfs p s) s := by
  refine resetting_foldl (fun s k => ?_) _ s
  split
  · exact resetFunction_resetting ..
  · rfl

theorem flr_resetting (fn : Nat) (s : State) : flr fn s = resetting (flr fn s) s := by
  unfold flr
  split
  · exact resetting_trans (dropVfs_resetting ..) (resetFunction_resetting ..)
  · exact resetFunction_resetting ..

/-! ### The mailboxes of a function that is reset -/

/-- A mailbox at its reset values but for its epoch. -/
def AtReset (b : Mailbox) : Prop := b = { epoch := b.epoch }

theorem atReset_resetMailbox {s : State} {n : Mbx} (m : Mbx) (h : AtReset (getMbx s n)) : AtReset (getMbx (resetMailbox m s) n) := by
  unfold resetMailbox
  split
  · by_cases hkey : mbxKey n = mbxKey m
    · have hsame : ∀ t, getMbx t n = getMbx t m := fun t => congrArg (SMap.get ({} : Mailbox) t.mboxes) hkey
      rw [hsame, getMbx_setMbx]
      rfl
    · rwa [getMbx_setMbx_other _ _ hkey]
  · exact h

theorem atReset_resetMailbox_same {m : Mbx} (s : State) (h : mbxExists m = true) : AtReset (getMbx (resetMailbox m s) m) := by
  rw [resetMailbox, if_pos h, getMbx_setMbx]
  rfl

theorem atReset_resetMailboxes {fn m : Nat} (s : State) (hm : m < 4) (h : mbxExists ⟨fn, m⟩ = true) :
    AtReset (getMbx (resetMailboxes fn s) ⟨fn, m⟩) := by
  rw [resetMailboxes_eq]
  exact foldl_reaches (P := fun t => AtReset (getMbx t ⟨fn, m⟩)) (List.mem_range.mpr hm) (fun t => atReset_resetMailbox_same t h)
    (fun t k ht => atReset_resetMailbox ⟨fn, k⟩ ht) s

theorem getMbx_setFunc (n : Nat) (v : Func) (s : State) (m : Mbx) : getMbx (setFunc n v s) m = getMbx s m := rfl

/-! ### The functions under a reset -/

/-- The capabilities of a function that a Function Level Reset keeps (log entry 12). -/
def keptCaps (f : Func) : Nat × Nat := (f.aer, f.mps)

theorem keptCaps_setFunc {s : State} {n : Nat} {v : Func} (h : keptCaps v = keptCaps (getFunc s n)) (g : Nat) :
    keptCaps (getFunc (setFunc n v s) g) = keptCaps (getFunc s g) := by
  by_cases hg : g = n
  · subst hg
    rw [getFunc_setFunc, h]
  · rw [getFunc_setFunc_other _ _ hg]

theorem getFunc_emit (o : Out) (s : State) (g : Nat) : getFunc (emit o s) g = getFunc s g := rfl

theorem keptCaps_pendVec (fn v : Nat) (s : State) (g : Nat) : keptCaps (getFunc (pendVec fn v s) g) = keptCaps (getFunc s g) :=
  keptCaps_setFunc (by rfl) g

theorem keptCaps_postTo (fn code : Nat) (pod : Option Nat) (d0 d1 : Nat) (s : State) (g : Nat) :
    keptCaps (getFunc (postTo fn code pod d0 d1 s) g) = keptCaps (getFunc s g) := by
  unfold postTo
  dsimp only
  split
  · rw [keptCaps_pendVec, getFunc_emit]
    exact keptCaps_setFunc (by rfl) g
  · split
    · exact keptCaps_setFunc (by rfl) g
    · rw [keptCaps_pendVec]
      exact keptCaps_setFunc (by rfl) g

theorem keptCaps_foldl {α : Type} {f : State → α → State} (g : Nat) (hf : ∀ s a, keptCaps (getFunc (f s a) g) = keptCaps (getFunc s g))
    (l : List α) (s : State) : keptCaps (getFunc (l.foldl f s) g) = keptCaps (getFunc s g) :=
  List.foldlRecOn (motive := fun t => keptCaps (getFunc t g) = keptCaps (getFunc s g)) l f rfl (fun t ht a _ => (hf t a).trans ht)

theorem keptCaps_loseHost (fn : Nat) (s : State) (g : Nat) : keptCaps (getFunc (loseHost fn s) g) = keptCaps (getFunc s g) := by
  unfold loseHost
  split
  · exact keptCaps_foldl g (fun s fn => keptCaps_postTo fn _ _ _ _ s g) _ s
  · rfl

theorem getFunc_resetMailboxes (fn : Nat) (s : State) (g : Nat) : getFunc (resetMailboxes fn s) g = getFunc s g := by
  rw [resetMailboxes_frame]
  rfl

/-- The function that a reset leaves: its event count, and what it keeps of its capabilities (R318, R341). -/
theorem getFunc_resetFunction (fn : Nat) (s : State) : getFunc (resetFunction fn s) fn =
    { seq := (getFunc (loseHost fn s) fn).seq, aer := (getFunc s fn).aer, mps := (getFunc s fn).mps } := by
  obtain ⟨haer, hmps⟩ := Prod.mk.inj (keptCaps_loseHost fn s fn)
  refine (getFunc_setFunc ..).trans ?_
  rw [getFunc_resetMailboxes, haer, hmps]

theorem keptCaps_resetFunction (fn : Nat) (s : State) (g : Nat) : keptCaps (getFunc (resetFunction fn s) g) = keptCaps (getFunc s g) := by
  unfold resetFunction
  dsimp only
  rw [keptCaps_setFunc (by rfl)]
  rw [getFunc_resetMailboxes]
  exact keptCaps_loseHost fn s g

theorem keptCaps_dropVfs (p : Nat) (s : State) (g : Nat) : keptCaps (getFunc (dropVfs p s) g) = keptCaps (getFunc s g) := by
  refine keptCaps_foldl g (fun s k => ?_) _ s
  split
  · exact keptCaps_resetFunction ..
  · rfl

theorem isPF_of_lt {p : Nat} (h : p < 4) : isPF p = true := decide_eq_true h

theorem fnThere_pf {p : Nat} (s : State) (h : p < 4) : fnThere s p = true := by
  have hp : p < 20 := by omega
  simp [fnThere, hp, isPF_of_lt h]

/-- With VF Enable clear no VF of the port is there. -/
theorem fnThere_vf_disabled {s : State} {p k : Nat} (hk : k < 4) (h : (getFunc s p).vfEnable = false) :
    fnThere s (4 + 4 * p + k) = false := by
  have hport : fnPort (4 + 4 * p + k) = p := by
    rw [fnPort, if_neg (by omega)]
    omega
  have hvf : isPF (4 + 4 * p + k) = false := decide_eq_false (by omega)
  simp [fnThere, hvf, hport, h]

theorem exec_functionLevelReset {s : State} {fn : Nat} (h : fnThere s fn = true) : exec (.functionLevelReset fn) s = .next (flr fn s) :=
  congrArg Host.Outcome.next (if_pos h)

/-- A VF that is no host partner is reset, and nothing else is. -/
theorem flr_vf {s : State} {fn : Nat} (hvf : isPF fn = false) (habsent : hostArrived s fn = false) : flr fn s =
    setFunc fn { seq := (getFunc s fn).seq, aer := (getFunc s fn).aer, mps := (getFunc s fn).mps } (resetMailboxes fn s) := by
  rw [flr, hvf, if_neg Bool.false_ne_true, resetFunction, loseHost_absent habsent, getFunc_resetMailboxes]

theorem flr_pf (s : State) {p : Nat} (h : p < 4) : flr p s = resetFunction p (dropVfs p s) := by
  rw [flr, isPF_of_lt h, if_pos rfl]

theorem getFunc_flr_pf (s : State) {p : Nat} (h : p < 4) : getFunc (flr p s) p =
    { seq := (getFunc (loseHost p (dropVfs p s)) p).seq, aer := (getFunc s p).aer, mps := (getFunc s p).mps } := by
  obtain ⟨haer, hmps⟩ := Prod.mk.inj (keptCaps_dropVfs p s p)
  rw [flr_pf s h, getFunc_resetFunction, haer, hmps]

/-! ### Port reset, Bus Master Enable, IDE keys and PERST_N (R341, R350, R446, R469) -/

/-- The part when every function of a port is reset. -/
def portFnsReset (p : Nat) (s : State) : State := (portFns p).foldl (fun s fn => flr fn s) s

theorem portFnsReset_resetting (p : Nat) (s : State) : portFnsReset p s = resetting (portFnsReset p s) s :=
  resetting_foldl (fun s fn => flr_resetting fn s) _ s

theorem portReset_up (s : State) {p : Nat} (h : p < 4) :
    portReset p false s = setPort p { getPort (portFnsReset p s) p with ide := [] } (portFnsReset p s) :=
  (if_neg (Nat.not_le.mpr h)).trans (if_neg Bool.false_ne_true)

theorem busMaster_arrives {s : State} {fn : Nat} (hthere : fnThere s fn = true) (hoff : (getFunc s fn).bme = false)
    (hup : (getPort s (fnPort fn)).linkUp = true) :
    busMaster fn true s = postDevice 0x08 (hostPartnerId fn) 0 (setFunc fn { getFunc s fn with bme := true } s) :=
  (if_neg (by simp [hthere, hoff])).trans ((if_pos rfl).trans (if_pos hup))

theorem perstRelease_trains {s : State} {p : Nat} (hp : p < 4) (hstage : 4 ≤ s.fw.stage) (ht0 : s.fw.t0 + 100000000 ≤ now s)
    (hhub : hubFenced s (p / 2) = false) (hdown : (getPort s p).linkUp = false) :
    perstRelease p s = setPort p (trained s.freeIdx (getPort s p)) { s with freeIdx := s.freeIdx + 4 } :=
  if_pos (by simp [hp, hstage, ht0, hhub, hdown])

/-- Settles O21: a function is left as `getFunc_resetFunction` says, its mailboxes as `atReset_resetMailboxes` says, and a reset of
functions moves nothing else (`flr_resetting`); each other command has its own rule. -/
theorem hostResetsRun : Obligations.HostResetsRun := by
  refine ⟨?vf, ?pf, ?port, ?busMaster, fun s fn pg hthere => congrArg Host.Outcome.next (if_pos hthere), ?ide, ?perst⟩
  case vf =>
    intro s fn hthere hvf habsent
    refine ⟨_, (exec_functionLevelReset hthere).trans (congrArg Host.Outcome.next (flr_vf hvf habsent)), getFunc_setFunc .., ?_, ?_, ?_⟩
    · intro g hg
      rw [getFunc_setFunc_other _ _ hg, getFunc_resetMailboxes]
    · intro m hm hexists
      rw [getMbx_setFunc, atReset_resetMailboxes s hm hexists]
      exact ⟨rfl, rfl, rfl, rfl⟩
    · exact setFunc_frame (resetMailboxes_frame fn s) ..
  case pf =>
    intro s p hp
    have hfunc := getFunc_flr_pf s hp
    refine ⟨flr p s, _, exec_functionLevelReset (fnThere_pf s hp), hfunc, fun k hk => fnThere_vf_disabled hk (by rw [hfunc]), ?_⟩
    rw [flr_resetting]
    exact ⟨sameMemory_resetting _ s, rfl, rfl⟩
  case port =>
    intro s p hp
    refine ⟨_, congrArg Host.Outcome.next (portReset_up s hp), ?_⟩
    rw [getPort_setPort, portFnsReset_resetting]
    exact ⟨rfl, rfl, sameMemory_setPort _ _ (sameMemory_resetting _ s), rfl⟩
  case busMaster => exact fun s fn hthere hoff hup => congrArg Host.Outcome.next (busMaster_arrives hthere hoff hup)
  case ide =>
    intro s p st k key id hp hst hk hlife hsession
    exact congrArg Host.Outcome.next (if_pos (by simp [hp, hst, hk, hlife, hsession]))
  case perst =>
    intro s p hp hstage ht0 hhub hdown
    refine ⟨_, congrArg Host.Outcome.next (perstRelease_trains hp hstage ht0 hhub hdown), ?_, ?_, rfl⟩ <;> rw [getPort_setPort] <;> rfl

end Sys2Proof.Machine
end

section
/-! Register reads of the CSR range and what they clear (R14, R64, R233, R346, R348, R408; O22). -/

namespace Sys2Proof.Machine

open Sys2Proof

/-! ### The register that holds an offset -/

theorem findSome?_unique {α β : Type} {f : α → Option β} {l : List α} {b : α} {v : β} (hb : b ∈ l) (hv : f b = some v)
    (hother : ∀ a ∈ l, a = b ∨ f a = none) : l.findSome? f = some v := by
  induction l with
  | nil => exact absurd hb List.not_mem_nil
  | cons a l ih =>
    rw [List.findSome?_cons]
    rcases hother a List.mem_cons_self with rfl | hnone
    · rw [hv]
    · rw [hnone]
      refine ih ?_ (fun x hx => hother x (List.mem_cons_of_mem _ hx))
      rcases List.mem_cons.mp hb with rfl | hmem
      · exact absurd (hv.symm.trans hnone) (Option.some_ne_none v)
      · exact hmem

/-- The groups of the CSR range do not overlap, and a register is no wider than its stride. -/
theorem csrMap_disjoint : ∀ a ∈ csrMap, ∀ b ∈ csrMap,
    a = b ∨ a.base + a.count * a.stride ≤ b.base ∨ b.base + b.count * b.stride ≤ a.base := by decide +kernel

theorem csrMap_width : ∀ b ∈ csrMap, b.width ≤ b.stride := by decide +kernel

/-- Byte k of register n of a group lies where the map says. -/
theorem csrFind_at {b : CsrBlock} (hb : b ∈ csrMap) {n k : Nat} (hn : n < b.count) (hk : k < b.width) :
    csrFind (b.base + b.stride * n + k) = some (b.reg, n, k) := by
  have hwidth : k < b.stride := Nat.lt_of_lt_of_le hk (csrMap_width b hb)
  have hmod : (b.stride * n + k) % b.stride = k := by rw [Nat.mul_add_mod, Nat.mod_eq_of_lt hwidth]
  have hdiv : (b.stride * n + k) / b.stride = n := by
    rw [Nat.mul_add_div (by omega), Nat.div_eq_of_lt hwidth, Nat.add_zero]
  have hsub : b.base + b.stride * n + k - b.base = b.stride * n + k := by omega
  have hend : b.stride * n + k < b.count * b.stride :=
    calc b.stride * n + k < b.stride * n + b.stride := by omega
      _ = (n + 1) * b.stride := by rw [Nat.add_mul, Nat.mul_comm, Nat.one_mul]
      _ ≤ b.count * b.stride := Nat.mul_le_mul_right _ hn
  refine findSome?_unique hb ?_ (fun a ha => ?_)
  · rw [hsub, hmod, hdiv]
    exact if_pos ⟨by omega, by omega, hk⟩
  · refine (csrMap_disjoint a ha b hb).imp_right fun hapart => if_neg ?_
    rintro ⟨hlow, hhigh, -⟩
    omega

/-- A read inside one register of a group touches that register, byte by byte. -/
theorem csrReadBytes_touches {b : CsrBlock} (hb : b ∈ csrMap) {n j len : Nat} (hn : n < b.count) (hlen : j + len ≤ b.width) (s : State) :
    (csrReadBytes (b.base + b.stride * n + j) len s).2 = (List.range len).foldl (fun s i => csrTouch b.reg n (j + i) s) s := by
  refine List.foldl_ext _ _ s fun t i hi => ?_
  have hi' : i < len := List.mem_range.mp hi
  rw [Nat.add_assoc _ j i, csrFind_at hb hn (by omega)]

/-- A read of a whole register. -/
theorem csrReadBytes_register {b : CsrBlock} (hb : b ∈ csrMap) {n : Nat} (hn : n < b.count) (s : State) :
    (csrReadBytes (b.base + b.stride * n) b.width s).2 = (List.range b.width).foldl (fun s i => csrTouch b.reg n i s) s := by
  simpa only [Nat.zero_add, Nat.add_zero] using csrReadBytes_touches hb (j := 0) hn (Nat.zero_add _).le s

/-! ### Reads -/

theorem csrRead_reader {s : State} {req : Requester} (off len : Nat) (h : csrReader s req = true) :
    csrRead req off len s = emit (.read req (csrReadBytes off len s).1 false false) (csrReadBytes off len s).2 := if_pos h

/-- Whatever it answers, a reader's read leaves what its bytes touch. -/
theorem csrRead_emits {s : State} {req : Requester} (off len : Nat) (h : csrReader s req = true) :
    ∃ o, csrRead req off len s = emit o (csrReadBytes off len s).2 := ⟨_, csrRead_reader off len h⟩

theorem emit_mxFmt_frame {s t : State} (h : t = { s with mxFmt := t.mxFmt }) (o : Out) :
    emit o t = { s with mxFmt := (emit o t).mxFmt, out := (emit o t).out } :=
  congrArg (fun u : State => { u with out := (emit o t).out }) h

theorem emit_kvDropped_frame {s t : State} (h : t = { s with kvDropped := t.kvDropped }) (o : Out) :
    emit o t = { s with kvDropped := (emit o t).kvDropped, out := (emit o t).out } :=
  congrArg (fun u : State => { u with out := (emit o t).out }) h

theorem emit_ports_frame {s t : State} (h : t = { s with ports := t.ports }) (o : Out) :
    emit o t = { s with ports := (emit o t).ports, out := (emit o t).out } :=
  congrArg (fun u : State => { u with out := (emit o t).out }) h

/-! ### What a read clears (R14) -/

theorem clearFmt_clearFmt (w : Nat) (c : FmtCnt) : clearFmt w (clearFmt w c) = clearFmt w c := by
  match w with
  | 0 | 1 | 2 => rfl
  | _ + 3 => rfl

/-- One count of `MX_FMT_CNT` cleared. -/
def clearMxFmt (n w : Nat) (s : State) : State := { s with mxFmt := SMap.mod {} s.mxFmt n (clearFmt w) }

/-- A read of one count of `MX_FMT_CNT` clears it, once with each of its four bytes (R64). -/
theorem mxFmt_read {n w : Nat} (hn : n < 32) (hw : w < 4) (s : State) : (csrReadBytes (0x100000 + 16 * n + 4 * w) 4 s).2 =
    clearMxFmt n w (clearMxFmt n w (clearMxFmt n w (clearMxFmt n w s))) := by
  have hwidth : 4 * w + 4 ≤ 16 := by omega
  have hword : ∀ i ∈ List.range 4, (4 * w + i) / 4 = w := fun i hi => by
    have := List.mem_range.mp hi
    omega
  calc (csrReadBytes (0x100000 + 16 * n + 4 * w) 4 s).2
      = (List.range 4).foldl (fun s i => csrTouch .mxFmt n (4 * w + i) s) s :=
        csrReadBytes_touches (b := ⟨.mxFmt, 0x100000, 16, 32, 16⟩) (by decide) hn hwidth s
    _ = (List.range 4).foldl (fun s _ => clearMxFmt n w s) s :=
        List.foldl_ext _ _ s fun t i hi => by simp only [csrTouch, hword i hi, clearMxFmt]

theorem get_clearMxFmt (n w : Nat) (s : State) :
    SMap.get {} (clearMxFmt n w s).mxFmt n = clearFmt w (SMap.get {} s.mxFmt n) := SMap.get_set_same ..

theorem clearMxFmt_frame {n w : Nat} {s t : State} (h : t = { s with mxFmt := t.mxFmt }) :
    clearMxFmt n w t = { s with mxFmt := (clearMxFmt n w t).mxFmt } :=
  congrArg (fun u : State => { u with mxFmt := (clearMxFmt n w t).mxFmt }) h

theorem mxFmt_read_clears {n w : Nat} (hn : n < 32) (hw : w < 4) {s t : State} (ht : (csrReadBytes (0x100000 + 16 * n + 4 * w) 4 s).2 = t) :
    SMap.get {} t.mxFmt n = clearFmt w (SMap.get {} s.mxFmt n) ∧ t = { s with mxFmt := t.mxFmt } := by
  subst ht
  rw [mxFmt_read hn hw]
  refine ⟨?_, clearMxFmt_frame (clearMxFmt_frame (clearMxFmt_frame (clearMxFmt_frame rfl)))⟩
  simp only [get_clearMxFmt, clearFmt_clearFmt]

/-- A read of `HUB_KV_LAND` touches it byte by byte (R233). -/
theorem kvLand_read {n : Nat} (hn : n < 16) (s : State) :
    (csrReadBytes (0x300000 + 64 * n) 64 s).2 = (List.range 64).foldl (fun s i => csrTouch .kvLand n i s) s :=
  csrReadBytes_register (b := ⟨.kvLand, 0x300000, 64, 16, 64⟩) (by decide) hn s

theorem csrTouch_kvLand (n k : Nat) (s : State) :
    csrTouch .kvLand n k s = if k = 12 ∨ k = 13 then { s with kvDropped := SMap.set 0 s.kvDropped n 0 } else s := rfl

theorem csrTouch_kvLand_frame (n k : Nat) (s : State) :
    csrTouch .kvLand n k s = { s with kvDropped := (csrTouch .kvLand n k s).kvDropped } := by
  rw [csrTouch_kvLand]
  split <;> rfl

theorem kvDropped_cleared (n : Nat) (s : State) :
    SMap.get 0 ((List.range 64).foldl (fun s i => csrTouch .kvLand n i s) s).kvDropped n = 0 := by
  refine foldl_reaches (P := fun t : State => SMap.get 0 t.kvDropped n = 0) (a := 12) (by decide) (fun t => ?_) (fun t k ht => ?_) s
  · rw [csrTouch_kvLand, if_pos (by decide)]
    exact SMap.get_set_same (0 : Nat) t.kvDropped n 0
  · rw [csrTouch_kvLand]
    split
    · exact SMap.get_set_same (0 : Nat) t.kvDropped n 0
    · exact ht

theorem kvLand_read_frame (n : Nat) (s : State) : (List.range 64).foldl (fun s i => csrTouch .kvLand n i s) s =
    { s with kvDropped := ((List.range 64).foldl (fun s i => csrTouch .kvLand n i s) s).kvDropped } :=
  List.foldlRecOn (motive := fun t : State => t = { s with kvDropped := t.kvDropped }) (List.range 64) (fun s i => csrTouch .kvLand n i s) rfl
    (fun t ht k _ => (csrTouch_kvLand_frame n k t).trans
      (congrArg (fun u : State => { u with kvDropped := (csrTouch .kvLand n k t).kvDropped }) ht))

/-- What reading byte `k` of `HUB_PORT_REFUSE` clears (R348). -/
def clearRefuse (k : Nat) (p : Port) : Port :=
  if k < 4 then { p with wrDrop := 0 } else if k < 8 then { p with rdAbort := 0 } else if k < 10 then { p with uioAbort := 0 } else p

theorem kvLand_read_clears {n : Nat} (hn : n < 16) {s t : State} (ht : (csrReadBytes (0x300000 + 64 * n) 64 s).2 = t) :
    SMap.get 0 t.kvDropped n = 0 ∧ t = { s with kvDropped := t.kvDropped } := by
  rw [kvLand_read hn] at ht
  subst ht
  exact ⟨kvDropped_cleared n s, kvLand_read_frame n s⟩

theorem portRefuse_read {n : Nat} (hn : n < 4) (s : State) : (csrReadBytes (0x307000 + 32 * n) 32 s).2 =
    (List.range 32).foldl (fun s i => setPort n (clearRefuse i (getPort s n)) s) s :=
  csrReadBytes_register (b := ⟨.portRefuse, 0x307000, 32, 4, 32⟩) (by decide) hn s

theorem getPort_modify_all (f : Nat → Port → Port) (l : List Nat) (n : Nat) (s : State) :
    getPort (l.foldl (fun s i => setPort n (f i (getPort s n)) s) s) n = l.foldl (fun p i => f i p) (getPort s n) := by
  induction l generalizing s with
  | nil => rfl
  | cons i l ih => rw [List.foldl_cons, ih, getPort_setPort, List.foldl_cons]

theorem portRefuse_read_frame (n : Nat) (s : State) : (List.range 32).foldl (fun s i => setPort n (clearRefuse i (getPort s n)) s) s =
    { s with ports := ((List.range 32).foldl (fun s i => setPort n (clearRefuse i (getPort s n)) s) s).ports } :=
  List.foldlRecOn (motive := fun t : State => t = { s with ports := t.ports }) (List.range 32)
    (fun s i => setPort n (clearRefuse i (getPort s n)) s) rfl
    (fun t ht k _ => congrArg (fun u : State => { u with ports := (setPort n (clearRefuse k (getPort t n)) t).ports }) ht)

theorem clearRefuse_frame (k : Nat) (p : Port) : clearRefuse k p =
    { p with wrDrop := (clearRefuse k p).wrDrop, rdAbort := (clearRefuse k p).rdAbort, uioAbort := (clearRefuse k p).uioAbort } := by
  unfold clearRefuse
  split_ifs <;> rfl

/-- The 32 bytes of `HUB_PORT_REFUSE` clear its three counts, at bytes 0, 4 and 8. -/
theorem clearRefuse_all (p : Port) :
    (List.range 32).foldl (fun p i => clearRefuse i p) p = { p with wrDrop := 0, rdAbort := 0, uioAbort := 0 } := by
  have hkeep : ∀ (count : Port → Nat) (k : Nat), k ∈ List.range 32 → (∀ t, count (clearRefuse k t) = 0) →
      (∀ t i, count t = 0 → count (clearRefuse i t) = 0) → count ((List.range 32).foldl (fun p i => clearRefuse i p) p) = 0 :=
    fun count k hk hmake hkeep => foldl_reaches (P := fun t => count t = 0) hk hmake hkeep p
  have hwr := hkeep Port.wrDrop 0 (by decide) (fun t => rfl) (fun t i ht => by unfold clearRefuse; split_ifs <;> simp [ht])
  have hrd := hkeep Port.rdAbort 4 (by decide) (fun t => rfl) (fun t i ht => by unfold clearRefuse; split_ifs <;> simp [ht])
  have huio := hkeep Port.uioAbort 8 (by decide) (fun t => rfl) (fun t i ht => by unfold clearRefuse; split_ifs <;> simp [ht])
  have hframe : ∀ t, t = (List.range 32).foldl (fun p i => clearRefuse i p) p →
      t = { p with wrDrop := t.wrDrop, rdAbort := t.rdAbort, uioAbort := t.uioAbort } := by
    rintro _ rfl
    exact List.foldlRecOn (motive := fun t : Port => t = { p with wrDrop := t.wrDrop, rdAbort := t.rdAbort, uioAbort := t.uioAbort })
      (List.range 32) (fun p i => clearRefuse i p) rfl (fun t ht k _ => (clearRefuse_frame k t).trans
        (congrArg (fun u : Port => { u with wrDrop := (clearRefuse k t).wrDrop, rdAbort := (clearRefuse k t).rdAbort,
                                            uioAbort := (clearRefuse k t).uioAbort }) ht))
  rw [hframe _ rfl, hwr, hrd, huio]

theorem portRefuse_read_clears {n : Nat} (hn : n < 4) {s t : State} (ht : (csrReadBytes (0x307000 + 32 * n) 32 s).2 = t) :
    getPort t n = { getPort s n with wrDrop := 0, rdAbort := 0, uioAbort := 0 } ∧ t = { s with ports := t.ports } := by
  rw [portRefuse_read hn] at ht
  subst ht
  exact ⟨(getPort_modify_all clearRefuse _ n s).trans (clearRefuse_all _), portRefuse_read_frame n s⟩

/-- JUMPS cleared. -/
def clearJumps (s : State) : State := { s with clock := { s.clock with jumps := 0 } }

theorem csrTouch_syncRef (k : Nat) (s : State) : csrTouch .syncRef 0 k s = if k = 6 then clearJumps s else s := rfl

/-- A read of `SYNC_REF_STAT` clears JUMPS (R408). -/
theorem syncRef_read (s : State) : (csrReadBytes 0x306000 8 s).2 = clearJumps s := by
  have htouch : (csrReadBytes 0x306000 8 s).2 = (List.range 8).foldl (fun s i => csrTouch .syncRef 0 i s) s :=
    csrReadBytes_register (b := ⟨.syncRef, 0x306000, 8, 1, 8⟩) (by decide) (n := 0) (by decide) s
  rw [htouch]
  simp only [csrTouch_syncRef]
  rfl

/-- Settles O22: a reader's read answers the register's bytes (`csrRead_reader`) and touches the register byte by byte
(`csrReadBytes_touches`), which clears what the register's rule says. -/
theorem registerReadsRun : Obligations.RegisterReadsRun := by
  refine ⟨fun s req hreader => ?reads, fun s req hreader => ?clears⟩
  case reads =>
    have hread : ∀ off len, csrRead req off len s = emit (.read req (csrReadBytes off len s).1 false false) (csrReadBytes off len s).2 :=
      fun off len => csrRead_reader off len hreader
    have hcount : ∀ {c : Bool} (off : Nat), c = true → Host.Outcome.next (φ := Fault) (ρ := Refusal) (if c then csrRead req off 4 s else s) = _ :=
      fun off hc => congrArg Host.Outcome.next ((if_pos hc).trans (hread off 4))
    refine ⟨fun n w hn hw => hcount _ (by simp [hn, hw]), fun n w hn hw => hcount _ (by simp [hn, hw]), ?_⟩
    refine ⟨?_, ?_, ?_, ?_, ?_, congrArg Host.Outcome.next (hread 0x306000 8), ?_⟩
    all_goals exact fun n hn => congrArg Host.Outcome.next ((if_pos hn).trans (hread _ _))
  case clears =>
    refine ⟨?mxFmt, ?kvLand, ?portRefuse, ?syncRef⟩
    case mxFmt =>
      intro n w hn hw
      obtain ⟨o, ho⟩ := csrRead_emits (0x100000 + 16 * n + 4 * w) 4 hreader
      generalize ht : (csrReadBytes (0x100000 + 16 * n + 4 * w) 4 s).2 = t at ho
      obtain ⟨hcleared, hframe⟩ := mxFmt_read_clears hn hw ht
      exact ⟨_, congrArg Host.Outcome.next ((if_pos (by simp [hn, hw])).trans ho), hcleared, emit_mxFmt_frame hframe o⟩
    case kvLand =>
      intro n hn
      obtain ⟨o, ho⟩ := csrRead_emits (0x300000 + 64 * n) 64 hreader
      generalize ht : (csrReadBytes (0x300000 + 64 * n) 64 s).2 = t at ho
      obtain ⟨hcleared, hframe⟩ := kvLand_read_clears hn ht
      exact ⟨_, congrArg Host.Outcome.next ((if_pos hn).trans ho), hcleared, emit_kvDropped_frame hframe o⟩
    case portRefuse =>
      intro n hn
      obtain ⟨o, ho⟩ := csrRead_emits (0x307000 + 32 * n) 32 hreader
      generalize ht : (csrReadBytes (0x307000 + 32 * n) 32 s).2 = t at ho
      obtain ⟨hcleared, hframe⟩ := portRefuse_read_clears hn ht
      exact ⟨_, congrArg Host.Outcome.next ((if_pos hn).trans ho), hcleared, emit_ports_frame hframe o⟩
    case syncRef =>
      obtain ⟨o, ho⟩ := csrRead_emits 0x306000 8 hreader
      rw [syncRef_read] at ho
      exact ⟨_, congrArg Host.Outcome.next ho, rfl⟩

end Sys2Proof.Machine
end

section
/-! DRAM and SRAM reads that decode (R357, R359, R360, R365; O26), and the upkeep of memory: leak ticks, patrol scrub, rebuilds and the
refresh rate (R275, R276, R360-R362, R364, R368, R369; O27). -/

namespace Sys2Proof.Machine

open Sys2Proof

/-! ### An uncorrectable read (R365) -/

/-- Posting UE moves rings and outputs alone. -/
theorem postUE_frame (g : Nat) (u : UnitRef) (s : State) :
    postUE g u s = { s with funcs := (postUE g u s).funcs, out := (postUE g u s).out } :=
  List.foldlRecOn (motive := fun t : State => t = { s with funcs := t.funcs, out := t.out }) (ownersOf (postDevice 0x02 (64 * g) (unitCode u) s) (64 * g))
    (fun s p => postPod p 0x02 (64 * g) (unitCode u) s) (postDevice_frame ..) (fun _ ht _ _ => reporting_trans ht (postPod_frame ..))

/-- The granule is poisoned, its stored errors gone, and its die's entry counts one UE. -/
theorem uncorrectable_poisons (g : Nat) (s : State) : SMap.get false (uncorrectable g s).poison g = true ∧
    SMap.find (uncorrectable g s).dramErr g = none ∧
    (SMap.get {} (uncorrectable g s).ecc (placeEntry (placeOf (64 * g)))).ue =
      satAdd 0xFFFF (SMap.get {} s.ecc (placeEntry (placeOf (64 * g)))).ue 1 := by
  unfold uncorrectable
  dsimp only
  rw [postUE_frame]
  refine ⟨?_, SMap.find_del_same .., ?_⟩
  · simp [countUE, storePoison, SMap.get]
  · simp [countUE, storePoison, SMap.mod]

/-! ### Reads (R357, R359) -/

/-- What a codeword's outcome leaves of the state (R357, R365). -/
def dramLeaves (st g : Nat) (s : State) (out : DramOut) : State :=
  match out with
  | .corrected fix => countFix st fix (erasedSlot s st) s
  | .uncorrectable => uncorrectable g s
  | _ => s

theorem fetchDram_state (st g : Nat) (s : State) :
    (fetchDram st g s).2 = dramLeaves st g s (dramDecode (storedErrs s g) (erasedSlot s st)) := by
  unfold fetchDram
  dsimp only
  cases dramDecode (storedErrs s g) (erasedSlot s st) <;> rfl

theorem erasedSlot_upsetDram (g : Nat) (upset : Errs) (s : State) (st : Nat) : erasedSlot (upsetDram g upset s) st = erasedSlot s st := rfl

theorem dramRead_inService {s : State} {g st : Nat} (upset : Errs) (h : dramStack s g = some st) : dramRead g upset s =
    dramLeaves st g (upsetDram g upset s) (dramDecode (storedErrs (upsetDram g upset s) g) (erasedSlot s st)) := by
  simp only [dramRead, h, fetchDram_state, erasedSlot_upsetDram]

/-- The part after bits of a word have flipped. -/
def flipWord (w : Nat) (upset : BitVec 72) (s : State) : State :=
  { s with sramErr := SMap.set 0 s.sramErr w (SMap.get 0 s.sramErr w ^^^ upset) }

/-- What a word's outcome leaves of the state (R359, R365). -/
def sramLeaves (w : Nat) (s : State) (out : SramOut) : State :=
  match out with
  | .corrected _ => countCorr (placeEntry (placeOf (8 * w))) 1 (entryUnit (placeEntry (placeOf (8 * w)))) s
  | .uncorrectable => uncorrectable (w / 8) s
  | _ => s

theorem sramRead_inService {s : State} {w : Nat} (upset : BitVec 72) (h : isSram s (8 * w) = true) : sramRead w upset s =
    sramLeaves w (flipWord w upset s) (sramDecode (SMap.get false s.poison (w / 8)) (SMap.get 0 s.sramErr w ^^^ upset)) := by
  have hstored : SMap.get 0 (flipWord w upset s).sramErr w = SMap.get 0 s.sramErr w ^^^ upset := SMap.get_set_same ..
  have hpoison : (flipWord w upset s).poison = s.poison := rfl
  refine (if_neg (by simp [h])).trans ?_
  change (let r := fetchWord w ([], false, false, flipWord w upset s); if r.2.2.1 then uncorrectable (w / 8) r.2.2.2 else r.2.2.2) = _
  simp only [fetchWord, hstored, hpoison]
  cases sramDecode (SMap.get false s.poison (w / 8)) (SMap.get 0 s.sramErr w ^^^ upset) <;> rfl

/-- Settles O26: each outcome of a decode by what it leaves of the state (`dramRead_inService`, `sramRead_inService`). -/
theorem eccReadsDecode : Obligations.EccReadsDecode := by
  refine ⟨fun s g st upset hstack => ?dram, ?sram⟩
  case dram =>
    have hread : exec (.dramReadDecode g upset) s = .next _ := congrArg Host.Outcome.next (dramRead_inService upset hstack)
    refine ⟨fun h => ?_, fun h => ?_, fun fix h => ?_, fun h => ?_⟩
    · rw [hread, h]; rfl
    · rw [hread, h]; rfl
    · rw [hread, h]; rfl
    · rw [hread, h]
      exact ⟨_, rfl, uncorrectable_poisons g (upsetDram g upset s)⟩
  case sram =>
    rintro s w upset _ hsram rfl
    have hread : exec (.sramReadDecode w upset) s = .next _ := congrArg Host.Outcome.next (sramRead_inService upset hsram)
    refine ⟨fun h => ?_, fun b h => ?_, fun h => ?_⟩ <;> rw [hread, h] <;> rfl

/-! ### Leak ticks and overflows (R360-R362) -/

/-- A bucket above 0 loses one count. -/
def leakEntry (l : EccLog) : EccLog := { l with bucket := l.bucket - 1 }

/-- Every bucket leaks. -/
def leakAll (m : SMap EccLog) : SMap EccLog := (List.range 214).foldl (fun m i => SMap.mod {} m i leakEntry) m

/-- A change of each key of a list, none named twice, changes each of them once. -/
theorem get_foldl_mod {α : Type} [DecidableEq α] (d : α) (f : α → α) {l : List Nat} (hl : l.Nodup) (m : SMap α) {i : Nat} (hi : i ∈ l) :
    SMap.get d (l.foldl (fun m i => SMap.mod d m i f) m) i = f (SMap.get d m i) := by
  have hother : ∀ (l : List Nat) (m : SMap α), i ∉ l → SMap.get d (l.foldl (fun m i => SMap.mod d m i f) m) i = SMap.get d m i := by
    intro l
    induction l with
    | nil => exact fun m _ => rfl
    | cons j l ih =>
      intro m hnot
      obtain ⟨hj, hrest⟩ := not_or.mp (mt List.mem_cons.mpr hnot)
      exact (ih _ hrest).trans (SMap.get_set_other _ _ _ hj)
  induction l generalizing m with
  | nil => exact absurd hi List.not_mem_nil
  | cons j l ih =>
    obtain ⟨hfirst, hrest⟩ := List.nodup_cons.mp hl
    rcases List.mem_cons.mp hi with rfl | hmem
    · exact (hother l _ hfirst).trans (SMap.get_set_same ..)
    · have hne : i ≠ j := fun h => hfirst (h ▸ hmem)
      exact (ih hrest _ hmem).trans (congrArg f (SMap.get_set_other _ _ _ hne))

theorem get_leakAll (m : SMap EccLog) {i : Nat} (hi : i < 214) : SMap.get {} (leakAll m) i = leakEntry (SMap.get {} m i) := by
  have h := get_foldl_mod (α := EccLog) {} leakEntry (l := List.range 214) List.nodup_range m (i := i) (List.mem_range.mpr hi)
  unfold leakAll
  exact h

theorem leakTick_due {s : State} (h : s.leakAt + s.eccCfg.2.2.1 * 1000000000 ≤ now s) : leakTick s =
    { s with ecc := leakAll s.ecc, leakAt := s.leakAt + s.eccCfg.2.2.1 * 1000000000, eccCfg := s.eccWritten } :=
  if_neg (Nat.not_lt.mpr h)

/-! ### Patrol scrub, rebuilds and the refresh rate (R275, R364, R368) -/

/-- The scrubber moves past the codeword that it has read. -/
theorem patrolScrub_moves {s : State} {st k : Nat} (upset : Errs) (hst : st < 16) (hup : stackFenced s st = false)
    (hstate : (getDie s st).state = 0) (hnext : scrubNext s st = some (k, false)) : (getDie (patrolScrub st upset s) st).scrub = k + 1 := by
  have hgo : ¬(16 ≤ st || stackFenced s st || (getDie s st).state = 1 || (getDie s st).state = 3) = true := by
    simp [hup, hstate, Nat.not_le.mpr hst]
  unfold patrolScrub
  rw [if_neg hgo, hnext]
  dsimp only
  rw [getDie_setDie]

theorem rebuildSlot_runs {s : State} {st : Nat} (upset : Errs) (hrun : rebuilding s st = true) (hleft : (getDie s st).pos < 2 ^ 30) :
    rebuildSlot st upset s = setDie st
      { getDie (rebuildWord st (st * 2 ^ 30 + (getDie s st).pos) (upsetDram (st * 2 ^ 30 + (getDie s st).pos) upset s)) st with
        pos := (getDie (rebuildWord st (st * 2 ^ 30 + (getDie s st).pos) (upsetDram (st * 2 ^ 30 + (getDie s st).pos) upset s)) st).pos + 1 }
      (rebuildWord st (st * 2 ^ 30 + (getDie s st).pos) (upsetDram (st * 2 ^ 30 + (getDie s st).pos) upset s)) :=
  if_pos (Bool.and_eq_true_iff.mpr ⟨hrun, decide_eq_true hleft⟩)

/-- Settles O27: a tick leaks every bucket once (`get_leakAll`), and the scrubber, a rebuild and the refresh rate move by their rules. -/
theorem memoryUpkeepRuns : Obligations.MemoryUpkeepRuns := by
  refine ⟨⟨?leak, ?expiry⟩, ?scrub, ?rebuild, ?rebuilt, ?refresh⟩
  case leak =>
    intro s hdue
    refine ⟨_, congrArg Host.Outcome.next (leakTick_due hdue), ?_, ?_⟩
    · intro i hi
      dsimp only
      rw [get_leakAll s.ecc hi, leakEntry]
    · dsimp only
  case expiry => exact fun s n hn => ⟨_, congrArg Host.Outcome.next (if_pos hn), rfl, SMap.get_set_same ..⟩
  case scrub => exact fun s st k upset hst hup hstate hnext => ⟨_, rfl, patrolScrub_moves upset hst hup hstate hnext⟩
  case rebuild =>
    intro s st upset hrun hleft
    refine ⟨_, congrArg Host.Outcome.next (rebuildSlot_runs upset hrun hleft), ?_⟩
    rw [getDie_setDie]
  case rebuilt =>
    exact fun s st hrun hend => congrArg Host.Outcome.next (if_pos (Bool.and_eq_true_iff.mpr ⟨hrun, decide_eq_true hend⟩))
  case refresh =>
    exact fun s st hst hchange => congrArg Host.Outcome.next (if_neg (by simp [Nat.not_le.mpr hst, hchange]))

end Sys2Proof.Machine
end

section
/-! Fences and their release (R367, R371-R373, R375; O46). -/

namespace Sys2Proof.Machine

open Sys2Proof

section Commands

variable {s : State} {sub : Submission} {u : UnitRef} (tok : CmdTok) (hunit : decodeUnit (ent sub.entry 95 64) = some u)
  (hknown : unitKnown s (some u) = true)

include hunit hknown

/-- What FENCE_REQUEST of a unit that it accepts does (R375). -/
theorem fenceRequest_decides (hkind : fenceKind (some u) = true) (hcheck : checkCmd spFence false sub true true s = none) :
    fenceRequest sub tok s = if (fenceDenied s (fnHub sub.mbx.fn) u && !unitFenced s u) = true then only sub tok stNOT_PERMITTED 0 0 s
      else postFinal tok stOK 0 0 (fenceDo u (postFirst tok 0 s)) := by
  unfold fenceRequest
  dsimp only
  rw [hunit, hkind, hknown, guarded_pass _ hcheck]

theorem unfence_decides (hcheck : checkCmd spUnfence false sub true true s = none) :
    unfence sub tok s = if unfenceDenied s u = true then only sub tok stNOT_PERMITTED 0 0 s
      else postFinal tok stOK 0 0 (if listed (postFirst tok 0 s) u then returnUnit u (postFirst tok 0 s) else postFirst tok 0 s) := by
  unfold unfence
  dsimp only
  rw [hunit, hknown, Option.isSome_some, guarded_pass _ hcheck]

end Commands

theorem fenceKind_of_not_link {u : UnitRef} (h : ∀ l, u ≠ .link l) : fenceKind (some u) = true := by
  cases u with
  | link l => exact absurd rfl (h l)
  | _ => rfl

theorem fenceUnit_fenced {s : State} {u : UnitRef} (reason : Nat) (h : unitFenced s u = true) : fenceUnit u reason s = s := if_pos h

/-- Settles O46: a request by what R375 denies (`fenceRequest_decides`, `unfence_decides`), and a fence of the part's own by its cause. -/
theorem fencesRun : Obligations.FencesRun := by
  refine ⟨?request, ?unfence, ?decided, fun s d => rfl⟩
  case request =>
    intro s sub u htakes hunit hlink hknown hcheck
    have hknown' : unitKnown (taken sub s) (some u) = true := hknown
    have hruns : exec (.fenceRequest sub) s = .next _ := congrArg Host.Outcome.next ((runCmd_takes _ htakes).trans
      (fenceRequest_decides (s := taken sub s) _ hunit hknown' (fenceKind_of_not_link hlink) hcheck))
    have hdenied : fenceDenied (taken sub s) (fnHub sub.mbx.fn) u = fenceDenied s (fnHub sub.mbx.fn) u := by cases u <;> rfl
    have hfenced : unitFenced (taken sub s) u = unitFenced s u := by cases u <;> rfl
    rw [hdenied, hfenced] at hruns
    refine ⟨fun hgo => hruns.trans (congrArg Host.Outcome.next (if_neg ?_)), fun hno hin => hruns.trans (congrArg Host.Outcome.next (if_pos ?_))⟩
    · rcases hgo with h | h <;> simp [h]
    · simp [hno, hin]
  case unfence =>
    intro s sub u htakes hunit hknown hcheck
    have hknown' : unitKnown (taken sub s) (some u) = true := hknown
    have hruns : exec (.unfence sub) s = .next _ := congrArg Host.Outcome.next ((runCmd_takes _ htakes).trans
      (unfence_decides (s := taken sub s) _ hunit hknown' hcheck))
    have hdenied : unfenceDenied (taken sub s) u = unfenceDenied s u := by cases u <;> rfl
    rw [hdenied] at hruns
    refine ⟨fun hno => hruns.trans (congrArg Host.Outcome.next (if_pos hno)), ?_⟩
    rintro hgo _ rfl
    exact hruns.trans (congrArg Host.Outcome.next (if_neg (Bool.eq_false_iff.mp hgo)))
  case decided =>
    intro s u reason hcause
    have hruns : exec (.fenceDecided u reason) s = .next (fenceUnit u reason s) := congrArg Host.Outcome.next (if_pos hcause)
    exact ⟨hruns, fun hfenced => hruns.trans (congrArg Host.Outcome.next (fenceUnit_fenced reason hfenced))⟩

end Sys2Proof.Machine
end

section
/-! Heartbeats, the lead of the hubs and the rails (R381-R385, R430, R431; O48). -/

namespace Sys2Proof.Machine

open Sys2Proof

/-! ### Heartbeats and contact (R381, R382) -/

/-- A hub after a heartbeat of the other has come in at `time` on the paths named. -/
def beaten (time : Nat) (flit wire : Bool) (b : Hub) : Hub :=
  { b with flitAt := if flit then time else b.flitAt, wireAt := if wire then time else b.wireAt,
           flitLost := b.flitLost && !flit, wireLost := b.wireLost && !wire,
           beats := if b.contact then 0 else if flit && wire then b.beats + 1 else 0 }

theorem hubHeartbeat_arrives {s : State} {h : Nat} (flit wire : Bool) (hup : hubUp s h = true) (hother : hubUp s (1 - h) = true)
    (hroute : hubRoute s h = true) : hubHeartbeat h flit wire s = modHub (1 - h) (beaten (now s) flit wire) s := by
  unfold hubHeartbeat
  dsimp only
  rw [if_neg (by simp [hup, hother]), hroute, Bool.and_true]
  rfl

section Paths

variable {s : State} {h : Nat} {b : Hub} (hup : hubUp s h = true) (hb : getHub s h = b)

include hup hb

theorem pathLost_flit (hlate : b.flitAt + 250000 ≤ now s) (hwire : b.wireLost = false) :
    pathLost h false s = setHub h { b with flitLost := true } s := by
  subst hb
  unfold pathLost
  simp [hup, hwire, Nat.not_lt.mpr hlate]

/-- With both paths lost a hub loses contact, and a follower demotes itself. -/
theorem pathLost_contact (hlate : b.wireAt + 250000 ≤ now s) (hflit : b.flitLost = true) (hcontact : b.contact = true) :
    pathLost h true s = setHub h { b with wireLost := true, contact := false, beats := 0,
                                          lead := if b.lead = .follower then .demoted else b.lead } s := by
  subst hb
  unfold pathLost
  simp [hup, hflit, hcontact, Nat.not_lt.mpr hlate]

end Paths

theorem contactBack_restores {b : Hub} (hlost : b.contact = false) (hin : b.lead ≠ .out) (hbeats : 200 ≤ b.beats) :
    contactBack b = { b with contact := true, beats := 0, lead := if b.lead = .demoted then .follower else b.lead } :=
  if_pos (by simp [hlost, hin, hbeats])

/-! ### TAKEOVER (R382, R383) -/

theorem takeover_decides {s : State} {sub : Submission} {token : BitVec 4096} (fell : Bool) (tok : CmdTok)
    (hcheck : checkCmd spTakeover false sub true true s = none) (hlead : leadHub s ≠ fnHub sub.mbx.fn)
    (htoken : tokenOk s 1 (fnHub sub.mbx.fn) token = true) : takeover sub token fell tok s =
      if fell then only sub tok stOK 0 0 (loseHub (1 - fnHub sub.mbx.fn) 0x02 s) else only sub tok stNOT_PERMITTED 0 0 s := by
  unfold takeover
  dsimp only
  rw [guarded_pass _ hcheck]
  cases fell <;> simp [hlead, htoken]

/-! ### Rails (R385, R430, R431) -/

theorem railRange_ordered (i : Nat) : (railRange i).1 ≤ (railRange i).2 := by
  unfold railRange
  split_ifs <;> decide

/-- The voltage of a rail settles within its range (R430; log entry 5). -/
theorem volts_setVolt (i : Nat) (s : State) :
    (railRange i).1 ≤ SMap.get 0 (setVolt i s).power.volts i ∧ SMap.get 0 (setVolt i s).power.volts i ≤ (railRange i).2 := by
  have hvolt : SMap.get 0 (setVolt i s).power.volts i =
      (railRange i).1 + Config.freeId s.freeIdx % ((railRange i).2 + 1 - (railRange i).1) := SMap.get_set_same ..
  have hordered := railRange_ordered i
  have hfree := Nat.mod_lt (Config.freeId s.freeIdx) (y := (railRange i).2 + 1 - (railRange i).1) (by omega)
  omega

/-- Settles O48: heartbeats and their loss by what the paths carry (`hubHeartbeat_arrives`, `pathLost_…`, `contactBack_restores`), a
takeover by the other hub's power (`takeover_decides`), and rails by their state and range (`volts_setVolt`). -/
theorem hubsAndRailsRun : Obligations.HubsAndRailsRun := by
  refine ⟨?heartbeat, ?path, fun s => rfl, ?contact, fun s h hup => congrArg Host.Outcome.next (if_pos hup), ?takeover, ?rails,
    fun s i => volts_setVolt i s⟩
  case heartbeat =>
    exact fun s h flit wire hup hother hroute => congrArg Host.Outcome.next (hubHeartbeat_arrives flit wire hup hother hroute)
  case path =>
    intro s h b hup hb
    exact ⟨fun hlate hwire => congrArg Host.Outcome.next (pathLost_flit hup hb hlate hwire),
      fun hlate hflit hcontact => congrArg Host.Outcome.next (pathLost_contact hup hb hlate hflit hcontact)⟩
  case contact =>
    intro b hlost hin hbeats
    rw [contactBack_restores hlost hin hbeats]
    exact ⟨rfl, fun hdemoted => if_pos hdemoted⟩
  case takeover =>
    intro s sub token htakes hcheck hlead htoken
    have hruns : ∀ fell, exec (.takeover sub token fell) s = .next _ := fun fell => congrArg Host.Outcome.next ((runCmd_takes _ htakes).trans
      (takeover_decides (s := taken sub s) fell _ hcheck hlead htoken))
    exact ⟨hruns true, hruns false⟩
  case rails =>
    intro s i mv hi
    refine ⟨fun hstart => ⟨congrArg Host.Outcome.next (if_pos hstart), congrArg Host.Outcome.next (if_pos ?_)⟩,
      fun hon => congrArg Host.Outcome.next (if_pos ?_)⟩
    · simp [hi, hstart]
    · rcases hon with h | h <;> simp [hi, h]

end Sys2Proof.Machine
end

section
/-! Supplies and resets (R385, R394, R421, R456, R460, R465, R468; O51). -/

namespace Sys2Proof.Machine

open Sys2Proof

theorem vaux3Rise_off {s : State} (sel : Nat) (h : s.pins.vaux3 = false) : vaux3Rise sel s = setT0 (restartAcorns
    { aonLost (partReset s) with pins := { (aonLost (partReset s)).pins with vaux3 := true }, mgmt := { addrSel := sel % 8 } }) :=
  if_neg (Bool.eq_false_iff.mp h)

/-- A supply out of its limits turns every rail off, with its entry logged, and latches (R456). -/
theorem supplyFault_powered {s : State} (entry : Nat) (hgood : s.pins.pwrGood = true) (hvaux : s.pins.vaux3 = true)
    (hfirst : s.pins.supply = false) : supplyFault entry s =
      { railsOff (logBoth entry s) with pins := { (railsOff (logBoth entry s)).pins with supply := true } } :=
  if_pos (by simp [hgood, hvaux, hfirst])

theorem pwrGoodRise_reset {s : State} (lead : Bool) (hlow : s.pins.pwrGood = false) (hreset : s.pins.resetN = false) :
    pwrGoodRise lead s = setT0 (partReset { s with pins := { s.pins with pwrGood := true, leadSel := lead } }) :=
  (if_neg (Bool.eq_false_iff.mp hlow)).trans (if_neg (Bool.eq_false_iff.mp hreset))

/-- Settles O51: what a part reset leaves stands in its definition, and each pin acts through it. -/
theorem suppliesAndResetsRun : Obligations.SuppliesAndResetsRun := by
  refine ⟨?reset, ?rise, ?loss, ?supply, ?goodRise, ?goodFall, ?assert, ?deassert⟩
  case reset =>
    intro s
    and_intros
    all_goals rfl
  case rise =>
    exact fun s sel hoff => ⟨_, rfl, rfl, rfl, rfl, congrArg Host.Outcome.next (vaux3Rise_off sel hoff)⟩
  case loss => exact fun s hon => ⟨_, rfl, congrArg Host.Outcome.next (if_pos hon)⟩
  case supply =>
    intro s hgood hvaux hfirst
    exact ⟨⟨_, rfl, congrArg Host.Outcome.next (supplyFault_powered 2 hgood hvaux hfirst)⟩,
      ⟨_, rfl, congrArg Host.Outcome.next (supplyFault_powered 3 hgood hvaux hfirst)⟩⟩
  case goodRise => exact fun s lead hlow hreset => congrArg Host.Outcome.next (pwrGoodRise_reset lead hlow hreset)
  case goodFall => exact fun s hgood => ⟨_, rfl, congrArg Host.Outcome.next (if_pos hgood)⟩
  case assert => exact fun s hhigh => congrArg Host.Outcome.next (if_neg (Bool.eq_false_iff.mp hhigh))
  case deassert => exact fun s lead hlow => congrArg Host.Outcome.next (if_pos hlow)

end Sys2Proof.Machine
end

section
/-! Device time, the frame edge and SYNC_CONFIG (R390, R394-R407; O57, O58, O59). -/

namespace Sys2Proof.Machine

open Sys2Proof

/-! ### TIME_SET and TIME_GET (R395-R397) -/

theorem timeSet_sets {s : State} {sub : Submission} (tok : CmdTok) (hcheck : checkCmd spTimeSet false sub (timeFields sub.entry) true s = none) :
    timeSet sub tok s = only sub tok stOK 0 0 (setTime (timeValue sub.entry) s) := guarded_pass _ hcheck

theorem timeGet_answers {s : State} {sub : Submission} (tok : CmdTok) (hcheck : checkCmd spTimeGet false sub true true s = none) :
    timeGet sub tok s = only sub tok stOK (now s) 0 s := guarded_pass _ hcheck

/-- Settles O57: both commands past their checks (`timeSet_sets`, `timeGet_answers`). -/
theorem timeCommandsRun : Obligations.TimeCommandsRun := by
  refine ⟨?set, ?get⟩
  case set =>
    intro s sub htakes hcheck
    exact ⟨congrArg Host.Outcome.next ((runCmd_takes _ htakes).trans (timeSet_sets (s := taken sub s) _ hcheck)), rfl, rfl⟩
  case get =>
    intro s sub htakes hcheck
    exact congrArg Host.Outcome.next ((runCmd_takes _ htakes).trans (timeGet_answers (s := taken sub s) _ hcheck))

/-! ### The window of a frame edge (R402, R403) -/

theorem judgeRef_edges (clean : Bool) (r : Ref) : (judgeRef clean r).edges = r.edges := by
  unfold judgeRef
  split
  · split <;> rfl
  · rfl
  · rfl
  · split <;> rfl
  · rfl

/-- The clock with both references judged. -/
def judged (w : Nat) (c : Clock) : Clock :=
  { c with ref0 := judgeRef ((edgesIn w c.bj c.ref0.edges).length = 1) c.ref0, ref1 := judgeRef ((edgesIn w c.bj c.ref1.edges).length = 1) c.ref1 }

theorem chooseRef_stays {s : State} (h : bestRef s.clock = s.clock.active) : chooseRef s = s := if_pos h

/-- A window that closes while the active reference stays places the next edge from it. -/
theorem windowClose_stays {s : State} (hrun : s.clock.running = true) (hopen : s.clock.judged = false) (hdue : s.clock.bj + halfWindow s ≤ now s)
    (hbest : bestRef (judged (halfWindow s) s.clock) = s.clock.active) :
    windowClose s = { s with clock := placeNext (halfWindow s) false (judged (halfWindow s) s.clock) } := by
  have hchoose : chooseRef { s with clock := judged (halfWindow s) s.clock } = { s with clock := judged (halfWindow s) s.clock } :=
    chooseRef_stays hbest
  have hswitched : decide ((judged (halfWindow s) s.clock).active ≠ s.clock.active) = false := by simp [judged]
  refine (if_neg (by simp [hrun, hopen, Nat.not_lt.mpr hdue])).trans ?_
  change (let t := chooseRef { s with clock := judged (halfWindow s) s.clock };
    { t with clock := placeNext (halfWindow s) (decide (t.clock.active ≠ s.clock.active)) t.clock }) = _
  rw [hchoose]
  dsimp only
  rw [hswitched]

theorem activeEdges_timer {w : Nat} {c : Clock} (h : c.active = 2) : activeEdges w c = [] := by
  simp only [activeEdges, h]

theorem activeEdges_judged {w : Nat} {c : Clock} (h : c.active = 0) : activeEdges w (judged w c) = edgesIn w c.bj c.ref0.edges := by
  have hactive : (judged w c).active = 0 := h
  have hedges : (judged w c).ref0.edges = c.ref0.edges := judgeRef_edges ..
  have hbj : (judged w c).bj = c.bj := rfl
  simp only [activeEdges, hactive, hedges, hbj]

theorem clampPull_zero (f : Nat) : clampPull f 0 = 0 := by
  unfold clampPull
  omega

theorem placeNext_pull (w : Nat) (switched : Bool) (c : Clock) :
    (placeNext w switched c).pull = clampPull c.f (phaseOf c.bj (activeEdges w c)) := rfl

theorem placeNext_next (w : Nat) (switched : Bool) (c : Clock) :
    (placeNext w switched c).next = (((c.bj + c.f : Nat) : Int) + (placeNext w switched c).pull).toNat := rfl

/-! ### The frame edge and the references' events (R398, R402-R404, R407) -/

theorem applyDevice_none {s : State} (h : s.clock.devPend = none) : applyDevice s = s := by
  simp only [applyDevice, h]

/-- The clock at the frame edge: edge j + 1, at the time placed for it. -/
def edgeClock (c : Clock) : Clock :=
  { c with bj := c.next, j := c.j + 1, judged := false, stepOut := true,
           ref0 := { c.ref0 with edges := c.ref0.edges.filter (fun e => c.next - c.f ≤ e) },
           ref1 := { c.ref1 with edges := c.ref1.edges.filter (fun e => c.next - c.f ≤ e) },
           switching := c.switching && decide (c.f / 100 < c.phase.natAbs) }

theorem frameEdge_due {s : State} (hrun : s.clock.running = true) (hjudged : s.clock.judged = true) (hdue : s.clock.next ≤ now s)
    (hnone : s.clock.devPend = none) : frameEdge s =
      { s with clock := { edgeClock s.clock with next := s.clock.next + s.clock.f },
               pods := s.pods.map (fun q => (q.1, edgePod s.clock.next q.2)) } := by
  have hdevice : applyDevice { s with clock := edgeClock s.clock } = { s with clock := edgeClock s.clock } := applyDevice_none hnone
  refine (if_neg (by simp [hrun, hjudged, Nat.not_lt.mpr hdue])).trans ?_
  change (let t := applyDevice { s with clock := edgeClock s.clock };
    { t with clock := { t.clock with next := s.clock.next + t.clock.f }, pods := t.pods.map (fun (q : Nat × Pod) => (q.1, edgePod s.clock.next q.2)) }) = _
  rw [hdevice]
  rfl

theorem jumpTo_idle {s : State} (k e : Nat) (h : s.clock.jumpPend = false) : jumpTo k e s = s := if_neg (by simp [h])

theorem jumpTo_open {s : State} (k e : Nat) (h : s.clock.judged = false) : jumpTo k e s = s := if_neg (by simp [h])

/-- A transition to the edge level after 1 µs at the other is an edge of reference 0. -/
theorem syncEdge_edge {s : State} {l : Bool} (hchange : s.clock.level ≠ l) (hlong : s.clock.levelAt + 1000 ≤ now s) (hedge : l = edgeLevel s.clock)
    (hheed : s.clock.ignore = false) (huse : s.clock.useSync = true) (hidle : s.clock.jumpPend = false) : syncEdge l s =
      { s with clock := { s.clock with level := l, levelAt := now s, prevAt := s.clock.levelAt,
                                       ref0 := { s.clock.ref0 with edges := s.clock.ref0.edges ++ [now s] } } } := by
  have hheld : ¬ now s < s.clock.levelAt + 100 := by omega
  have hcounts : (decide (l = edgeLevel s.clock) && decide (s.clock.levelAt + 1000 ≤ now s) && !s.clock.ignore && s.clock.useSync) = true := by
    simp [← hedge, hlong, hheed, huse]
  unfold syncEdge
  dsimp only
  rw [if_neg hchange, if_neg hheld, hcounts, if_pos rfl]
  exact jumpTo_idle _ _ hidle

/-- With reference 1 off and the timer active already, a stuck reference 0 changes no reference. -/
theorem syncStuck_posts {s : State} (hlevel : s.clock.level = edgeLevel s.clock) (hlong : s.clock.levelAt + 4 * s.clock.f < now s)
    (hstate : s.clock.ref0.state = .unqualified) (hactive : s.clock.active = 2) (hoff : s.clock.ref1.state = .disabled) :
    syncStuck s = postDevice 0x07 0 0 { s with clock := { s.clock with ref0 := { state := .stuck } } } := by
  refine (if_pos (by simp [← hlevel, hlong, hstate])).trans (chooseRef_stays ?_)
  rw [postDevice_clock]
  simp [bestRef, hactive, hoff]

theorem syncUnstuck_frees {s : State} (hlevel : s.clock.level ≠ edgeLevel s.clock) (hlong : s.clock.levelAt + 1000 ≤ now s)
    (hstate : s.clock.ref0.state = .stuck) : syncUnstuck s = { s with clock := { s.clock with ignore := false, ref0 := {} } } := by
  unfold syncUnstuck
  dsimp only
  rw [if_pos (by simp [hlevel, hlong, hstate]), if_pos hstate]

/-- Settles O58: a window that closes places the next edge (`windowClose_stays`, `placeNext_…`), the edge is made (`frameEdge_due`), and
STEP_SYNC gives its edges and its faults (`syncEdge_edge`, `syncStuck_posts`, `syncUnstuck_frees`). -/
theorem frameEdgesRun : Obligations.FrameEdgesRun := by
  refine ⟨?placed, ?edge, ?stepOut, ?transition, ?stuck, ?unstuck⟩
  case placed =>
    rintro s _ _ rfl rfl hrun hopen hdue hbest
    refine ⟨_, congrArg Host.Outcome.next (windowClose_stays hrun hopen hdue hbest), rfl, rfl, rfl, rfl, rfl, fun htimer => ?_, fun e hsync hone => ?_⟩
    · have hedges : activeEdges (halfWindow s) (judged (halfWindow s) s.clock) = [] := activeEdges_timer htimer
      have hpull : (placeNext (halfWindow s) false (judged (halfWindow s) s.clock)).pull = 0 := by
        rw [placeNext_pull, hedges]
        exact clampPull_zero _
      refine ⟨?_, hpull⟩
      dsimp only
      rw [placeNext_next, hpull, Int.add_zero, Int.toNat_natCast]
      rfl
    · have hedges := (activeEdges_judged hsync).trans hone
      have hpull : (placeNext (halfWindow s) false (judged (halfWindow s) s.clock)).pull = clampPull s.clock.f ((e : Int) - s.clock.bj) := by
        rw [placeNext_pull, hedges]
        rfl
      exact ⟨hpull, placeNext_next ..⟩
  case edge =>
    intro s hrun hjudged hdue hnone
    exact ⟨_, congrArg Host.Outcome.next (frameEdge_due hrun hjudged hdue hnone), rfl, rfl, rfl, rfl, rfl, rfl⟩
  case stepOut =>
    exact fun s hout hdue => congrArg Host.Outcome.next (if_pos (Bool.and_eq_true_iff.mpr ⟨hout, decide_eq_true hdue⟩))
  case transition =>
    intro s l hchange hlong hedge hheed huse hidle
    exact congrArg Host.Outcome.next (syncEdge_edge hchange hlong hedge hheed huse hidle)
  case stuck =>
    intro s hlevel hlong hstate hactive hoff
    exact congrArg Host.Outcome.next (syncStuck_posts hlevel hlong hstate hactive hoff)
  case unstuck => exact fun s hlevel hlong hstate => congrArg Host.Outcome.next (syncUnstuck_frees hlevel hlong hstate)

/-! ### SYNC_CONFIG (R399-R401) -/

section Config

variable {s : State} {sub : Submission} (tok : CmdTok)

theorem syncDevice_waits (hcheck : checkCmd spSync false sub (syncMode sub.entry = 0 && noPodFields sub.entry && ent sub.entry 255 192 = 0 &&
      1000 ≤ ent sub.entry 99 80 && ent sub.entry 99 80 ≤ 1000000 && !entPodV sub.entry) true s = none)
    (hpf : isPF sub.mbx.fn = true) (hfree : deviceBlocked s (1000 * ent sub.entry 99 80) = false) :
    syncDevice sub tok s = only sub tok stOK 0 0 { s with clock := { s.clock with
      devPend := some (1000 * ent sub.entry 99 80, bit sub.entry.toNat 66, bit sub.entry.toNat 67, bit sub.entry.toNat 68) } } := by
  dsimp only [syncDevice]
  exact (guarded_pass _ hcheck).trans (if_neg (by simp [hpf, hfree]))

theorem syncPod_waits {p : Nat} (hcheck : checkCmd spSync false sub (syncPodFields s sub.entry && (entPodV sub.entry || !isPF sub.mbx.fn)) true s = none)
    (hp : cmdPod sub = some p) (hfree : holdsStep s p = false) : syncPod sub tok s = only sub tok stOK 0 0
      (modPod p (fun v => { v with syncPend := some (bit sub.entry.toNat 69, ent sub.entry 113 104, ent sub.entry 147 128) }) s) := by
  dsimp only [syncPod]
  rw [guarded_pass _ hcheck, hp, Option.getD_some, hfree, if_neg Bool.false_ne_true]

/-- A stamp inside an open window is an edge of reference 1, and places no edge of the frame. -/
theorem hostStamp_open {t : Nat} (huse : s.clock.useHost = true) (hin : s.clock.bj ≤ t + halfWindow s) (hopen : s.clock.judged = false) :
    hostStamp t s = { s with clock := { s.clock with ref1 := { s.clock.ref1 with edges := s.clock.ref1.edges ++ [t] } } } := by
  refine (if_neg ?_).trans (jumpTo_open _ _ hopen)
  simp [huse, hopen, Nat.not_lt.mpr hin]

theorem syncStamp_stamps (hcheck : checkCmd spSync false sub (noPodFields sub.entry && noDeviceFields sub.entry && !entPodV sub.entry) true s = none)
    (hpf : isPF sub.mbx.fn = true) : syncStamp sub tok s = only sub tok stOK 0 0 (hostStamp (ent sub.entry 255 192) s) := by
  dsimp only [syncStamp]
  exact (guarded_pass _ hcheck).trans (if_neg (by simp [hpf]))

end Config

/-- Settles O59: each mode past its checks (`syncDevice_waits`, `syncPod_waits`, `syncStamp_stamps`, `hostStamp_open`). -/
theorem syncCommandsRun : Obligations.SyncCommandsRun := by
  refine ⟨?device, ?pod, ?stamp, fun s p hp => congrArg Host.Outcome.next (if_pos hp), fun s p hp => congrArg Host.Outcome.next (if_pos hp)⟩
  case device =>
    rintro s sub _ rfl htakes hcheck hpf hfree
    have hfree' : deviceBlocked (taken sub s) (1000 * ent sub.entry 99 80) = false := hfree
    exact congrArg Host.Outcome.next ((runCmd_takes _ htakes).trans (syncDevice_waits (s := taken sub s) _ hcheck hpf hfree'))
  case pod =>
    rintro s sub _ p rfl htakes hcheck hp hfree
    have hfree' : holdsStep (taken sub s) p = false := hfree
    exact congrArg Host.Outcome.next ((runCmd_takes _ htakes).trans (syncPod_waits (s := taken sub s) _ hcheck hp hfree'))
  case stamp =>
    rintro s sub _ rfl htakes hcheck hpf huse hin hopen
    have hin' : (taken sub s).clock.bj ≤ ent sub.entry 255 192 + halfWindow (taken sub s) := hin
    refine congrArg Host.Outcome.next ((runCmd_takes _ htakes).trans ((syncStamp_stamps (s := taken sub s) _ hcheck hpf).trans ?_))
    rw [hostStamp_open (s := taken sub s) huse hin' hopen]
    rfl

end Sys2Proof.Machine
end

section
/-! The thermal warning, thermal configuration, power limits, samples and margin plans (R410-R428; O7, O49). -/

namespace Sys2Proof.Machine

open Sys2Proof

section Rate

variable {s : State} {n : Nat} {top : Int} {d d' : ThmDie}

/-- The rise of a die index over 16 samples, 0 before there are 16 (R417). -/
def riseOf (top : Int) (d : ThmDie) : Int := if 16 ≤ d.hist.length then top - nth 0 d.hist 15 else 0

/-- The rate of a die index reaches its warning rate (R418). -/
def warnReached (t : Thermal) (n : Nat) (top : Int) (d : ThmDie) : Bool :=
  decide (16 ≤ d.hist.length) && reaches (riseOf top d) (warnRate t n)

theorem warnReached_short {t : Thermal} (h : d.hist.length < 16) : warnReached t n top d = false := by
  simp [warnReached, h]

theorem warnReached_iff {t : Thermal} (h : 16 ≤ d.hist.length) :
    warnReached t n top d = true ↔ 10240 * (warnRate t n : Int) ≤ 12500 * (top - nth 0 d.hist 15) := by
  simp [warnReached, reaches, riseOf, h]

theorem rateStep_rate (t : Thermal) (n : Nat) (top : Int) (d : ThmDie) : (rateStep t n top d).1.rate = riseOf top d * 12500 / 1024 := by
  simp [rateStep, riseOf]

theorem rateStep_below (t : Thermal) (n : Nat) (top : Int) (d : ThmDie) :
    (rateStep t n top d).1.below = if warnReached t n top d = true then 0 else min 16 (d.below + 1) := by
  simp [rateStep, warnReached, riseOf]

theorem rateStep_rise (t : Thermal) (n : Nat) (top : Int) (d : ThmDie) :
    (rateStep t n top d).2.1 = (warnReached t n top d && !d.warn) := by
  simp [rateStep, warnReached, riseOf]

/-- The warning lasts while fewer than 16 samples in a row lie below the warning rate. -/
theorem rateStep_warn (t : Thermal) (n : Nat) (top : Int) (d : ThmDie) :
    (rateStep t n top d).1.warn = (warnReached t n top d || (d.warn && decide (d.below + 1 < 16))) := by
  have hwarn : (rateStep t n top d).1.warn = (warnReached t n top d || (d.warn && decide ((rateStep t n top d).1.below < 16))) := by
    simp [rateStep, warnReached, riseOf]
  rw [hwarn, rateStep_below]
  cases warnReached t n top d
  · exact congrArg (d.warn && ·) (decide_eq_decide.mpr (by rw [if_neg Bool.false_ne_true]; omega))
  · rfl

/-- What the step of a die index does to the machine: the registers, THERMAL_RISE where the warning begins, the cause while the action is
active. -/
theorem rateDie_eq (h : (rateStep s.thermal n (indexTj s n) (SMap.get {} s.thermal.dies n)).1 = d')
    {rise : Bool} (hrise : (rateStep s.thermal n (indexTj s n) (SMap.get {} s.thermal.dies n)).2.1 = rise) {t : State}
    (ht : (if rise = true then postDevice 0x05 n (unsigned 64 d'.rate) (putThm n d' s) else putThm n d' s) = t) :
    rateDie n s = if d'.action = true then recordLate (onDie t n) 0x05 n t else t := by
  subst h hrise ht
  rfl

theorem recordLate_thermal (on : Inst → Bool) (cause detail : Nat) (s : State) : (recordLate on cause detail s).thermal = s.thermal := rfl

theorem rateDie_thermal (n : Nat) (s : State) : (rateDie n s).thermal =
    (putThm n (rateStep s.thermal n (indexTj s n) (SMap.get {} s.thermal.dies n)).1 s).thermal := by
  rw [rateDie_eq rfl rfl rfl]
  split <;> split
  · exact (recordLate_thermal ..).trans (postDevice_thermal ..)
  · rfl
  · exact postDevice_thermal ..
  · rfl

/-- Without a new warning nothing is posted. -/
theorem rateDie_out (h : (rateStep s.thermal n (indexTj s n) (SMap.get {} s.thermal.dies n)).2.1 = false) : (rateDie n s).out = s.out := by
  rw [rateDie_eq rfl h (if_neg Bool.false_ne_true)]
  split <;> rfl

end Rate

/-- Settles O7: the registers by `rateStep_rate`, `rateStep_below` and `rateStep_warn`, the event by `rateStep_rise`, since the warning is
reached exactly at the warning rate (`warnReached_iff`). -/
theorem thermalWarning : Obligations.ThermalWarning := by
  rintro s n _ _ - rfl rfl
  have hrate := rateStep_rate s.thermal n (indexTj s n) (SMap.get {} s.thermal.dies n)
  have hbelow := rateStep_below s.thermal n (indexTj s n) (SMap.get {} s.thermal.dies n)
  have hwarn := rateStep_warn s.thermal n (indexTj s n) (SMap.get {} s.thermal.dies n)
  have hrise := rateStep_rise s.thermal n (indexTj s n) (SMap.get {} s.thermal.dies n)
  refine ⟨(rateStep s.thermal n (indexTj s n) (SMap.get {} s.thermal.dies n)).1, ?registers, rfl, fun hshort => ?short,
    fun hfull => ?rate, fun hfull hreach => ?reached, fun hunder => ?under⟩
  case registers => exact (congrArg (fun t : Thermal => SMap.get {} t.dies n) (rateDie_thermal n s)).trans (SMap.get_set_same ..)
  case short =>
    rw [hrate, hwarn, warnReached_short hshort, riseOf, if_neg (Nat.not_le.mpr hshort)]
    exact ⟨rfl, fun h => (Bool.and_eq_true_iff.mp h).1⟩
  case rate => rw [hrate, riseOf, if_pos hfull]
  case reached =>
    have hreached := (warnReached_iff (t := s.thermal) (n := n) (top := indexTj s n) hfull).mpr hreach
    rw [hreached] at hbelow hwarn hrise
    refine ⟨hwarn, hbelow, fun hno => ⟨_, rfl, ?posted⟩, fun hyes => rateDie_out (hrise.trans (by simp [hyes]))⟩
    have hnew := rateDie_eq (s := s) (n := n) rfl (hrise.trans (by simp [hno])) (if_pos rfl)
    exact ⟨fun haction => hnew.trans (if_neg (by simp [haction])), fun haction => hnew.trans (if_pos haction)⟩
  case under =>
    have hnot : warnReached s.thermal n (indexTj s n) (SMap.get {} s.thermal.dies n) = false := by
      rcases Nat.lt_or_ge (SMap.get {} s.thermal.dies n).hist.length 16 with hshort | hfull
      · exact warnReached_short hshort
      · exact Bool.eq_false_iff.mpr fun h => absurd ((warnReached_iff hfull).mp h) (by omega)
    rw [hnot] at hbelow hwarn hrise
    exact ⟨hbelow, hwarn, rateDie_out hrise⟩

section Commands

variable {s : State} {sub : Submission} (tok : CmdTok)

/-- What THERMAL_CONFIG that passes its checks does (R415). -/
theorem thermalConfig_decides (hcheck : checkCmd spThermal false sub (thermalFields sub.entry) true s = none) :
    thermalConfig sub tok s = if (s.thermal.inletMax < ent sub.entry 79 72 &&
        lowersBusy s (capStep s.power.capW) (inletLevel (ent sub.entry 79 72))) = true then only sub tok stNOT_PERMITTED 0 0 s
      else only sub tok stOK 0 0 { s with thermal := thermalSet sub.entry s.thermal } := by
  dsimp only [thermalConfig]
  exact guarded_pass _ hcheck

/-- What POWER_LIMIT without FORCE that passes its checks does (R424). -/
theorem powerLimit_decides {w : Nat} (hw : ent sub.entry 79 64 = w) (hcheck : checkCmd spPower false sub (capOk w) true s = none) :
    powerLimit sub tok s = if (w < s.power.capW && lowersBusy s (capStep w) (inletLevel s.thermal.inletMax)) = true then
        only sub tok stNOT_PERMITTED 0 0 s
      else only sub tok stOK 0 0 { s with power := { s.power with capW := w, forced := false } } := by
  subst hw
  dsimp only [powerLimit]
  exact guarded_pass _ hcheck

/-- What POWER_LIMIT with FORCE does to the caps (R425). -/
theorem powerLimitForce_decides {w : Nat} (hw : ent sub.entry 79 64 = w) (hcheck : checkCmd spPower false sub (capOk w) true s = none)
    {t : State} (ht : (if w < s.power.capW then forceCap w s else { s with power := { s.power with capW := w } }) = t) :
    powerLimitForce sub tok s = only sub tok stOK 0 0 { t with power := { t.power with forced := true } } := by
  subst hw ht
  dsimp only [powerLimitForce]
  exact guarded_pass _ hcheck

end Commands

/-- A cause of lateness leaves the temperatures. -/
theorem recordLate_if_thermal (c : Prop) [Decidable c] (on : Inst → Bool) (cause detail : Nat) (s : State) :
    (if c then recordLate on cause detail s else s).thermal = s.thermal := by
  split
  · exact recordLate_thermal ..
  · rfl

/-- Settles O49: the commands by what they decide once checked (`thermalConfig_decides`, `powerLimit_decides`, `powerLimitForce_decides`), the
samples and plans where the part takes them. -/
theorem thermalCommandsRun : Obligations.ThermalCommandsRun := by
  refine ⟨?config, ?limit, ?sensors, ?budget, ?external, ?power, ?plan⟩
  case config =>
    intro s sub htakes hcheck
    have hruns : exec (.thermalConfig sub) s = .next _ := congrArg Host.Outcome.next ((runCmd_takes _ htakes).trans
      (thermalConfig_decides (s := taken sub s) _ hcheck))
    have hbusy (a b : Nat) : lowersBusy (taken sub s) a b = lowersBusy s a b := rfl
    rw [hbusy] at hruns
    refine ⟨fun hgo => hruns.trans (congrArg Host.Outcome.next (if_neg fun hno => ?_)),
      fun hraised hlowers => hruns.trans (congrArg Host.Outcome.next (if_pos ?_))⟩
    · obtain ⟨hraised, hlowers⟩ := Bool.and_eq_true_iff.mp hno
      exact hgo.elim (fun hle => absurd (of_decide_eq_true hraised) (Nat.not_lt.mpr hle))
        fun hfalse => Bool.false_ne_true (hfalse.symm.trans hlowers)
    · exact Bool.and_eq_true_iff.mpr ⟨decide_eq_true hraised, hlowers⟩
  case limit =>
    intro s sub w hw hcheck
    have hbusy (a b : Nat) : lowersBusy (taken sub s) a b = lowersBusy s a b := rfl
    have hruns (htakes : Takes spPower (fun e => !entFlag e) sub s) : exec (.powerLimit sub) s = .next _ :=
      congrArg Host.Outcome.next ((runCmd_takes _ htakes).trans (powerLimit_decides (s := taken sub s) _ hw hcheck))
    have hforced (htakes : Takes spPower entFlag sub s) {t : State}
        (ht : (if w < s.power.capW then forceCap w (taken sub s) else _) = t) : exec (.powerLimitForce sub) s = .next _ :=
      congrArg Host.Outcome.next ((runCmd_takes _ htakes).trans (powerLimitForce_decides (s := taken sub s) _ hw hcheck ht))
    simp only [hbusy] at hruns
    refine ⟨fun htakes hgo => (hruns htakes).trans (congrArg Host.Outcome.next (if_neg fun hno => ?_)),
      fun htakes hlowered hlowers => (hruns htakes).trans (congrArg Host.Outcome.next (if_pos ?_)),
      fun htakes hle => hforced htakes (if_neg (Nat.not_lt.mpr hle)), fun htakes hlt => hforced htakes (if_pos hlt)⟩
    · obtain ⟨hlowered, hlowers⟩ := Bool.and_eq_true_iff.mp hno
      exact hgo.elim (fun hle => absurd (of_decide_eq_true hlowered) (Nat.not_lt.mpr hle))
        fun hfalse => Bool.false_ne_true (hfalse.symm.trans hlowers)
    · exact Bool.and_eq_true_iff.mpr ⟨decide_eq_true hlowered, hlowers⟩
  case sensors =>
    intro s t rs hreadings hpowered ht
    subst ht
    have hgo : ¬ (!readingsOk rs || !powered s) = true := by simp [hreadings, hpowered]
    exact ⟨fun htrip => congrArg Host.Outcome.next ((if_neg hgo).trans (if_pos htrip)),
      fun hno => congrArg Host.Outcome.next ((if_neg hgo).trans (if_neg (by simp [hno])))⟩
  case budget =>
    rintro s n _ hn rfl haction hbudget
    exact congrArg Host.Outcome.next (if_pos (by simp [hn, haction, hbudget]))
  case external =>
    intro s ds ts hds hts hpowered
    refine ⟨_, congrArg Host.Outcome.next (if_neg (by simp [hds, hts, hpowered])), ?_⟩
    simp only [recordLate_if_thermal, and_self]
  case power =>
    rintro s w _ hpowered rfl
    exact congrArg Host.Outcome.next (if_neg (by simp [hpowered]))
  case plan =>
    rintro s fl _ hstage hfloors rfl
    exact congrArg Host.Outcome.next (if_neg (by simp [hstage, hfloors]))

end Sys2Proof.Machine
end

section
/-! Lifecycle, the DEBUG_UNLOCK sequence, fuse words and deferred writes (R434-R439, R443, R444, R449-R451; O50). -/

namespace Sys2Proof.Machine

open Sys2Proof

section Lifecycle

variable {s : State} {sub : Submission} {ok : Bool}

/-- A mode is not turned away outside RETIRED and DEBUG_OPEN, with no word waiting, where its own rule holds, inside the window. -/
theorem lifecycleDeny_none (hretired : lifecycle s ≠ 3) (hopen : lifecycle s ≠ 2) (hwords : s.sec.words = []) (hok : ok = true)
    (hwindow : fuseWindow s = true) : lifecycleDeny s ok = none := by
  simp [lifecycleDeny, hretired, hopen, hwords, hok, hwindow]

/-- A mode that commits its word posts OK and goes on. -/
theorem commitMode_commits (tok : CmdTok) (word : Nat × BitVec 384) (after : State → State)
    (hcheck : checkCmd spLifecycle false sub true true s = none) (hdeny : lifecycleDeny s ok = none) :
    commitMode sub tok ok word after s = after (only sub tok stOK 0 0 { s with sec := { s.sec with words := [word] } }) := by
  dsimp only [commitMode]
  rw [guarded_pass _ hcheck, hdeny]

end Lifecycle

section Sequence

variable {s : State} {sub : Submission} {token : BitVec 4096} {u : Unlock}

/-- While a command's sequence runs, its row is the sequence's next step. -/
theorem exec_debugUnlock_running (h : unlockOf sub s = some u) : exec (.debugUnlock sub token) s = .next (unlockStep u s) := by
  show execDebugUnlock sub token s = _
  rw [execDebugUnlock, h]

/-- A DEBUG_UNLOCK that is taken and passes its checks is decided by the lifecycle and the window. -/
theorem exec_debugUnlock_taken (htakes : Takes spDebug (fun _ => true) sub s) (hcheck : checkCmd spDebug false sub true true s = none) :
    exec (.debugUnlock sub token) s = .next (if lifecycle s ≠ 1 then answers sub stNOT_PERMITTED 0 0 s id
      else if (!fuseWindow s) = true then answers sub stTEMP_WINDOW 0 0 s id
      else unlockAt { sub := sub, tok := tokIn s sub, lead := leadHub s, good := tokenOk s 3 s.sec.dbgCount token, phase := 0 } 0
        (postFirst (tokIn s sub) 0 (taken sub s))) := by
  show execDebugUnlock sub token s = _
  rw [execDebugUnlock, unlockOf_taken htakes]
  refine congrArg Host.Outcome.next ((runCmd_takes _ htakes).trans ?_)
  dsimp only [debugUnlock]
  exact guarded_pass (s := taken sub s) _ hcheck

theorem unlockStep_blow (h : u.phase = 0) : unlockStep u s = unlockBlow u s := by
  rw [unlockStep, h]
  rfl

theorem unlockStep_fence (h : u.phase = 1) : unlockStep u s = unlockAt u 2 (fencePods s) := by
  rw [unlockStep, h]
  rfl

theorem unlockStep_zero (h : u.phase = 2) : unlockStep u s = unlockAt u 3 (zeroHusk s) := by
  rw [unlockStep, h]
  rfl

theorem unlockStep_reinit (h : u.phase = 3) : unlockStep u s = unlockAt u 4 (reinit s) := by
  rw [unlockStep, h]
  rfl

theorem unlockStep_log (h : u.phase = 4) :
    unlockStep u s = if unlockOrphan u s = true then unlockEnd u stFENCED s else unlockAt u 5 (logBoth 4 s) := by
  rw [unlockStep, h]
  rfl

theorem unlockStep_last (h : 5 ≤ u.phase) : unlockStep u s = if unlockOrphan u s = true then unlockEnd u stFENCED s
    else if s.fw.defer.any (fun d => d.kind = .log 4) = true then s
    else unlockEnd u stOK { s with sec := { s.sec with debugOpen := true } } := by
  obtain ⟨n, hn⟩ := Nat.exists_eq_add_of_le h
  rw [unlockStep, hn, Nat.add_comm]
  rfl

/-- Once the erase is done, a sequence whose lead hub is OUT ends with FENCED. -/
theorem unlockStep_orphan (h : 4 ≤ u.phase) (horphan : unlockOrphan u s = true) : unlockStep u s = unlockEnd u stFENCED s := by
  rcases Nat.eq_or_lt_of_le h with h4 | h5
  · exact (unlockStep_log h4.symm).trans (if_pos horphan)
  · exact (unlockStep_last h5).trans (if_pos horphan)

/-- The end of a sequence closes it and leaves the latch as it is. -/
theorem unlockEnd_sec (u : Unlock) (st : Status) (s : State) : (unlockEnd u st s).sec = { s.sec with unlock := none } := postComp_sec ..

end Sequence

/-- Settles O50: the modes that commit a word by `commitMode_commits`, DEBUG_UNLOCK as it is taken by `exec_debugUnlock_taken` and, while its
sequence runs, by the step of its phase (`exec_debugUnlock_running`). -/
theorem securityCommandsRun : Obligations.SecurityCommandsRun := by
  refine ⟨?read, ?commits, ?unlock, ?sequence, ?ended, ?word, fun s h => congrArg Host.Outcome.next (if_pos h), ?replay⟩
  case read =>
    exact fun s sub htakes hcheck => congrArg Host.Outcome.next ((runCmd_takes _ htakes).trans (guarded_pass (s := taken sub s) _ hcheck))
  case commits =>
    intro s sub hash token hcheck hwords hwindow
    have hcommits (ok : Bool) (word : Nat × BitVec 384) (after : State → State) (hretired : lifecycle s ≠ 3) (hopen : lifecycle s ≠ 2)
        (hok : ok = true) : commitMode sub (tokIn s sub) ok word after (taken sub s) =
          after (answers sub stOK 0 0 s (fun s => { s with sec := { s.sec with words := [word] } })) :=
      commitMode_commits (s := taken sub s) _ word after hcheck (lifecycleDeny_none hretired hopen hwords hok hwindow)
    refine ⟨fun htakes hlife => congrArg Host.Outcome.next ((runCmd_takes _ htakes).trans (hcommits _ _ _ ?_ ?_ (decide_eq_true hlife))),
      fun htakes hopen hretired htoken hslot => congrArg Host.Outcome.next ((runCmd_takes _ htakes).trans
        (hcommits _ _ _ hretired hopen (Bool.and_eq_true_iff.mpr ⟨htoken, decide_eq_true hslot⟩))),
      fun htakes hopen hretired htoken => ⟨_, rfl, congrArg Host.Outcome.next ((runCmd_takes _ htakes).trans
        (hcommits _ _ _ hretired hopen htoken))⟩⟩
    all_goals rw [hlife]; decide
  case unlock =>
    intro s sub token htakes hcheck
    have hruns := exec_debugUnlock_taken (token := token) htakes hcheck
    exact ⟨fun hlife => hruns.trans (congrArg Host.Outcome.next (if_pos hlife)),
      fun hlife hout => hruns.trans (congrArg Host.Outcome.next ((if_neg (not_not.mpr hlife)).trans (if_pos (by simp [hout])))),
      fun hlife hin => hruns.trans (congrArg Host.Outcome.next ((if_neg (not_not.mpr hlife)).trans (if_neg (by simp [hin]))))⟩
  case sequence =>
    intro s sub token u hrunning
    have hstep {t : State} (h : unlockStep u s = t) : exec (.debugUnlock sub token) s = .next t :=
      (exec_debugUnlock_running hrunning).trans (congrArg Host.Outcome.next h)
    refine ⟨fun hphase hbad => hstep ((unlockStep_blow hphase).trans (if_pos (by simp [hbad]))),
      fun hphase hgood hled hwindow => hstep ((unlockStep_blow hphase).trans ?blow), fun hphase => hstep (unlockStep_fence hphase),
      fun hphase => hstep (unlockStep_zero hphase), fun hphase => hstep (unlockStep_reinit hphase),
      fun hphase hled => hstep ((unlockStep_log hphase).trans (if_neg (by simp [hled]))),
      fun hphase hled hwritten => hstep ((unlockStep_last hphase.ge).trans ?_), fun hphase horphan => hstep (unlockStep_orphan hphase horphan)⟩
    case blow => simp [unlockBlow, hgood, hled, hwindow]
    · rw [if_neg (by simp [hled]), if_neg (by simp only [hwritten, Bool.false_eq_true, not_false_eq_true])]
  case ended => exact fun s u st => ⟨by rw [unlockEnd_sec], by rw [unlockEnd_sec]⟩
  case word =>
    intro s w hword hwindow
    refine congrArg Host.Outcome.next ?_
    rw [lifecycleFuseWord, hword]
    exact if_pos hwindow
  case replay =>
    intro s d hd
    refine congrArg Host.Outcome.next ?_
    rw [deferredReplay, hd]

end Sys2Proof.Machine
end

section
/-! The SPDM responder (R445, R450; O54). -/

namespace Sys2Proof.Machine

open Sys2Proof

section Requests

variable {s : State} {need : Nat} (body : State → State) (hruns : 5 ≤ s.fw.stage)

include hruns

/-- A request that DEBUG_OPEN does not stop, once the negotiation has come that far, is answered. -/
theorem spdmReq_answered {anyLife : Bool} (hlife : anyLife = true ∨ lifecycle s ≠ 2) (hneed : need ≤ s.sec.spdm) :
    spdmReq anyLife need s body = body s := by
  have hopen : (!anyLife && decide (lifecycle s = 2)) = false := by rcases hlife with h | h <;> simp [h]
  unfold spdmReq
  rw [if_neg (Nat.not_lt.mpr hruns), hopen, if_neg Bool.false_ne_true, if_neg (Nat.not_lt.mpr hneed)]

/-- In DEBUG_OPEN the other requests get Unspecified. -/
theorem spdmReq_debugOpen (hlife : lifecycle s = 2) : spdmReq false need s body = spdmError seUnspecified s := by
  unfold spdmReq
  rw [if_neg (Nat.not_lt.mpr hruns), if_pos (by simp [hlife])]

theorem inSession_answered {x : Session} (hlife : lifecycle s ≠ 2) (hneed : 3 ≤ s.sec.spdm) (hx : x ∈ s.sec.sessions) :
    inSession x.id x.st s body = body s :=
  (spdmReq_answered _ hruns (.inr hlife) hneed).trans (if_pos (List.any_eq_true.mpr ⟨x, hx, by simp⟩))

end Requests

/-- Settles O54: a request is answered by its body once it is let through (`spdmReq_answered`, `inSession_answered`), and with Unspecified in
DEBUG_OPEN (`spdmReq_debugOpen`). -/
theorem spdmResponderRuns : Obligations.SpdmResponderRuns := by
  refine ⟨?anyLife, ?negotiate, ?negotiated, ?debugOpen⟩
  case anyLife =>
    exact fun s hruns => ⟨congrArg Host.Outcome.next (spdmReq_answered _ hruns (.inl rfl) (Nat.zero_le _)),
      fun hneed => congrArg Host.Outcome.next (spdmReq_answered _ hruns (.inl rfl) hneed)⟩
  case negotiate =>
    exact fun s algs hruns hlife hneed halgs => congrArg Host.Outcome.next
      ((spdmReq_answered _ hruns (.inr hlife) hneed).trans (if_pos halgs))
  case negotiated =>
    intro s hruns hlife hneed
    have hreq (body : State → State) : spdmReq false 3 s body = body s := spdmReq_answered _ hruns (.inr hlife) hneed
    have hinside (body : State → State) {x : Session} {st : Nat} (hx : x ∈ s.sec.sessions) (hst : x.st = st) :
        inSession x.id st s body = body s := hst ▸ inSession_answered body hruns hlife hneed hx
    refine ⟨congrArg Host.Outcome.next (hreq _), fun slot off len => congrArg Host.Outcome.next (hreq _),
      fun nonce => congrArg Host.Outcome.next (hreq _), fun k nonce hpos hle => congrArg Host.Outcome.next ((hreq _).trans ?measure),
      fun pub hroom => ⟨_, congrArg Host.Outcome.next ((hreq _).trans (if_neg (Nat.not_le.mpr hroom))), rfl, rfl, rfl⟩,
      fun pub hfull => congrArg Host.Outcome.next ((hreq _).trans (if_pos hfull)),
      fun x hx hst => congrArg Host.Outcome.next (hinside _ hx hst),
      fun x hx hst => ⟨congrArg Host.Outcome.next (hinside _ hx hst), congrArg Host.Outcome.next (hinside _ hx hst),
        congrArg Host.Outcome.next (hinside _ hx hst)⟩⟩
    case measure =>
      rw [if_neg (by omega), if_neg (by omega), if_neg (by omega)]
  case debugOpen =>
    intro s c hruns hlife hc
    have hreq (need : Nat) (body : State → State) :
        (Host.Outcome.next (spdmReq false need s body) : Host.Outcome State Fault Refusal) = .next (spdmError seUnspecified s) :=
      congrArg Host.Outcome.next (spdmReq_debugOpen body hruns hlife)
    refine (?_ : ∀ c ∈ _, exec c s = .next (spdmError seUnspecified s)) c hc
    simp only [List.forall_mem_cons, List.not_mem_nil, false_imp_iff, implies_true, and_true]
    and_intros
    all_goals exact hreq _ _

end Sys2Proof.Machine
end

section
/-! The management bus and the JTAG port (R450, R452, R453, R459, R460, R462; O55, O56). -/

namespace Sys2Proof.Machine

open Sys2Proof

section Bus

variable {s : State} (body : State → State)

theorem busReq_supplied (h : s.pins.vaux3 = true) : busReq s body = body s := if_pos h

/-- In I3C mode a directed code acts. -/
theorem inI3c_addressed {a : Nat} (h : s.pins.vaux3 = true) (hdyn : s.mgmt.dyn = some a) : inI3c s body = body s :=
  (busReq_supplied _ h).trans (if_pos (by rw [hdyn]; rfl))

/-- In SMBus mode it is not acknowledged. -/
theorem inI3c_unaddressed (h : s.pins.vaux3 = true) (hdyn : s.mgmt.dyn = none) : inI3c s body = emit .nack s :=
  (busReq_supplied _ h).trans (if_neg (by rw [hdyn]; exact Bool.false_ne_true))

theorem assign_taken {a b : Nat} {bs : List Byte} (h : s.pins.vaux3 = true) (hdyn : s.mgmt.dyn = some a) :
    assign b bs s = emit .nack s := (busReq_supplied _ h).trans (if_pos (by rw [hdyn]; rfl))

theorem assign_free {b : Nat} {bs : List Byte} (h : s.pins.vaux3 = true) (hdyn : s.mgmt.dyn = none) :
    assign b bs s = busOut bs { s with mgmt := { s.mgmt with dyn := some (b % 128) } } :=
  (busReq_supplied _ h).trans (if_neg (by rw [hdyn]; exact Bool.false_ne_true))

end Bus

/-- Settles O55: the codes by the mode they come in (`inI3c_addressed`, `inI3c_unaddressed`), an assignment by whether the part has an
address (`assign_free`, `assign_taken`), the register reads in either mode (`busReq_supplied`). -/
theorem managementBusRuns : Obligations.ManagementBusRuns := by
  refine ⟨?free, ?addressed, ?unaddressed, ?reads⟩
  case free => exact fun s a h hdyn => ⟨congrArg Host.Outcome.next (assign_free h hdyn), congrArg Host.Outcome.next (assign_free h hdyn)⟩
  case addressed =>
    intro s a b mask len h hdyn
    have hcode (body : State → State) : (Host.Outcome.next (inI3c s body) : Host.Outcome State Fault Refusal) = .next (body s) :=
      congrArg Host.Outcome.next (inI3c_addressed body h hdyn)
    exact ⟨congrArg Host.Outcome.next (assign_taken h hdyn), congrArg Host.Outcome.next (assign_taken h hdyn),
      congrArg Host.Outcome.next (busReq_supplied _ h), hcode _, hcode _, hcode _, hcode _, hcode _, ⟨_, _, hcode _⟩, hcode _, hcode _,
      hcode _, hcode _⟩
  case unaddressed =>
    intro s c h hdyn hc
    have hcode (body : State → State) : (Host.Outcome.next (inI3c s body) : Host.Outcome State Fault Refusal) = .next (emit .nack s) :=
      congrArg Host.Outcome.next (inI3c_unaddressed body h hdyn)
    refine (?_ : ∀ c ∈ _, exec c s = .next (emit .nack s)) c hc
    simp only [List.forall_mem_cons, List.not_mem_nil, false_imp_iff, implies_true, and_true]
    and_intros
    all_goals exact hcode _
  case reads =>
    intro s h
    have hread (body : State → State) : (Host.Outcome.next (busReq s body) : Host.Outcome State Fault Refusal) = .next (body s) :=
      congrArg Host.Outcome.next (busReq_supplied body h)
    exact ⟨hread _, hread _, hread _, hread _, hread _,
      fun i hi => (hread _).trans (congrArg Host.Outcome.next (if_pos hi)),
      fun i hi => (hread _).trans (congrArg Host.Outcome.next (if_neg (Nat.not_lt.mpr hi)))⟩

section Jtag

variable {s : State} {k : Nat}

/-- BYPASS, CLAMP and HIGHZ shift out the one bypass bit. -/
theorem loadIr_bypass {e : Nat} (h : s.pins.vaux3 = true) (heffect : jtagEffect { s with jtag := { s.jtag with ir := k } } = e)
    (he : e = 0x03 ∨ e = 0x04 ∨ e = 0xFF) : loadIr k s = emit (.jtag 0 1) { s with jtag := { s.jtag with ir := k } } := by
  unfold loadIr
  rw [h]
  dsimp only
  rw [heffect]
  rcases he with rfl | rfl | rfl <;> rfl

/-- The boundary register is captured and shifted out under EXTEST and SAMPLE/PRELOAD. -/
theorem loadIr_boundary (h : s.pins.vaux3 = true) (heffect : jtagEffect { s with jtag := { s.jtag with ir := k } } = k)
    (hk : k = 0x00 ∨ k = 0x02) :
    loadIr k s = emit (.jtag (captured { s with jtag := { s.jtag with ir := k } }).toNat 84)
      { s with jtag := { s.jtag with ir := k }, freeIdx := s.freeIdx + 84 } := by
  unfold loadIr
  rw [h]
  dsimp only
  rw [heffect]
  rcases hk with rfl | rfl <;> rfl

theorem loadIr_internal (h : s.pins.vaux3 = true) (heffect : jtagEffect { s with jtag := { s.jtag with ir := k } } = 0x20) :
    loadIr k s = { s with jtag := { s.jtag with ir := k } } := by
  unfold loadIr
  rw [h]
  dsimp only
  rw [heffect]
  rfl

/-- EXTEST, CLAMP and HIGHZ act only while RESET_N is asserted. -/
theorem jtagEffect_pins (hir : s.jtag.ir = k) (hk : k = 0x00 ∨ k = 0x03 ∨ k = 0x04) :
    jtagEffect s = if s.pins.resetN = true then k else 0xFF := by
  unfold jtagEffect
  rcases hk with rfl | rfl | rfl <;> simp [hir]

theorem jtagEffect_internal (hir : s.jtag.ir = 0x20) : jtagEffect s = if lifecycle s = 2 then 0x20 else 0xFF := by
  unfold jtagEffect
  rw [hir]
  rfl

/-- With RESET_N deasserted the part drives its pins. -/
theorem jtagDrive_running (h : s.pins.resetN = false) : jtagDrive s = 0 := by
  have heffect : jtagEffect s = 0x01 ∨ jtagEffect s = 0x02 ∨ jtagEffect s = 0x20 ∨ jtagEffect s = 0xFF := by
    unfold jtagEffect
    split
    · exact .inl rfl
    · exact .inr (.inl rfl)
    · split <;> simp
    · simp [h]
  unfold jtagDrive
  rcases heffect with he | he | he | he <;> rw [he] <;> rfl

theorem jtagDrive_reset (h : s.pins.resetN = true) (hir : s.jtag.ir = k) (hk : k = 0x00 ∨ k = 0x03 ∨ k = 0x04) :
    jtagDrive s = if k = 0x04 then 2 else 1 := by
  unfold jtagDrive
  rw [jtagEffect_pins hir hk, if_pos h]
  rcases hk with rfl | rfl | rfl <;> rfl

end Jtag

/-- Settles O56: each instruction by the one that takes effect in its place (`jtagEffect_pins`, `jtagEffect_internal`), and what that one
shifts out (`loadIr_bypass`, `loadIr_boundary`). -/
theorem jtagCommandsRun : Obligations.JtagCommandsRun := by
  intro s h ir hir
  obtain rfl : ir = fun k => { s with jtag := { s.jtag with ir := k } } := funext hir
  have hpins {k : Nat} (hk : k = 0x00 ∨ k = 0x03 ∨ k = 0x04) :
      jtagEffect { s with jtag := { s.jtag with ir := k } } = if s.pins.resetN = true then k else 0xFF := jtagEffect_pins rfl hk
  have hdrive {k : Nat} (hk : k = 0x00 ∨ k = 0x03 ∨ k = 0x04) (hreset : s.pins.resetN = true) :
      jtagDrive { s with jtag := { s.jtag with ir := k } } = if k = 0x04 then 2 else 1 := jtagDrive_reset hreset rfl hk
  have hbypass {k : Nat} (hk : k = 0x00 ∨ k = 0x03 ∨ k = 0x04) (hshift : s.pins.resetN = true → k = 0x03 ∨ k = 0x04) :
      loadIr k s = emit (.jtag 0 1) { s with jtag := { s.jtag with ir := k } } := by
    refine loadIr_bypass h (hpins hk) ?_
    split
    next hreset => exact (hshift hreset).imp_right .inl
    next => exact .inr (.inr rfl)
  refine ⟨?idcode, fun hreset => ?extestReset, fun hreset => ?extest, fun cells => ?sample, ?clamp, ?highz, fun hlife => ?closed,
    fun hlife => ?debugOpen, ?bypass, congrArg Host.Outcome.next (if_pos h), fun hreset => ⟨?driveExtest, ?driveClamp, ?driveHighz⟩,
    fun hreset k _ => jtagDrive_running hreset⟩
  case idcode => exact congrArg Host.Outcome.next (if_neg (by simp [h]))
  case extestReset => exact ⟨_, congrArg Host.Outcome.next (loadIr_boundary h ((hpins (.inl rfl)).trans (if_pos hreset)) (.inl rfl))⟩
  case extest => exact congrArg Host.Outcome.next (hbypass (.inl rfl) (by simp [hreset]))
  case sample =>
    exact ⟨_, congrArg Host.Outcome.next ((if_pos h).trans
      (congrArg (fun t : State => { t with jtag := { t.jtag with boundary := cells } }) (loadIr_boundary (k := 0x02) h rfl (.inr rfl))))⟩
  case clamp => exact congrArg Host.Outcome.next (hbypass (.inr (.inl rfl)) fun _ => .inl rfl)
  case highz => exact congrArg Host.Outcome.next (hbypass (.inr (.inr rfl)) fun _ => .inr rfl)
  case closed =>
    exact congrArg Host.Outcome.next (loadIr_bypass h ((jtagEffect_internal rfl).trans (if_neg hlife)) (.inr (.inr rfl)))
  case debugOpen => exact congrArg Host.Outcome.next (loadIr_internal h ((jtagEffect_internal rfl).trans (if_pos hlife)))
  case bypass => exact congrArg Host.Outcome.next (loadIr_bypass (k := 0xFF) h rfl (.inr (.inr rfl)))
  case driveExtest => exact hdrive (.inl rfl) hreset
  case driveClamp => exact hdrive (.inr (.inl rfl)) hreset
  case driveHighz => exact hdrive (.inr (.inr rfl)) hreset

end Sys2Proof.Machine
end
